-- ==== Sys2Proof/Word.lean ====
section
/-!
DEFINITION. Word.lean: the word types of the machine (R39, R85) and nothing else; the bit helpers stand in Machine/Bits.lean.
-/
namespace Sys2Proof

/-- One byte of a memory. -/
abbrev Byte := BitVec 8
/-- A 64-bit scalar: x and k registers, CSRs, literals (R39, R85). -/
abbrev Word := BitVec 64
/-- The widest value a move carries: a v register, a port, a queue element (R39, R92, R270). -/
abbrev Vec := BitVec 1024

end Sys2Proof
end

