-- ==== Sys2Proof/Machine/Bits.lean ====
section
/-!
DEFINITION. Machine/Bits.lean: bit fields, sign extension, lanes and byte order (R3, R40, R63), used everywhere.
-/
namespace Sys2Proof.Machine

/-- Bits lo+w-1 : lo of a number. -/
def bitsOf (n lo w : Nat) : Nat := (n >>> lo) % 2 ^ w

/-- Bits lo+w-1 : lo of a bit vector, as a number. -/
def fld {k : Nat} (v : BitVec k) (lo w : Nat) : Nat := bitsOf v.toNat lo w

/-- One bit of a bit vector. -/
def bit {k : Nat} (v : BitVec k) (i : Nat) : Bool := fld v i 1 == 1

/-- The two's-complement reading of the low w bits (R52). -/
def sintOf (w n : Nat) : Int :=
  if bitsOf n (w - 1) 1 = 1 then (n % 2 ^ w : Nat) - (2 ^ w : Nat) else (n % 2 ^ w : Nat)

/-- The low w bits of an integer (arithmetic wraps modulo 2^w, R52). -/
def wrapInt (w : Nat) (z : Int) : Nat := (z % (2 ^ w : Nat)).toNat

/-- Saturate (R63). -/
def saturate (x lo hi : Int) : Int := if x < lo then lo else if hi < x then hi else x

/-- A bit vector of the low bits of a number, in the width of a port value. -/
def toVec (n : Nat) : Vec := BitVec.ofNat 1024 n

/-- A 64-bit scalar widened into a port value (R40: zero-extended). -/
def wordVec (w : Word) : Vec := w.setWidth 1024

/-- The low 64 bits of a port value (R40: the low-order bits). -/
def vecWord (v : Vec) : Word := v.setWidth 64

/-- Lanes(l) at element width w (R63). -/
def lane (w l : Nat) (v : Vec) : Nat := fld v (w * l) w

/-- The number whose w-bit digits are these, digit 0 first. -/
def packNat (w : Nat) : List Nat → Nat
  | [] => 0
  | x :: xs => x % 2 ^ w + 2 ^ w * packNat w xs

/-- A port value from its lanes at element width w, lane 0 first; missing lanes are 0. -/
def packLanes (w : Nat) (xs : List Nat) : Vec := toVec (packNat w xs)

/-- The first n lanes at element width w. -/
def lanes (w n : Nat) (v : Vec) : List Nat := (List.range n).map fun l => lane w l v

/-- A mask result: bit l is set exactly when entry l is true (R133). -/
def packMask (bs : List Bool) : Vec := packLanes 1 (bs.map fun b => if b then 1 else 0)

/-- n bytes of a number, least significant first (R3). -/
def leBytes : Nat → Nat → List Byte
  | 0, _ => []
  | n + 1, v => BitVec.ofNat 8 v :: leBytes n (v / 256)

/-- The number that bytes stand for, least significant first (R3). -/
def leNat : List Byte → Nat
  | [] => 0
  | b :: bs => b.toNat + 256 * leNat bs

/-- Bytes from..from+n-1 of a list, with zero beyond its end. -/
def slice (bs : List Byte) (start n : Nat) : List Byte :=
  let s := (bs.drop start).take n
  s ++ List.replicate (n - s.length) 0

/-- A little-endian field of a byte list. -/
def leField (bs : List Byte) (start n : Nat) : Nat := leNat (slice bs start n)

/-- The 128 bytes of a port value, byte 0 first. -/
def vecBytes (v : Vec) : List Byte := leBytes 128 v.toNat

/-- A port value from its bytes. -/
def bytesVec (bs : List Byte) : Vec := toVec (leNat bs)

/-- The number of bits of n (0 for 0). -/
def bitLen (n : Nat) : Nat := if n = 0 then 0 else Nat.log2 n + 1

/-- The number of one bits among the low k bits. -/
def popCount : Nat → Nat → Nat
  | 0, _ => 0
  | k + 1, n => n % 2 + popCount k (n / 2)

/-- ⌈a / b⌉. -/
def ceilDiv (a b : Nat) : Nat := (a + b - 1) / b

/-- The access size a 3-bit size code stands for (R224). -/
def sizeOf (code : Nat) : Nat := 2 ^ code

/-- Replace element i of a list, if it has one. -/
def setAt {α : Type} (xs : List α) (i : Nat) (x : α) : List α := xs.set i x

end Sys2Proof.Machine
end

