-- ==== Sys2Proof/Syntax.lean ====
section
/-!
DEFINITION. Syntax.lean: every row of the opcode table as one constructor of `Instr`: the control operations (R33), the three
moves (R35), the triggers (R45) and the events of the table that have no encoding. An operand holds the value an encoding
field names, a literal source holds the literal's value (R32); an event holds, as plain data, what it acts on.
-/
namespace Sys2Proof

/-- The `lit` field of a control slot (R30, R32); the reserved value 0b11 has no name. -/
inductive Lit where
  | none | w32 | w64
  deriving DecidableEq, Repr

/-- The fields every control slot carries beside its operation (R30). -/
structure CtlHead where
  xstall : BitVec 3
  quiet : Bool
  lit : Lit
  deriving DecidableEq, Repr

/-- A guard: inverted or not, and its predicate register (R35, R36). -/
structure Guard where
  inv : Bool
  pred : BitVec 4
  deriving DecidableEq, Repr

/-- The register classes of R39. -/
inductive RegClass where
  | x | v | j | p | k
  deriving DecidableEq, Repr

/-- A register: its class and index (R39). -/
structure Reg where
  cls : RegClass
  idx : BitVec 6
  deriving DecidableEq, Repr

/-- The sources of a move (R37). A literal source carries the value of the bundle's literal (R32). -/
inductive Src where
  | reg (r : Reg) (hold : Bool)
  | port (s : BitVec 5) (y : BitVec 3) (hold : Bool)
  | imm (v : BitVec 12)
  | lit (v : Word)
  | stream (f : BitVec 4) (peek hold : Bool)
  | recvq (q : BitVec 2) (peek hold : Bool)
  | cq (peek hold : Bool)
  deriving DecidableEq, Repr

/-- A logical tile: compute die 0-7 (0-3 M, 4-7 B) and mesh position (R7, R15). -/
structure TileId where
  die : Nat
  row : Nat
  col : Nat
  deriving DecidableEq, Repr

/-- A queue entry: context, graph, replay, node and launch serial (R308). -/
structure NodeRef where
  ctx : Nat
  graph : Nat
  replay : Nat
  node : Nat
  serial : Nat
  deriving DecidableEq, Repr

/-- The policies of a stop request (R285, R280). -/
inductive StopPolicy where
  | drain | checkpoint | kill
  deriving DecidableEq, Repr

/-- What a patrol scrub finds in a word (R221). -/
inductive ScrubResult where
  | clean | correctable | uncorrectable
  deriving DecidableEq, Repr

/-- A fabric request or reply (R380): who sent it, and the transport header's fields with the data. `tile` names the issuing
tile of this device and its access serial when the request did not come through a fabric port. -/
structure FabricReq where
  op : BitVec 8
  st : BitVec 8
  sdev : BitVec 16
  ddev : BitVec 16
  addr : Word
  tag : BitVec 32
  ctl : BitVec 8
  fn : BitVec 16
  ts : Word
  data : List Byte
  len : Nat
  tile : Option (TileId × Nat)
  deriving DecidableEq, Repr

/-- The instructions: one constructor for each row of the opcode table. -/
inductive Instr where
  /-- CTL_NOP (R33). -/
  | ctlNop (h : CtlHead)
  /-- CTL_STALL (R31). -/
  | ctlStall (h : CtlHead) (m : BitVec 21)
  /-- CTL_BRA (R105). -/
  | ctlBra (h : CtlHead) (d : BitVec 21)
  /-- CTL_BRP (R105). -/
  | ctlBrp (h : CtlHead) (p : BitVec 4) (inv : Bool) (d : BitVec 16)
  /-- CTL_BRI (R105). -/
  | ctlBri (h : CtlHead) (x : BitVec 6)
  /-- CTL_CALL (R105). -/
  | ctlCall (h : CtlHead) (d : BitVec 21)
  /-- CTL_RET (R105). -/
  | ctlRet (h : CtlHead)
  /-- CTL_LOOP (R106). -/
  | ctlLoop (h : CtlHead) (body : BitVec 12) (stages : BitVec 3) (trip : BitVec 6) (strides : Word)
  /-- CTL_LEND (R109). -/
  | ctlLend (h : CtlHead) (b : BitVec 16)
  /-- CTL_LBRK (R110). -/
  | ctlLbrk (h : CtlHead)
  /-- CTL_WAIT (R111). -/
  | ctlWait (h : CtlHead) (idx : BitVec 6) (sem : Bool)
  /-- CTL_TRAP (R112). -/
  | ctlTrap (h : CtlHead)
  /-- CTL_FMT (R72). -/
  | ctlFmt (h : CtlHead) (f : BitVec 5) (v : BitVec 16)
  /-- CTL_UIRET (R124). -/
  | ctlUiret (h : CtlHead)
  /-- CTL_STROKEEND (R113). -/
  | ctlStrokeend (h : CtlHead)
  /-- CTL_HALT (R117). -/
  | ctlHalt (h : CtlHead)
  /-- CTL_SRET (R116). -/
  | ctlSret (h : CtlHead)
  /-- MOVE_TO_REGISTER (R42). -/
  | moveToRegister (g : Guard) (x : Src) (r : Reg)
  /-- MOVE_TO_STREAM (R231). -/
  | moveToStream (g : Guard) (x : Src) (f : BitVec 4)
  /-- MOVE_TO_OPERAND (R38). -/
  | moveToOperand (g : Guard) (x : Src) (s : BitVec 5) (o : BitVec 2)
  /-- IA_ADD (R102). -/
  | iaAdd (g : Guard) (x : Src) (n : Bool)
  /-- IA_SUB (R102). -/
  | iaSub (g : Guard) (x : Src) (n : Bool)
  /-- IA_AND (R102). -/
  | iaAnd (g : Guard) (x : Src) (n : Bool)
  /-- IA_OR (R102). -/
  | iaOr (g : Guard) (x : Src) (n : Bool)
  /-- IA_XOR (R102). -/
  | iaXor (g : Guard) (x : Src) (n : Bool)
  /-- IA_ANDN (R102). -/
  | iaAndn (g : Guard) (x : Src) (n : Bool)
  /-- IA_SHL (R102). -/
  | iaShl (g : Guard) (x : Src) (n : Bool)
  /-- IA_SHR (R102). -/
  | iaShr (g : Guard) (x : Src) (n : Bool)
  /-- IA_SRA (R102). -/
  | iaSra (g : Guard) (x : Src) (n : Bool)
  /-- IA_MIN (R102). -/
  | iaMin (g : Guard) (x : Src) (n : Bool)
  /-- IA_MAX (R102). -/
  | iaMax (g : Guard) (x : Src) (n : Bool)
  /-- IA_MINU (R102). -/
  | iaMinu (g : Guard) (x : Src) (n : Bool)
  /-- IA_MAXU (R102). -/
  | iaMaxu (g : Guard) (x : Src) (n : Bool)
  /-- IA_CEQ (R102). -/
  | iaCeq (g : Guard) (x : Src) (n : Bool)
  /-- IA_CNE (R102). -/
  | iaCne (g : Guard) (x : Src) (n : Bool)
  /-- IA_CLT (R102). -/
  | iaClt (g : Guard) (x : Src) (n : Bool)
  /-- IA_CLTU (R102). -/
  | iaCltu (g : Guard) (x : Src) (n : Bool)
  /-- IA_CLE (R102). -/
  | iaCle (g : Guard) (x : Src) (n : Bool)
  /-- IA_CLEU (R102). -/
  | iaCleu (g : Guard) (x : Src) (n : Bool)
  /-- IA_SEL (R102). -/
  | iaSel (g : Guard) (x : Src) (n : Bool)
  /-- IA_PASS (R102). -/
  | iaPass (g : Guard) (x : Src) (n : Bool)
  /-- IA_SEXT (R102). -/
  | iaSext (g : Guard) (x : Src) (n : Bool)
  /-- IA_ZEXT (R102). -/
  | iaZext (g : Guard) (x : Src) (n : Bool)
  /-- IA_CLZ (R102). -/
  | iaClz (g : Guard) (x : Src) (n : Bool)
  /-- IA_POPC (R102). -/
  | iaPopc (g : Guard) (x : Src) (n : Bool)
  /-- IA_ADDSC (R102). -/
  | iaAddsc (g : Guard) (x : Src) (n : Bool)
  /-- IA_BEXT (R102). -/
  | iaBext (g : Guard) (x : Src) (n : Bool)
  /-- IA_BINS (R102). -/
  | iaBins (g : Guard) (x : Src) (n : Bool)
  /-- IMD_MUL (R103). -/
  | imdMul (g : Guard) (x : Src)
  /-- IMD_MULH (R103). -/
  | imdMulh (g : Guard) (x : Src)
  /-- IMD_MULHU (R103). -/
  | imdMulhu (g : Guard) (x : Src)
  /-- IMD_DIV (R103). -/
  | imdDiv (g : Guard) (x : Src)
  /-- IMD_DIVU (R103). -/
  | imdDivu (g : Guard) (x : Src)
  /-- IMD_REM (R103). -/
  | imdRem (g : Guard) (x : Src)
  /-- IMD_REMU (R103). -/
  | imdRemu (g : Guard) (x : Src)
  /-- VA_FADD (R135). -/
  | vaFadd (g : Guard) (x : Src) (n : Bool)
  /-- VA_FSUB (R135). -/
  | vaFsub (g : Guard) (x : Src) (n : Bool)
  /-- VA_FMUL (R135). -/
  | vaFmul (g : Guard) (x : Src) (n : Bool)
  /-- VA_FMA (R135). -/
  | vaFma (g : Guard) (x : Src) (n : Bool)
  /-- VA_FMIN (R136). -/
  | vaFmin (g : Guard) (x : Src) (n : Bool)
  /-- VA_FMAX (R136). -/
  | vaFmax (g : Guard) (x : Src) (n : Bool)
  /-- VA_FSGN (R137). -/
  | vaFsgn (g : Guard) (x : Src) (n : Bool)
  /-- VA_FCMP (R138). -/
  | vaFcmp (g : Guard) (x : Src) (n : Bool)
  /-- VA_FCVT (R141). -/
  | vaFcvt (g : Guard) (x : Src) (n : Bool)
  /-- VA_FROUND (R140). -/
  | vaFround (g : Guard) (x : Src) (n : Bool)
  /-- VA_FTOI (R142). -/
  | vaFtoi (g : Guard) (x : Src) (n : Bool)
  /-- VA_ITOF (R142). -/
  | vaItof (g : Guard) (x : Src) (n : Bool)
  /-- VA_IADD (R143). -/
  | vaIadd (g : Guard) (x : Src) (n : Bool)
  /-- VA_ISUB (R143). -/
  | vaIsub (g : Guard) (x : Src) (n : Bool)
  /-- VA_IMUL (R143). -/
  | vaImul (g : Guard) (x : Src) (n : Bool)
  /-- VA_IAND (R143). -/
  | vaIand (g : Guard) (x : Src) (n : Bool)
  /-- VA_IOR (R143). -/
  | vaIor (g : Guard) (x : Src) (n : Bool)
  /-- VA_IXOR (R143). -/
  | vaIxor (g : Guard) (x : Src) (n : Bool)
  /-- VA_ISHL (R143). -/
  | vaIshl (g : Guard) (x : Src) (n : Bool)
  /-- VA_ISHR (R143). -/
  | vaIshr (g : Guard) (x : Src) (n : Bool)
  /-- VA_ISRA (R143). -/
  | vaIsra (g : Guard) (x : Src) (n : Bool)
  /-- VA_IMIN (R143). -/
  | vaImin (g : Guard) (x : Src) (n : Bool)
  /-- VA_IMAX (R143). -/
  | vaImax (g : Guard) (x : Src) (n : Bool)
  /-- VA_ICMP (R138). -/
  | vaIcmp (g : Guard) (x : Src) (n : Bool)
  /-- VA_BLEND (R144). -/
  | vaBlend (g : Guard) (x : Src) (n : Bool)
  /-- VA_SPLAT (R144). -/
  | vaSplat (g : Guard) (x : Src) (n : Bool)
  /-- VA_FCLASS (R139). -/
  | vaFclass (g : Guard) (x : Src) (n : Bool)
  /-- VX_PERM (R146). -/
  | vxPerm (g : Guard) (x : Src)
  /-- VX_ROT (R146). -/
  | vxRot (g : Guard) (x : Src)
  /-- VX_SHUFL (R147). -/
  | vxShufl (g : Guard) (x : Src)
  /-- VX_REDADD (R148). -/
  | vxRedadd (g : Guard) (x : Src)
  /-- VX_REDMAX (R148). -/
  | vxRedmax (g : Guard) (x : Src)
  /-- VX_REDMIN (R148). -/
  | vxRedmin (g : Guard) (x : Src)
  /-- VX_SCAN (R149). -/
  | vxScan (g : Guard) (x : Src)
  /-- VX_PART (R150). -/
  | vxPart (g : Guard) (x : Src)
  /-- VX_COMPACT (R151). -/
  | vxCompact (g : Guard) (x : Src)
  /-- VX_EXPAND (R152). -/
  | vxExpand (g : Guard) (x : Src)
  /-- VX_BCAST (R146). -/
  | vxBcast (g : Guard) (x : Src)
  /-- SFU_EXP2 (R154). -/
  | sfuExp2 (g : Guard) (x : Src)
  /-- SFU_LOG2 (R154). -/
  | sfuLog2 (g : Guard) (x : Src)
  /-- SFU_RCP (R154). -/
  | sfuRcp (g : Guard) (x : Src)
  /-- SFU_RSQRT (R154). -/
  | sfuRsqrt (g : Guard) (x : Src)
  /-- SFU_SQRT (R154). -/
  | sfuSqrt (g : Guard) (x : Src)
  /-- SFU_SINPI (R154). -/
  | sfuSinpi (g : Guard) (x : Src)
  /-- SFU_COSPI (R154). -/
  | sfuCospi (g : Guard) (x : Src)
  /-- SFU_TANH (R154). -/
  | sfuTanh (g : Guard) (x : Src)
  /-- SFU_SIGM (R154). -/
  | sfuSigm (g : Guard) (x : Src)
  /-- MX_WLOAD (R184). -/
  | mxWload (g : Guard) (x : Src)
  /-- MX_WSWAP (R186). -/
  | mxWswap (g : Guard) (x : Src)
  /-- MX_MSTREAM (R188). -/
  | mxMstream (g : Guard) (x : Src)
  /-- MX_MSTREAMN (R188). -/
  | mxMstreamn (g : Guard) (x : Src)
  /-- MX_MCLR (R190). -/
  | mxMclr (g : Guard) (x : Src)
  /-- MX_MREAD (R192). -/
  | mxMread (g : Guard) (x : Src)
  /-- MX_MACW (R193). -/
  | mxMacw (g : Guard) (x : Src)
  /-- MX_MIVL (R189). -/
  | mxMivl (g : Guard) (x : Src)
  /-- MX_WLOADSP (R185). -/
  | mxWloadsp (g : Guard) (x : Src)
  /-- QNT_QNT (R203). -/
  | qntQnt (g : Guard) (x : Src)
  /-- QNT_QFLUSH (R206). -/
  | qntQflush (g : Guard) (x : Src)
  /-- QNT_QRANGE (R205). -/
  | qntQrange (g : Guard) (x : Src)
  /-- QNT_QTHR (R202). -/
  | qntQthr (g : Guard) (x : Src)
  /-- IV_IADD (R160). -/
  | ivIadd (g : Guard) (x : Src)
  /-- IV_ISUB (R160). -/
  | ivIsub (g : Guard) (x : Src)
  /-- IV_IMUL (R160). -/
  | ivImul (g : Guard) (x : Src)
  /-- IV_IDIV (R160). -/
  | ivIdiv (g : Guard) (x : Src)
  /-- IV_ISQR (R160). -/
  | ivIsqr (g : Guard) (x : Src)
  /-- IV_ISQRT (R160). -/
  | ivIsqrt (g : Guard) (x : Src)
  /-- IV_IEXP (R160). -/
  | ivIexp (g : Guard) (x : Src)
  /-- IV_ILOG (R160). -/
  | ivIlog (g : Guard) (x : Src)
  /-- IV_IMAX (R161). -/
  | ivImax (g : Guard) (x : Src)
  /-- IV_IMIN (R161). -/
  | ivImin (g : Guard) (x : Src)
  /-- IV_IHULL (R161). -/
  | ivIhull (g : Guard) (x : Src)
  /-- IV_ISECT (R161). -/
  | ivIsect (g : Guard) (x : Src)
  /-- IV_IMID (R162). -/
  | ivImid (g : Guard) (x : Src)
  /-- IV_IRAD (R162). -/
  | ivIrad (g : Guard) (x : Src)
  /-- IV_IWID (R162). -/
  | ivIwid (g : Guard) (x : Src)
  /-- IV_ICMP (R166). -/
  | ivIcmp (g : Guard) (x : Src)
  /-- IV_IIN (R167). -/
  | ivIin (g : Guard) (x : Src)
  /-- IV_ISUBSET (R167). -/
  | ivIsubset (g : Guard) (x : Src)
  /-- IV_IMK (R163). -/
  | ivImk (g : Guard) (x : Src)
  /-- IV_ILO (R162). -/
  | ivIlo (g : Guard) (x : Src)
  /-- IV_IHI (R162). -/
  | ivIhi (g : Guard) (x : Src)
  /-- IV_CADD (R169). -/
  | ivCadd (g : Guard) (x : Src)
  /-- IV_CSUB (R169). -/
  | ivCsub (g : Guard) (x : Src)
  /-- IV_CMUL (R169). -/
  | ivCmul (g : Guard) (x : Src)
  /-- IV_CDIV (R169). -/
  | ivCdiv (g : Guard) (x : Src)
  /-- IV_CSQR (R169). -/
  | ivCsqr (g : Guard) (x : Src)
  /-- IV_CSQRT (R169). -/
  | ivCsqrt (g : Guard) (x : Src)
  /-- IV_CEXP (R169). -/
  | ivCexp (g : Guard) (x : Src)
  /-- IV_CLOG (R169). -/
  | ivClog (g : Guard) (x : Src)
  /-- IV_CMAX (R169). -/
  | ivCmax (g : Guard) (x : Src)
  /-- IV_CMIN (R169). -/
  | ivCmin (g : Guard) (x : Src)
  /-- LW_LD (R225). -/
  | lwLd (g : Guard) (x : Src) (n : Bool)
  /-- LW_ST (R225). -/
  | lwSt (g : Guard) (x : Src) (n : Bool)
  /-- LW_LDX (R225). -/
  | lwLdx (g : Guard) (x : Src) (n : Bool)
  /-- LW_STX (R225). -/
  | lwStx (g : Guard) (x : Src) (n : Bool)
  /-- LW_BIND (R229). -/
  | lwBind (g : Guard) (x : Src) (n : Bool)
  /-- LW_UNBIND (R232). -/
  | lwUnbind (g : Guard) (x : Src) (n : Bool)
  /-- LW_SEAL (R227). -/
  | lwSeal (g : Guard) (x : Src) (n : Bool)
  /-- LW_RELEASE (R227). -/
  | lwRelease (g : Guard) (x : Src) (n : Bool)
  /-- LW_GATH (R228). -/
  | lwGath (g : Guard) (x : Src) (n : Bool)
  /-- LW_SCAT (R228). -/
  | lwScat (g : Guard) (x : Src) (n : Bool)
  /-- GM_LD (R235). -/
  | gmLd (g : Guard) (x : Src)
  /-- GM_ST (R235). -/
  | gmSt (g : Guard) (x : Src)
  /-- GM_LDACQ (R236). -/
  | gmLdacq (g : Guard) (x : Src)
  /-- GM_STREL (R236). -/
  | gmStrel (g : Guard) (x : Src)
  /-- GM_LDV (R235). -/
  | gmLdv (g : Guard) (x : Src)
  /-- GM_STV (R235). -/
  | gmStv (g : Guard) (x : Src)
  /-- GM_AMO (R237). -/
  | gmAmo (g : Guard) (x : Src)
  /-- GM_CAS (R238). -/
  | gmCas (g : Guard) (x : Src)
  /-- GM_FRED (R241). -/
  | gmFred (g : Guard) (x : Src)
  /-- GM_FREDRD (R241). -/
  | gmFredrd (g : Guard) (x : Src)
  /-- GM_FREDCLR (R241). -/
  | gmFredclr (g : Guard) (x : Src)
  /-- GM_FENCE (R243). -/
  | gmFence (g : Guard) (x : Src)
  /-- GM_GATH (R240). -/
  | gmGath (g : Guard) (x : Src)
  /-- GM_SCAT (R240). -/
  | gmScat (g : Guard) (x : Src)
  /-- CP_COPY (R246). -/
  | cpCopy (g : Guard) (x : Src)
  /-- CP_CSTAT (R252). -/
  | cpCstat (g : Guard) (x : Src)
  /-- CP_CCANCEL (R253). -/
  | cpCcancel (g : Guard) (x : Src)
  /-- CP_PREFETCH (R254). -/
  | cpPrefetch (g : Guard) (x : Src)
  /-- NET_SEND (R291). -/
  | netSend (g : Guard) (x : Src)
  /-- NET_SENDM (R291). -/
  | netSendm (g : Guard) (x : Src)
  /-- NET_PSEND (R293). -/
  | netPsend (g : Guard) (x : Src)
  /-- NET_QCNT (R299). -/
  | netQcnt (g : Guard) (x : Src)
  /-- SLU_SINIT (R368). -/
  | sluSinit (g : Guard) (x : Src)
  /-- SLU_ARRIVE (R368). -/
  | sluArrive (g : Guard) (x : Src)
  /-- SLU_ARRIVB (R368). -/
  | sluArrivb (g : Guard) (x : Src)
  /-- SLU_STEST (R369). -/
  | sluStest (g : Guard) (x : Src)
  /-- SLU_SRESET (R368). -/
  | sluSreset (g : Guard) (x : Src)
  /-- SLU_SEMADD (R368). -/
  | sluSemadd (g : Guard) (x : Src)
  /-- SLU_SEMSUB (R368). -/
  | sluSemsub (g : Guard) (x : Src)
  /-- TT_HALLOC (R357). -/
  | ttHalloc (g : Guard) (x : Src)
  /-- TT_HFREE (R357). -/
  | ttHfree (g : Guard) (x : Src)
  /-- TT_HSTATE (R357). -/
  | ttHstate (g : Guard) (x : Src)
  /-- TT_HSET (R357). -/
  | ttHset (g : Guard) (x : Src)
  /-- TT_HINFO (R357). -/
  | ttHinfo (g : Guard) (x : Src)
  /-- LNK_LAUNCH (R301). -/
  | lnkLaunch (g : Guard) (x : Src)
  /-- LNK_MBIND (R342). -/
  | lnkMbind (g : Guard) (x : Src)
  /-- LNK_MUNBIND (R349). -/
  | lnkMunbind (g : Guard) (x : Src)
  /-- LNK_MPOS (R348). -/
  | lnkMpos (g : Guard) (x : Src)
  /-- LNK_PERMIT (R303). -/
  | lnkPermit (g : Guard) (x : Src)
  /-- SYS_CSRR (R125). -/
  | sysCsrr (g : Guard) (x : Src)
  /-- SYS_CSRW (R125). -/
  | sysCsrw (g : Guard) (x : Src)
  /-- SYS_CSRS (R125). -/
  | sysCsrs (g : Guard) (x : Src)
  /-- SYS_CSRC (R125). -/
  | sysCsrc (g : Guard) (x : Src)
  /-- SYS_TSC (R126). -/
  | sysTsc (g : Guard) (x : Src)
  /-- SYS_EST (R126). -/
  | sysEst (g : Guard) (x : Src)
  /-- SYS_ECALL (R127). -/
  | sysEcall (g : Guard) (x : Src)
  /-- SYS_COUPLE (R128). -/
  | sysCouple (g : Guard) (x : Src)
  /-- SYS_DECOUPLE (R128). -/
  | sysDecouple (g : Guard) (x : Src)
  /-- FROZEN_BUNDLE_TAKES_EFFECT (R96). -/
  | frozenBundleTakesEffect (t : TileId)
  /-- DRAIN_WAIT_END (R96). -/
  | drainWaitEnd (t : TileId)
  /-- SOCKMODE_WRITE_EFFECT (R94). -/
  | sockmodeWriteEffect (t : TileId)
  /-- FMT_WRITE_EFFECT (R72). -/
  | fmtWriteEffect (t : TileId)
  /-- FREE_RUNNING_RESULT_DUE (R96). -/
  | freeRunningResultDue (t : TileId) (sock : BitVec 5)
  /-- DATA_LOCKED_COMPLETION (R92). -/
  | dataLockedCompletion (t : TileId) (sock : BitVec 5)
  /-- LATE_FAULT_REPORT (R307). -/
  | lateFaultReport (t : TileId)
  /-- STORE_RESPONSE_ARRIVAL (R244). -/
  | storeResponseArrival (t : TileId) (serial : Nat)
  /-- STROKE_START (R23). -/
  | strokeStart (t : TileId)
  /-- WAIT_SATISFIED (R364). -/
  | waitSatisfied (t : TileId)
  /-- STROKEEND_DRAIN_END (R113). -/
  | strokeendDrainEnd (t : TileId)
  /-- USER_INTERRUPT_ENTRY (R122). -/
  | userInterruptEntry (t : TileId)
  /-- HALT_RESUME (R117). -/
  | haltResume (t : TileId)
  /-- HANG_WATCHDOG_EXPIRY (R313). -/
  | hangWatchdogExpiry (t : TileId)
  /-- SAVE_WATCHDOG_EXPIRY (R313). -/
  | saveWatchdogExpiry (n : NodeRef)
  /-- QIB_OVERRUN (R328). -/
  | qibOverrun (t : TileId)
  /-- BANK_WHEEL_SLOT (R16). -/
  | bankWheelSlot (t : TileId)
  /-- STREAM_FETCH (R231). -/
  | streamFetch (t : TileId) (f : BitVec 4)
  /-- STREAM_STORE (R231). -/
  | streamStore (t : TileId) (f : BitVec 4)
  /-- HALLOC_ZEROING_DONE (R355). -/
  | hallocZeroingDone (t : TileId)
  /-- PAGE_WALK_COMPLETE (R218). -/
  | pageWalkComplete (t : TileId)
  /-- MIGRATION_WAIT_END (R219). -/
  | migrationWaitEnd (t : TileId)
  /-- MX_ARRAY_START (R195). -/
  | mxArrayStart (t : TileId)
  /-- MX_ARRAY_COMPLETE (R178). -/
  | mxArrayComplete (t : TileId)
  /-- MX_LOAD_COMPLETE (R195). -/
  | mxLoadComplete (t : TileId)
  /-- MX_WSWAP_EFFECT (R186). -/
  | mxWswapEffect (t : TileId)
  /-- QNT_UNIT_WRITE (R206). -/
  | qntUnitWrite (t : TileId)
  /-- COPY_ELEMENT_WRITE (R248). -/
  | copyElementWrite (t : TileId) (serial : Nat)
  /-- COPY_COMPLETION (R248). -/
  | copyCompletion (t : TileId) (serial : Nat)
  /-- COPY_PARK (R251). -/
  | copyPark (t : TileId) (serial : Nat)
  /-- SLUICE_ARRIVAL (R362). -/
  | sluiceArrival (t : TileId) (serial : Nat)
  /-- SEMAPHORE_ADDITION (R365). -/
  | semaphoreAddition (t : TileId) (serial : Nat)
  /-- SLU_RELEASE_EFFECT (R366). -/
  | sluReleaseEffect (t : TileId)
  /-- CIRCUIT_SLOT (R292). -/
  | circuitSlot (t : TileId) (c : BitVec 6)
  /-- CIRCUIT_ARRIVAL (R292). -/
  | circuitArrival (t : TileId) (serial : Nat)
  /-- PACKET_ARRIVAL (R297). -/
  | packetArrival (t : TileId) (serial : Nat)
  /-- PACKET_REINJECT (R297). -/
  | packetReinject (t : TileId) (serial : Nat)
  /-- VC2_FORWARD (R295). -/
  | vc2Forward (packet : Nat) (credit : List TileId)
  /-- PUMP_TILE_DELIVERY (R402). -/
  | pumpTileDelivery (main : Nat)
  /-- PUMP_HANDOVER (R403). -/
  | pumpHandover (main : Nat) (stage : Nat)
  /-- MULTICAST_SEND (R345). -/
  | multicastSend (main : Nat) (depth : Nat)
  /-- FETCH_PARK (R418). -/
  | fetchPark (main : Nat)
  /-- MAIN_BIND_AT_HOME (R342). -/
  | mainBindAtHome (t : TileId)
  /-- MAIN_DETACH_AT_HOME (R349). -/
  | mainDetachAtHome (t : TileId)
  /-- MAIN_REBIND_AT_RESTORE (R353). -/
  | mainRebindAtRestore (n : NodeRef)
  /-- HOME_CISTERN_FAILURE (R340). -/
  | homeCisternFailure (c : BitVec 4)
  /-- KICK_REGISTER (R275). -/
  | kickRegister (ctx : BitVec 12) (word : Word)
  /-- KICK_ACCEPT (R276). -/
  | kickAccept (ctx : BitVec 12)
  /-- NODE_READY (R280). -/
  | nodeReady (n : NodeRef)
  /-- HAND_OFF_MIGRATION (R222). -/
  | handOffMigration (n : NodeRef)
  /-- PLACEMENT_ROUND (R281). -/
  | placementRound (die : BitVec 3)
  /-- NODE_LOADED (R88). -/
  | nodeLoaded (n : NodeRef)
  /-- LAUNCH_ACCEPT (R301). -/
  | launchAccept (t : TileId)
  /-- EST_PUBLISH (R126). -/
  | estPublish (t : TileId)
  /-- CHILD_COMPLETION_DELIVERY (R302). -/
  | childCompletionDelivery (n : NodeRef)
  /-- END_SWEEP (R287). -/
  | endSweep (n : NodeRef)
  /-- STOP_REQUEST (R329). -/
  | stopRequest (n : NodeRef) (policy : StopPolicy)
  /-- CUT_ROUND (R330). -/
  | cutRound (n : NodeRef)
  /-- IMAGE_SEALED (R331). -/
  | imageSealed (n : NodeRef)
  /-- CHECKED_MISMATCH (R311). -/
  | checkedMismatch (t : TileId)
  /-- CHECKED_WRITE_TIMEOUT (R311). -/
  | checkedWriteTimeout (t : TileId)
  /-- HEADWORKS_FAILOVER (R26). -/
  | headworksFailover
  /-- GANG_READY (R288). -/
  | gangReady (gang : Nat) (dev : BitVec 12)
  /-- GANG_GO (R288). -/
  | gangGo (gang : Nat)
  /-- GANG_DEFER (R288). -/
  | gangDefer (gang : Nat)
  /-- LINK_TRAINED (R370). -/
  | linkTrained (link : Nat) (depth : BitVec 8)
  /-- AUDIT_SEND (R371). -/
  | auditSend (link : Nat) (vc : BitVec 2)
  /-- AUDIT_CHECK (R371). -/
  | auditCheck (link : Nat) (vc : BitVec 2)
  /-- LINK_DEAD (R321). -/
  | linkDead (link : Nat)
  /-- REROUTE_COMPLETE (R322). -/
  | rerouteComplete (die : BitVec 3)
  /-- REROUTE_TIMEOUT (R322). -/
  | rerouteTimeout (die : BitVec 3)
  /-- LINK_REPLAY_REQUEST (R379). -/
  | linkReplayRequest (link : Nat) (seq : BitVec 10)
  /-- LINK_ACKNOWLEDGMENT (R379). -/
  | linkAcknowledgment (link : Nat) (seq : BitVec 10)
  /-- LINK_CREDIT (R379). -/
  | linkCredit (link : Nat) (vc : BitVec 2) (crd : BitVec 8)
  /-- FABRIC_READ (R380). -/
  | fabricRead (q : FabricReq)
  /-- FABRIC_WRITE (R380). -/
  | fabricWrite (q : FabricReq)
  /-- FABRIC_RELEASE_WRITE (R380). -/
  | fabricReleaseWrite (q : FabricReq)
  /-- FABRIC_ATOMIC (R380). -/
  | fabricAtomic (q : FabricReq)
  /-- FABRIC_REDUCTION (R380). -/
  | fabricReduction (q : FabricReq)
  /-- FABRIC_REDUCTION_READ (R380). -/
  | fabricReductionRead (q : FabricReq)
  /-- FABRIC_FENCE_ORDER (R380). -/
  | fabricFenceOrder (q : FabricReq)
  /-- FABRIC_RESERVED_OP (R380). -/
  | fabricReservedOp (q : FabricReq)
  /-- FABRIC_REPLY (R380). -/
  | fabricReply (q : FabricReq)
  /-- HELLO (R381). -/
  | hello (port : Nat)
  /-- ASSIGN (R381). -/
  | assign (dev : BitVec 12) (count : Nat)
  /-- ALIGN (R381). -/
  | align (time : Word)
  /-- PORT_LOST (R377). -/
  | portLost (port : Nat)
  /-- TIMEBASE_TICK (R373). -/
  | timebaseTick
  /-- CREATE_CONTEXT (R383). -/
  | createContext (root key tokens cAddr cDepth eAddr eDepth : Word) (tag : BitVec 56)
  /-- DESTROY_CONTEXT (R383). -/
  | destroyContext (ctx : Word) (tag : BitVec 56)
  /-- WRITE_SCHED (R286). -/
  | writeSched (v : Word) (tag : BitVec 56)
  /-- READ_COUNTERS (R383). -/
  | readCounters (sel buf : Word) (tag : BitVec 56)
  /-- ATTESTATION_REPORT (R385). -/
  | attestationReport (n0 n1 n2 n3 buf : Word) (tag : BitVec 56)
  /-- UPLOAD_GRAPH (R271). -/
  | uploadGraph (ctx : BitVec 12) (addr len : Word) (tag : BitVec 56)
  /-- INVALIDATE (R220). -/
  | invalidate (ctx : BitVec 12) (va len : Word) (tag : BitVec 56)
  /-- THAW (R308). -/
  | thaw (ctx : BitVec 12) (entry : Word) (tag : BitVec 56)
  /-- DROP (R308). -/
  | drop (ctx : BitVec 12) (entry : Word) (tag : BitVec 56)
  /-- RESOLVED (R309). -/
  | resolved (ctx : BitVec 12) (entry pos item : Word) (tag : BitVec 56)
  /-- ABANDON (R309). -/
  | abandon (ctx : BitVec 12) (entry pos item : Word) (tag : BitVec 56)
  /-- COMMAND_WINDOW_WRITE (R382). -/
  | commandWindowWrite (sender : BitVec 16) (offset : BitVec 24) (size : Nat) (data : Word)
  /-- PACKAGE_RESET (R385). -/
  | packageReset
  /-- PATROL_SCRUB (R221). -/
  | patrolScrub (addr : Word) (found : ScrubResult)
  /-- LEVEL_GAUGE_SAMPLE (R374). -/
  | levelGaugeSample (island : Nat) (slack : BitVec 8)
  /-- VOLTAGE_RAISE (R388). -/
  | voltageRaise (island : Nat)
  /-- FREQUENCY_STEP (R388). -/
  | frequencyStep (island : Nat)
  /-- POWER_LIMIT_STALL (R388). -/
  | powerLimitStall (t : TileId) (n : Nat)
  /-- SUPERVISOR_TILE_FAILURE (R14). -/
  | supervisorTileFailure (die : BitVec 3)
  /-- FAILED_FLIT (R379). -/
  | failedFlit (link : Nat)
  /-- COMMAND_WORD_STORE (R383). -/
  | commandWordStore (page : BitVec 12) (word : Word)
  /-- PUMP_WRITE_BACK (R19). -/
  | pumpWriteBack (main : Nat) (dest : Word)
  deriving DecidableEq, Repr

end Sys2Proof
end

