-- ==== Sys2Proof/Machine/State.lean ====
section
/-!
DEFINITION. Machine/State.lean: all the state the spec gives the machine, as plain data, the two reason types of a step and
the state after reset. Sparse state (registers, memories, ports, tables) is a `Tab`: a list of key and value pairs in one
canonical form (keys strictly rising, no value equal to the default that an unlisted key reads as); the accessors stand in
Machine/Tab.lean. Every type here is plain data: no field is a function.
-/
namespace Sys2Proof.Machine

/-- A sparse table from natural-number keys; an unlisted key reads as the table's default. -/
abbrev Tab (α : Type) := List (Nat × α)
/-- A byte memory in the host's form; an unlisted address reads as zero (log 4). -/
abbrev Memory := List Host.Cell

/-! ## Registers, CSRs and ports of a tile -/

/-- The register files of R85 and the shadow bank of R122. Default values: 0; for j every lane empty by contraction. -/
structure Regs where
  x : Tab Word
  v : Tab Vec
  j : Tab Vec
  p : Tab (BitVec 2)
  k : Tab Word
  bank : Tab Word
  deriving DecidableEq, Repr

/-- The CSRs of R86 that the tile holds itself. TSC and FEAT belong to the die; STATUS.ldepth is the number of loop levels. -/
structure Csr where
  fmt : Word
  sockmode : Word
  stc : Word
  qib : Word
  cutn : Word
  npt : Word
  npf : Word
  est : Word
  fstat : Word
  faddr : Word
  uivec : Word
  uicause : Word
  uiepc : Word
  npos : Word
  param : Tab Word
  status : Word
  cause : Word
  epc : Word
  deriving DecidableEq, Repr

/-- A present operand port: its value and its hold latch (R92, R93). -/
structure Operand where
  val : Vec
  held : Bool
  deriving DecidableEq, Repr

/-- When a data-locked result is due: ready to be read, in so many cycles, or when the event with this serial answers. -/
inductive Due where
  | ready
  | cycles (n : Nat)
  | waits (serial : Nat)
  deriving DecidableEq, Repr

/-- A data-locked result, unread or under way, in trigger order on its port (R92, R95). A contractor keeps the operand it
narrows, for NPF (R172). `src` names the trigger code that made it. -/
structure Result where
  due : Due
  val : Vec
  narrowed : Option Vec
  deriving DecidableEq, Repr

/-- A free-running operation in flight toward a port: bundle steps left (R96). -/
structure Free where
  rem : Nat
  val : Vec
  narrowed : Option Vec
  deriving DecidableEq, Repr

/-- A result port: the locked queue, the free-running value with its unread mark, and the free-running operations in flight. -/
structure Port where
  fifo : List Result
  val : Vec
  unread : Bool
  flight : List Free
  deriving DecidableEq, Repr

/-- A socket: present operand ports (an unlisted port is absent) and result ports. -/
structure Socket where
  o : Tab Operand
  y : Tab Port
  deriving DecidableEq, Repr

/-! ## Control state of a tile -/

/-- One active loop level (R106, R107). -/
structure Loop where
  top : Nat
  last : Nat
  trips : Nat
  stages : Nat
  pass : Nat
  strides : Word
  window : List (BitVec 2)
  deriving DecidableEq, Repr

/-- A pending FMT write of one field: bundle steps left (R72). -/
structure FmtWrite where
  rem : Nat
  field : Nat
  val : Nat
  deriving DecidableEq, Repr

/-- A captured free-running result: socket, port and the operation with its remaining latency (R99). -/
structure Captured where
  sock : Nat
  port : Nat
  op : Free
  deriving DecidableEq, Repr

/-- The detail of a fault as CAUSE, EPC and the record report it (R305, R308). -/
structure FaultInfo where
  cause : Nat
  sock : Nat
  code : Nat
  slot : Nat
  late : Bool
  detail : Nat
  addr : Word
  deriving DecidableEq, Repr

/-- What a tile is doing. -/
inductive Run where
  /-- no stroke started: the sequencer starts the next one when it may (R23), or there is none left -/
  | idle
  /-- the next bundle issues in this cycle -/
  | go
  /-- cycles without issue after a bundle (R31) -/
  | stall (n : Nat)
  /-- the bundle at the pc froze (R96) -/
  | frozen
  /-- the bundle at the pc is in a drain wait (R96) -/
  | drain
  /-- at a ctl wait on a sluice or a semaphore, with the xstall cycles that follow it (R111) -/
  | waiting (sem : Bool) (idx : Nat) (xstall : Nat)
  /-- at a strokeend (R113): whether its drain is over, and its xstall cycles -/
  | ending (drained : Bool) (xstall : Nat)
  /-- between strokes: the last one has ended and the next waits to start (R23) -/
  | between
  /-- issue stopped by halt (R117), with the cycles without issue of its bundle that are left (R31) -/
  | halted (n : Nat)
  /-- in the trap runtime, waiting for the owner's answer (R309) -/
  | owner
  /-- stopped by a consistent cut (R329) -/
  | cut
  /-- stopped by the fault of its node, by a double fault, or because its node left (R308, R307) -/
  | stopped
  deriving DecidableEq, Repr

/-- A bundle that issues in parts (R97): the frozen cycles left before its last part, and the firing moves by slot with the values their
sources gave in the first part and their hold marks. -/
structure SplitBundle where
  left : Nat
  got : List (Nat × Instr × Vec × Bool)
  deriving DecidableEq, Repr

/-- The control state: loop levels innermost first, pending writes, captured state, late faults, the user-level event list,
what a resumed bundle leaves out (R116, R124), a SOCKMODE value for the next bundle (R94), the breakpoint and ecall traps that follow
the bundle (R112, R127), whether the bundle before was quiet (0 no, 1 yes, 2 and a user-level interrupt may be taken; R121) and where the
last quiet bundle stood, and the
cut number that a stop request has set (R329), the fault that waits for the owner's answer (R309), the bundle that issues in parts (R97),
whether the next bundle re-arms what a fault captured (R99), whether the last cycle was a freeze of the tile's own (R128), and whether the
tile stops at the end of its cycle because its node has faulted in the same cycle (R308). -/
structure Ctl where
  loops : List Loop
  fmtPending : List FmtWrite
  captured : List Captured
  capturedFmt : List FmtWrite
  late : List FaultInfo
  lost : Option (Nat × Nat)
  events : List (BitVec 24)
  dropped : Bool
  controlOnly : Bool
  mode : Option Word
  traps : List FaultInfo
  quietPoint : Nat
  quietAt : Nat
  stop : Option Word
  reported : Option Word
  owner : Option FaultInfo
  split : Option SplitBundle
  rearms : Bool
  froze : Bool
  leaving : Bool
  deriving DecidableEq, Repr

/-! ## Streams, matrix socket, quantiser -/

/-- A bound stream (R229-R231): `buf` holds fetched or queued elements with the failed mark's cause (0 none), `coming` those on
their way with the cycles left, `rows` the rows of the current element accessed, `moved` counts what moves have read or written,
`unit` what the transfer unit has fetched or stored, `fresh` marks the cycle of the bind. -/
structure Stream where
  h : Nat
  write : Bool
  esz : Nat
  counts : List Nat
  strides : List Int
  base : Nat
  buf : List (Vec × Nat)
  coming : List (Nat × Vec × Nat)
  rows : Nat
  moved : Nat
  unit : Nat
  stopped : Bool
  fresh : Bool
  deriving DecidableEq, Repr

/-- A decoded number of the internal float (R54): a NaN, an infinity with its sign, or m times 2^e. -/
inductive Num where
  | nan
  | inf (neg : Bool)
  | fin (neg : Bool) (m : Nat) (e : Int)
  deriving DecidableEq, Repr

/-- The layouts of a plane (R179): 0 dense, 1-3 N-of-8 with N = 1, 2, 4. -/
structure Plane where
  layout : Nat
  int : Bool
  fmt : Nat
  ncol : Nat
  w : Tab Num
  deriving DecidableEq, Repr

/-- A triggered mx operation: code, descriptor, the formats it uses, the physical plane it reads or writes (R186), its place in
trigger order, the units taken so far per stream, the slot of its trigger and the cycles since. -/
structure MxOp where
  code : Nat
  desc : Word
  ma : Nat
  mw : Nat
  sp : Nat
  plane : Bool
  seq : Nat
  taken : Tab (List Vec)
  slot : Nat
  age : Nat
  deriving DecidableEq, Repr

/-- An operation that has taken its last row or unit: the cycles to its completion, and the plane it read (R195). -/
structure MxEnd where
  rem : Nat
  op : MxOp
  plane : Plane
  deriving DecidableEq, Repr

/-- An mread that has taken effect: cycles to its result, the result's serial, its place in trigger order, the value (R196). -/
structure MxRead where
  rem : Nat
  serial : Nat
  seq : Nat
  val : Vec
  deriving DecidableEq, Repr

/-- The mx socket (R175-R197): accumulators by acc*4096 + row*64 + col, the two planes and which is stationary (`front`: the
second), queue, array with the rows entered and the half-cycles spent, loader, the operations that complete, and the busy marks
of mclr and macw (cycles left, mask). -/
structure Mx where
  acc : Tab (BitVec 32)
  p0 : Plane
  p1 : Plane
  front : Bool
  queue : List MxOp
  array : Option MxOp
  rows : Nat
  phase : Nat
  ending : List MxEnd
  loader : Option MxOp
  clears : List (Nat × Nat)
  reads : List MxRead
  seq : Nat
  deriving DecidableEq, Repr

/-- One triggered quantiser operation with its operands and the serial of its results. -/
structure QntOp where
  code : Nat
  a : Word
  b : Vec
  vf : Nat
  slot : Nat
  serial : Nat
  deriving DecidableEq, Repr

/-- Bits gathered toward a unit of 512, the first bit lowest. -/
structure BitBuf where
  val : Nat
  len : Nat
  deriving DecidableEq, Repr

/-- The results of a qflush on their way: cycles left once its units are written, serial, the three counts (R206). -/
structure QFlush where
  rem : Nat
  serial : Nat
  elems : Nat
  blocks : Nat
  sat : Nat
  deriving DecidableEq, Repr

/-- The quantiser (R201): settings, counts, the pending block, the range queue, the bits of the units being filled, the full units
that wait for their streams with the slot and code of the operation that filled them. -/
structure Quant where
  tau : Nat
  t6 : Bool
  fe : Nat
  fb : Nat
  fs : Nat
  configured : Bool
  elems : Nat
  blocks : Nat
  sat : Nat
  pending : List Num
  emax : Option Int
  emin : Option Int
  bound : Option Num
  ranges : List (Option Num)
  codes : BitBuf
  marks : BitBuf
  scales : BitBuf
  units : List (Nat × Vec)
  flush : Option QFlush
  queue : List QntOp
  last : Nat × Nat
  deriving DecidableEq, Repr

/-! ## Handles, lw, gm, copies -/

/-- A tile-table entry (R317); the state of a tracked handle is held at the storage (`Device.hstate`). -/
structure Entry where
  level : Nat
  space : Nat
  off : Nat
  size : Nat
  rows : Nat
  cols : Nat
  esz : Nat
  tracked : Bool
  declared : Nat
  deriving DecidableEq, Repr

/-- The state of a tracked handle at its storage (R213): 0 empty, 1 filling, 2 full, 3 draining, and the copies counted. -/
structure HState where
  st : Nat
  count : Nat
  deriving DecidableEq, Repr

/-- An access of lw0 or lw1 in flight (R225-R228): trigger code, handle word, byte offset with the index added, operands, the bank
rows still to be served, the serial of the result that waits for it, and the count of bundles issued before its own. -/
structure LwAcc where
  code : Nat
  word : Word
  off : Nat
  data : Vec
  idx : Vec
  rows : List Nat
  serial : Nat
  slot : Nat
  issue : BitVec 48
  deriving DecidableEq, Repr

/-- Storage being zeroed by a halloc (R355): handle and its entry, rows left, its result, and whether the halloc has taken effect in this
cycle. -/
structure Zeroing where
  h : Nat
  entry : Entry
  left : List Nat
  serial : Nat
  fresh : Bool
  deriving DecidableEq, Repr

/-- A pending tt operation (R355), in trigger order. -/
structure TtOp where
  code : Nat
  a : Word
  c : Word
  b : Word
  serial : Nat
  slot : Nat
  deriving DecidableEq, Repr

/-- One access of gm, launch or a fence that its home has not answered (R234, R243): trigger code, access word, operands, the
physical lane addresses, what has been performed, and the reply; `part` counts the bytes of a plain access performed before the rest (R268),
`group` is the serial of the list operation that the access is a lane of (R240), else its own. -/
structure GmReq where
  code : Nat
  word : Word
  a : Vec
  c : Vec
  lanes : List (Nat × Nat)
  serial : Nat
  slot : Nat
  performed : Bool
  reply : Vec
  st : Nat
  replyTs : Word
  part : Nat
  group : Nat
  deriving DecidableEq, Repr

/-- A copy in flight (R246-R251): descriptor, issue serial, elements written, bytes counted, poisoned words, parked cause,
which access stopped it, the storage its handle words resolved to, the pump that carries it (R19), the bytes of the element at its cursor
that it has read, each with the mark of a poisoned word, how many of them it has written, and the slice rows that its current access has
still to reach (R16). -/
structure Copy where
  desc : Vec
  serial : Nat
  done : Nat
  bytes : Nat
  poi : Nat
  parked : Option Nat
  atDst : Bool
  src : Option Entry
  dst : Option Entry
  finished : Bool
  pump : Nat
  buf : List (Byte × Bool)
  put : Nat
  rows : Option (List Nat)
  deriving DecidableEq, Repr

/-! ## Network, counters, lnk -/

/-- A declared circuit of the tile (R290, R318). `route` holds, by destination, the router outputs (row, column, port) that a reroute gave
it (R322); empty where it runs row-first. -/
structure Circuit where
  id : Nat
  multi : Bool
  q : Nat
  ui : Bool
  row : Nat
  col : Nat
  lh : Nat
  lw : Nat
  transit : Nat
  offs : List Nat
  route : List (List (Nat × Nat × Nat))
  deriving DecidableEq, Repr

/-- An element on its way: from which tile and circuit, to which destinations, with the queue and the ui flag; `age` counts the
mesh cycles to its arrival once it has left, or since a packet was refused. `fresh` marks a circuit's element in the mesh cycle in which it
entered the send buffer, `pair` the slots it leaves in or was refused in (R292). A packet that has entered the mesh stands at a router `place` (die * 16 + router), in the
input buffer of the link `buf`. -/
structure Elem where
  serial : Nat
  val : Vec
  q : Nat
  ui : Bool
  circuit : Option Nat
  dsts : List TileId
  sent : Bool
  age : Nat
  multi : Bool
  refused : Bool
  fresh : Bool
  pair : Option Nat
  place : Option Nat
  buf : Option Nat
  deriving DecidableEq, Repr

/-- The network side of a tile (R269, R287, R290-R299). `spill` holds the elements of the spillway in arrival order, each with its queue and
4 times the place where it lies (R416); `slotDone` the circuits that have used their slot of this mesh cycle. -/
structure Net where
  q : Tab (List Vec)
  cq : List Word
  spill : List (Nat × Vec)
  circuits : List Circuit
  rev : Nat
  revCount : Nat
  slotDone : List Nat
  out : List Elem
  sent : BitVec 48
  received : BitVec 48
  lost : BitVec 48
  deriving DecidableEq, Repr

/-- A write of a byte of cistern memory (R256, R264): its number, its value, the newest earlier write of the byte that is ordered-before it,
whether it is a release at package scope (R266) and whether an atomic made it. -/
structure Wr where
  stamp : Nat
  val : Byte
  floor : Nat
  rel : Bool
  atom : Bool
  deriving DecidableEq, Repr

/-- A release performed at a location (R260): its write, its tile and scope, and the writes ordered-before it, by byte. -/
structure Rel where
  addr : Nat
  stamp : Nat
  tile : TileId
  scope : Nat
  view : Tab Nat
  deriving DecidableEq, Repr

/-- What a tile knows of the writes of cistern memory, by path and byte (R258-R265): its own newest write, the newest write that is
ordered-before its later accesses, and the write that its reads have returned. -/
structure Know where
  own : Tab Nat
  acq : Tab Nat
  coh : Tab Nat
  deriving DecidableEq, Repr

/-- A sluice (R359): count, target, pending completions, overflow, group (row, col, lh, lw, span), carried timestamp,
and the writes ordered-before its arrivals (R263). -/
structure Sluice where
  c : Nat
  t : Nat
  p : Nat
  ovf : Bool
  row : Nat
  col : Nat
  lh : Nat
  lw : Nat
  span : Bool
  ts : Word
  remote : Bool
  view : Tab Nat
  deriving DecidableEq, Repr

/-- A semaphore (R359, R373). -/
structure Sem where
  val : Nat
  ovf : Bool
  ts : Word
  remote : Bool
  view : Tab Nat
  deriving DecidableEq, Repr

/-- A release of slu that has not taken effect, or whose arrivals are under way (R366, R362): the counter, the units, the
targets still to be reached with the cycle in which each is due, the timestamp it carries, and the writes ordered-before it (R263). -/
structure Arrive where
  serial : Nat
  sem : Bool
  idx : Nat
  units : Nat
  scope : Nat
  held : Bool
  targets : List (TileId × Nat)
  ts : Word
  view : Tab Nat
  deriving DecidableEq, Repr

/-- A pending operation of lnk or sys that another agent answers (R126, R128, R301, R342, R348, R349), in trigger order: trigger code,
operand, and the serial of its result. The codes 8-11 are lnk's; 0 is a launch whose partner's copy left the comparator (R311) and
which takes that one's answer, `arg` its serial; 113, 115 and 116 are est, couple and decouple of sys. -/
structure LnkOp where
  code : Nat
  arg : Vec
  serial : Nat
  deriving DecidableEq, Repr

/-- The write of a checked tile that waits for its partner's (R311): kind (0 storage, 1 cistern store, 2 message or launch, 3 copy element),
storage or 0, address or offset, bytes, its scope, the address FADDR would take, its serial among the tile's requests, the cycles
waited. -/
structure CheckedWrite where
  kind : Nat
  space : Nat
  addr : Nat
  data : List Byte
  scope : Nat
  word : Word
  serial : Nat
  age : Nat
  deriving DecidableEq, Repr

/-- Performance and supervision counters of a tile (R375, R313, R328). -/
structure Perf where
  issue : BitVec 48
  freeze : BitVec 48
  split : BitVec 48
  wait : BitVec 48
  hang : Nat
  quietGap : Nat
  powerStall : Nat
  deriving DecidableEq, Repr

/-! ## Code and placement -/

/-- A stroke header (R77). -/
structure Stroke where
  pos : Nat
  first : Nat
  len : Nat
  cycm : Nat
  cycb : Nat
  nquiet : Nat
  waits : List (Bool × Nat)
  deriving DecidableEq, Repr

/-- A liveness entry (R326): its 32 bytes as fields. -/
structure Live where
  pc : Nat
  inc : Nat
  xm : Word
  vm : Word
  jm : BitVec 16
  pm : BitVec 16
  fm : BitVec 16
  km : Byte
  cm : Byte
  misc : Byte
  deriving DecidableEq, Repr

/-- A handle declaration or a data entry of R78 (`bytes` empty for a handle). -/
structure HandleDecl where
  pos : Nat
  h : Nat
  shape : Word
  off : Nat
  bytes : Option (List Byte)
  deriving DecidableEq, Repr

/-- One stage of a main declaration (R338). -/
structure StageDecl where
  fn : Nat
  stroke : Nat
  sub : BitVec 16
  pure : Bool
  sources : Nat
  pofs : Nat
  plen : Nat
  fmt : Nat
  ishape : Word
  oshape : Word
  deriving DecidableEq, Repr

/-- One function of a code object as translated (R75, R82): level used, strokes, bundles, circuits per tile with the positions that the
slot table has a block for, liveness, handles, shape. -/
structure Func where
  level : Nat
  strokes : List Stroke
  bundles : List (BitVec 256)
  rev : Nat
  circuits : List (Nat × Circuit)
  blocks : List Nat
  live : List Live
  handles : List HandleDecl
  shape : Option (Nat × Nat × Nat)
  mains : List (List StageDecl)
  deriving DecidableEq, Repr

/-- A code object (R74): hash, generation, stepping and functions. -/
structure CodeObject where
  hash : List Byte
  gen : Nat
  step : Nat
  funcs : List Func
  deriving DecidableEq, Repr

/-- What the intake loaded on a tile: the instruction buffer from bundle 256, how many bundles, the strokes left to run, the
one running, the liveness table, the watchdog period, and the bundles with an uncorrectable error (R221). -/
structure Code where
  ibuf : Tab (BitVec 256)
  loaded : Nat
  strokes : List Stroke
  running : Bool
  live : List Live
  period : Nat
  bad : List Nat
  deriving DecidableEq, Repr

/-- Where a tile stands in its node: the entry, the tile of row0 and col0, part, span, log2 height and width. -/
structure Place where
  node : Option NodeRef
  origin : TileId
  part : Nat
  span : Nat
  lh : Nat
  lw : Nat
  deriving DecidableEq, Repr

/-- The translation cache of gm (R220): 64 KiB page of the virtual address, and the page's address * 4 + w * 2 + r. -/
structure Walk where
  cached : List (Nat × Nat)
  deriving DecidableEq, Repr

/-- A logical tile: everything the spec keeps per tile. -/
structure Tile where
  id : TileId
  place : Place
  run : Run
  pc : BitVec 13
  code : Code
  regs : Regs
  csr : Csr
  socks : Tab Socket
  ctl : Ctl
  streams : Tab Stream
  mx : Mx
  qnt : Quant
  lw : Tab (List LwAcc)
  zero : List Zeroing
  gm : List GmReq
  walk : Walk
  copies : List Copy
  net : Net
  sluices : Tab Sluice
  sems : Tab Sem
  arrives : List Arrive
  table : Tab Entry
  tt : List TtOp
  lnk : List LnkOp
  know : Know
  checked : List CheckedWrite
  perf : Perf
  well : Memory
  wellPoison : List Nat
  wheel : Nat
  serial : Nat
  prevCtx : Option Nat
  deriving DecidableEq, Repr

/-! ## The device -/

/-- A reduction cell bound to a context and a domain address (R68, R241); `parity` that a parity error stands in it (R221). -/
structure Cell where
  ctx : Nat
  addr : Nat
  val : BitVec 320
  nan : Bool
  pinf : Bool
  ninf : Bool
  count : BitVec 40
  parity : Bool
  deriving DecidableEq, Repr

/-- An entry of a violation log (R310). -/
structure LogEntry where
  addr : Word
  ctx : Nat
  pos : Nat
  kind : Nat
  time : Word
  st : Nat
  deriving DecidableEq, Repr

/-- The error counters and the violation log of a die or cistern (R310, R375): oldest entry first. -/
structure Errors where
  correctable : BitVec 32
  uncorrectable : BitVec 32
  refused : BitVec 32
  overwritten : BitVec 32
  log : List LogEntry
  deriving DecidableEq, Repr

/-- A rectangle that a die holds for a node (R283, R285): its origin and its log2 height and width. -/
structure Reservation where
  node : NodeRef
  row : Nat
  col : Nat
  lh : Nat
  lw : Nat
  deriving DecidableEq, Repr

/-- A compute die (R7, R14, R389): class M or B, stepping, in service, reduced mesh, timebase, the slot-to-engine maps of its tiles where
a test result changed them (R316), reservation, injection pause. `engines` holds, by tile (row * 16 + col) * 32 + socket, the physical
instance that the socket is bound to, or 32 for absent; an unlisted socket is bound as the variant has it. `routes` holds
the entries of the routing tables of its routers and adapters that the firmware has changed (R320; `tablePort`, `viaDie`). `walk` is the
walk unit's cache (R220): context, level * 2^48 + the index of the entry at its level, and the entry, the newest first. -/
structure Die where
  m : Bool
  stepping : Nat
  service : Bool
  reduced : Bool
  tsc : Word
  engines : Tab Nat
  reserved : Option Reservation
  paused : Bool
  rounds : Nat
  routerLog : List (Nat × Nat)
  routes : Tab Nat
  walk : List (Nat × Nat × Nat)
  deriving DecidableEq, Repr

/-- A record ring (R277): address, depth, tail, records that wait in the headworks, records discarded. -/
structure Ring where
  addr : Word
  depth : Nat
  tail : Word
  waiting : List (List Byte)
  discarded : Nat
  deriving DecidableEq, Repr

/-- A node entry or template of a graph image (R272). -/
structure NodeDecl where
  obj : Nat
  fn : Nat
  cls : Nat
  prio : Nat
  lh : Nat
  lw : Nat
  span : Nat
  flags : Nat
  kill : Nat
  est : Nat
  wdog : Nat
  qib : Nat
  qen : Bool
  pmap : List Nat
  sluices : List (Nat × Nat × Nat × Bool × Nat)
  deriving DecidableEq, Repr

/-- An edge (R273). -/
structure EdgeDecl where
  src : Nat
  dst : Nat
  handoff : Bool
  rva : Word
  rlen : Word
  pool : Word
  deriving DecidableEq, Repr

/-- An uploaded graph (R271). -/
structure Graph where
  num : Nat
  objs : List CodeObject
  nodes : List NodeDecl
  edges : List EdgeDecl
  slots : List Word
  tmpls : List NodeDecl
  deriving DecidableEq, Repr

/-- The states of a node (R280). -/
inductive NodeState where
  | waiting | ready | loading | running | draining | cutting | faulted | ended
  deriving DecidableEq, Repr

/-- The contents and state of the storage of one or more handles of a node, as an image keeps them (R333 fields 12 and 13): the key of
the storage, the tile that owns it, level, size, bytes and poisoned words from its start, state and count. -/
structure Block where
  key : Nat
  owner : Nat
  level : Nat
  size : Nat
  mem : Memory
  poison : List Nat
  st : Nat
  count : Nat
  deriving DecidableEq, Repr

/-- A main as an image records it (R353): handle, part, bind serial, descriptor. -/
structure ImageMain where
  handle : Nat
  part : Nat
  serial : Nat
  desc : Vec
  deriving DecidableEq, Repr

/-- A context image that is written, sealed or torn (R332), with its container's bytes; a restore takes the registers of the tiles and the
blocks from the values the bytes hold. -/
structure Image where
  seq : Nat
  state : Nat
  kind : Nat
  level : Nat
  step : Nat
  cut : Word
  bytes : List Byte
  tiles : List Tile
  blocks : List Block
  mains : List ImageMain
  deriving DecidableEq, Repr

/-- The parent of a launched child (R279, R302, R373): its node, the launching tile's part and relative position, the sluice, the
interrupt flag, the tag, the status of the completion, the timebase the launch carried, and the child. -/
structure Parent where
  child : NodeRef
  ref : NodeRef
  part : Nat
  row : Nat
  col : Nat
  slu : Nat
  ui : Bool
  tag : Nat
  st : Nat
  ts : Word
  deriving DecidableEq, Repr

/-- A hand-off migration in progress (R222): the edge, the page it has come to, the page's number in the region, how much of each pool frame
is used, the place of the page in the pool once its leaf carries mig, and whether the page has been copied there. -/
structure Moving where
  edge : Nat
  va : Nat
  page : Nat
  used : Tab Nat
  dest : Option Nat
  copied : Bool
  deriving DecidableEq, Repr

/-- A node of a replay, or a launched child (R280-R287, R300-R302, R329-R331). `parts` is one (die, row, col) per part, `est` the
time by which each tile's latest estimate ends, `sweep` the sums of the last balanced sweep, `placed` the order of its placement,
`chosen` the victim whose stop it waits for, `phase` the strokes of a span that every part completed, `failing` that a link between its dies
has failed and its parts stop (R312), `migrated` the edges whose
hand-off is done, `moving` the hand-off that runs. -/
structure Node where
  ref : NodeRef
  decl : NodeDecl
  state : NodeState
  cls : Nat
  prio : Nat
  rounds : Nat
  seq : Nat
  parts : List (Nat × Nat × Nat)
  params : List Word
  est : Tab Nat
  stopping : Option StopPolicy
  target : Option Word
  images : List Image
  resume : Bool
  saving : Option Nat
  sweep : Option (Nat × Nat)
  parent : Option Parent
  placed : Nat
  chosen : Option NodeRef
  phase : Nat
  failing : Bool
  migrated : List Nat
  moving : Option Moving
  deriving DecidableEq, Repr

/-- A replay instance (R276). -/
structure Replay where
  ctx : Nat
  graph : Nat
  num : Nat
  slots : List Word
  deriving DecidableEq, Repr

/-- A context (R383). -/
structure Ctx where
  num : Nat
  root : Word
  key : Word
  tokens : Nat
  done : Ring
  events : Ring
  kicks : List Word
  graphs : List Graph
  deriving DecidableEq, Repr

/-- A gang slice (R288). -/
structure Gang where
  num : Nat
  devs : List Nat
  ready : List Nat
  start : Word
  sent : Option Bool
  nodes : List NodeRef
  deriving DecidableEq, Repr

/-- The headworks (R26, R269, R286): active side, contexts, nodes, replays, SCHED, device reply ring, gangs. -/
structure Headworks where
  active : Option Nat
  ctxs : List Ctx
  nodes : List Node
  replays : List Replay
  sched : Word
  reply : Ring
  gangs : List Gang
  frozenQ : List (Nat × Nat × Nat)
  queueRounds : Tab Nat
  seen : Tab Nat
  completions : List Parent
  order : Nat
  serial : Nat
  deriving DecidableEq, Repr

/-- A main (R338-R350). `id` is its bind serial, `home` the cistern of its group, `attach` the main and depth it is attached to. `pos`
holds the next source position (key 0) and the next output position at each depth; a once source's positions stop at n. `pipe`
holds, by destination tile, the elements its pump offers again (R402), `source` how many of the next position's source tiles have been
fetched, `rows` by depth the slice rows of an output tile that a pump has still to read (R16, R403). -/
structure Main where
  id : Nat
  ctx : Nat
  handle : Nat
  node : NodeRef
  owner : Nat
  slot : Nat
  home : Nat
  key : Word
  hash : List Byte
  stages : List StageDecl
  desc : Vec
  pages : List (List Nat)
  n : Nat
  share : Bool
  bound : Bool
  faulted : Bool
  attach : Option (Nat × Nat)
  join : Nat
  pos : Tab Nat
  pipe : Tab (List Vec)
  source : Nat
  rows : Tab (List Nat)
  parked : Option (Nat × Word)
  part : Nat
  deriving DecidableEq, Repr

/-- The counts of one virtual channel of one direction of a link (R370, R371); `back` are credits that the receiver has returned and the
sender has not yet received. -/
structure Channel where
  d : BitVec 8
  h : BitVec 8
  occ : BitVec 8
  sc : BitVec 16
  rc : BitVec 16
  back : BitVec 8
  audit : Option (BitVec 8 × BitVec 16)
  last : Option Int
  deriving DecidableEq, Repr

/-- One direction of a link (R370, R371, R379): training, channels, repair count, sequence numbers, kept flits, failed flits. -/
structure Link where
  trained : Bool
  dead : Bool
  chans : Tab Channel
  repair : BitVec 32
  nextSeq : BitVec 10
  unacked : List Nat
  expected : BitVec 10
  failed : Nat
  resend : List Nat
  lost : List Nat
  deriving DecidableEq, Repr

/-- The fabric side (R377-R381): device number, ports lost, hello sent, recorded tags per sender, fence-order grants, replies
that have been sent out. -/
structure Fabric where
  dev : Nat
  assigned : Bool
  domain : Nat
  hello : List Nat
  lostPorts : List Nat
  tags : List (BitVec 16 × BitVec 32 × List Byte × Nat)
  grants : Nat
  replies : List FabricReq
  deriving DecidableEq, Repr

/-- The command window (R382, R383): the device-page registers of the reply ring, page grants, argument words by page*8 + i, queued commands by page, and by page the order in which kicks (true)
and commands (false) came (R383). -/
structure Window where
  ringAddr : Word
  ringDepth : Word
  grants : Tab Nat
  args : Tab Word
  cmds : Tab (List (Word × List Word))
  order : Tab (List Bool)
  deriving DecidableEq, Repr

/-- An island (R374, R387, R388). -/
structure Island where
  slack : BitVec 8
  least : BitVec 8
  near : BitVec 32
  steps : BitVec 8
  volts : Nat
  deriving DecidableEq, Repr

/-- A multicast packet in an input buffer of a router with its residual destinations (R295): the router (die * 16 + router), and the link
that the buffer belongs to, or none for the cluster's side. -/
structure Vc2 where
  serial : Nat
  place : Nat
  buf : Option Nat
  src : TileId
  elem : Elem
  left : List TileId
  deriving DecidableEq, Repr

/-- Storage given to a handle: space (see `Tile.spaceOf`), offset, size, and how many entries map it (R212, R357). -/
structure Alloc where
  space : Nat
  off : Nat
  size : Nat
  refs : Nat
  deriving DecidableEq, Repr

/-- The device outside the tiles. `granted` holds, by tile and main slot, the pump a stage's origin tile grants to (R402); `pumpSlots` the bank slots that pumps have used (R16), by pump and cycle
of the wheel; `pumpCache` the pumps' translations (R220), by cluster * 4 + port: context, 64 KiB page, and the page as `Walk` holds it;
`losers` the tiles that lost messages since the last reroute (R323); `firmware` the module flash, by place (die d: d, cistern c:
16 + c); `writes` counts the writes of tiles to cistern memory, `hist` holds those of each byte, the newest first, `rels` the releases, and
`scView` by scope what the fences sc have ordered (R258-R266); `fallback` that cistern 1 did the boot (R386); `downC` the cisterns that have failed. -/
structure Device where
  variantH : Bool
  dies : List Die
  cisterns : List Nat
  cisternTsc : Tab Word
  mem : Memory
  poison : List Nat
  writes : Nat
  hist : Tab (List Wr)
  rels : List Rel
  scView : Tab (Tab Nat)
  storage : Tab Memory
  storagePoison : Tab (List Nat)
  hstate : Tab HState
  allocs : List Alloc
  cells : List Cell
  errors : Tab Errors
  hw : Headworks
  mains : List Main
  nextMain : Nat
  permits : Tab Nat
  granted : Tab Nat
  pumpSlots : Tab Nat
  pumpCache : Tab (List (Nat × Nat × Nat))
  losers : List TileId
  vc2 : List Vc2
  links : Tab Link
  fabric : Fabric
  window : Window
  islands : Tab Island
  firmware : Tab (List Byte)
  booted : Bool
  fallback : Bool
  downC : List Nat
  deriving DecidableEq, Repr

/-- Where an ECC or parity error shows when a memory is read, or before a sub-word write (R221): at a byte of cistern memory, in an ECC word of
a slice or cistern buffer or of a tile's well, in a reduction cell, or in a bundle of a tile's instruction buffer. -/
inductive ErrorAt where
  | memory (addr : Nat)
  | storage (space word : Nat)
  | well (t : TileId) (word : Nat)
  | cell (ctx addr : Nat)
  | bundle (t : TileId) (index : Nat)
  deriving DecidableEq, Repr

/-- What happens next, when the order of agents is not left to the default order of R400: an event, the turn of a tile, one
cycle of the focused tile (log 1), a load of a tile that returns the writes which stood at the write of a number (R258), the next atomic
piece of an access or of a copy's element alone (R268; log 22), one hop of a packet of a tile (R294), or an error that the next access
finds, uncorrectable where `bad` is set (R221; log 12). -/
inductive Cue where
  | event (i : Instr)
  | turn (t : TileId)
  | cycle
  | old (t : TileId) (serial stamp : Nat)
  | piece (t : TileId) (serial : Nat)
  | hop (t : TileId) (serial : Nat)
  | error (place : ErrorAt) (bad : Bool)
  deriving DecidableEq, Repr

/-- The machine: the tile whose turn it is, the other tiles that differ from reset, the device, the agenda, and the counter that
numbers free values. -/
structure State where
  cur : Tile
  peers : List Tile
  dev : Device
  agenda : List Cue
  fresh : Nat
  deriving DecidableEq, Repr

/-- Faults of a step. The spec describes a trap entry for every fault it names, so no step of this model ends in one: a fault of
the machine is a next state (R116). The constructor is kept for an access the spec calls impossible; nobody raises it. Safe. -/
inductive Fault where
  /-- an access outside every space the spec lays out; raised by nobody in this model; safe -/
  | outsideEverySpace
  deriving DecidableEq, Repr

/-- Refusals of a step. -/
inductive Refusal where
  /-- an instruction that has no meaning yet, by its mnemonic: raised only by an arm of `exec`; safe -/
  | notModelled (mnemonic : String)
  deriving DecidableEq, Repr

/-! ## Reset -/

/-- No register written. -/
def Regs.reset : Regs := { x := [], v := [], j := [], p := [], k := [], bank := [] }

/-- The CSRs at context creation: FMT 0x20 (R70), QIB.bound all ones (R328), NPT.t 10 (R171), every other CSR 0. -/
def Csr.reset : Csr :=
  { fmt := 0x20, sockmode := 0, stc := 0, qib := 0xFFFFFFFF, cutn := 0, npt := 10, npf := 0, est := 0, fstat := 0, faddr := 0,
    uivec := 0, uicause := 0, uiepc := 0, npos := 0, param := [], status := 0, cause := 0, epc := 0 }

/-- An empty result port holding the reset value 0. -/
def Port.reset : Port := { fifo := [], val := 0, unread := false, flight := [] }
/-- A socket with no port present. -/
def Socket.reset : Socket := { o := [], y := [] }

/-- No level, no pending write, nothing captured, no event. -/
def Ctl.reset : Ctl :=
  { loops := [], fmtPending := [], captured := [], capturedFmt := [], late := [], lost := none, events := [], dropped := false,
    controlOnly := false, mode := none, traps := [], quietPoint := 0, quietAt := 0, stop := none, reported := none, owner := none,
    split := none, rearms := false, froze := false, leaving := false }

/-- A plane at context creation: zero weights, dense, float, bfloat16, 64 columns (R179). -/
def Plane.reset : Plane := { layout := 0, int := false, fmt := 0, ncol := 64, w := [] }

/-- The mx socket at context creation (R85, R179). -/
def Mx.reset : Mx :=
  { acc := [], p0 := Plane.reset, p1 := Plane.reset, front := false, queue := [], array := none, rows := 0, phase := 0, ending := [],
    loader := none, clears := [], reads := [], seq := 0 }

/-- The quantiser at context creation (R201). -/
def Quant.reset : Quant :=
  { tau := 12, t6 := false, fe := 0, fb := 0, fs := 0, configured := false, elems := 0, blocks := 0, sat := 0, pending := [],
    emax := none, emin := none, bound := none, ranges := [], codes := { val := 0, len := 0 }, marks := { val := 0, len := 0 },
    scales := { val := 0, len := 0 }, units := [], flush := none, queue := [], last := (0, 0) }

/-- A sluice at context creation (R359); its group is the tile alone, which `Tile.groupOf` reads from `lh = lw = 0` with the
tile's own position (row and column 16 stand for the tile's own). -/
def Sluice.reset : Sluice :=
  { c := 0, t := 0, p := 0, ovf := false, row := 16, col := 16, lh := 0, lw := 0, span := false, ts := 0, remote := false, view := [] }
/-- A semaphore at context creation (R359). -/
def Sem.reset : Sem := { val := 0, ovf := false, ts := 0, remote := false, view := [] }

/-- No queue element, no circuit, no message counted. -/
def Net.reset : Net :=
  { q := [], cq := [], spill := [], circuits := [], rev := 1, revCount := 0, slotDone := [], out := [], sent := 0, received := 0, lost := 0 }

/-- Counters at package reset (R375). -/
def Perf.reset : Perf :=
  { issue := 0, freeze := 0, split := 0, wait := 0, hang := 0, quietGap := 0, powerStall := 0 }

/-- Nothing loaded; watchdog period 2^32 (R313). -/
def Code.reset : Code :=
  { ibuf := [], loaded := 0, strokes := [], running := false, live := [], period := 2 ^ 32, bad := [] }

/-- A tile at package reset. -/
def Tile.reset (id : TileId) : Tile :=
  { id := id, place := { node := none, origin := id, part := 0, span := 1, lh := 0, lw := 0 }, run := .idle, pc := 0,
    code := Code.reset, regs := Regs.reset, csr := Csr.reset, socks := [], ctl := Ctl.reset, streams := [], mx := Mx.reset,
    qnt := Quant.reset, lw := [], zero := [], gm := [], walk := { cached := [] }, copies := [], net := Net.reset,
    sluices := [], sems := [], arrives := [], table := [], tt := [], lnk := [], know := { own := [], acq := [], coh := [] }, checked := [], perf := Perf.reset, well := [],
    wellPoison := [], wheel := 0, serial := 0, prevCtx := none }

/-- A compute die after boot (R389): B0 (log 3). -/
def Die.reset (m : Bool) : Die :=
  { m := m, stepping := 3, service := true, reduced := false, tsc := 0, engines := [], reserved := none,
    paused := false, rounds := 0, routerLog := [], routes := [], walk := [] }

/-- A ring that has no memory yet. -/
def Ring.reset : Ring := { addr := 0, depth := 0, tail := 0, waiting := [], discarded := 0 }

/-- SCHED at package reset: drain 200, grace 50 (R286). -/
def Headworks.reset : Headworks :=
  { active := some 0, ctxs := [], nodes := [], replays := [], sched := 0x00C800320000, reply := Ring.reset, gangs := [],
    frozenQ := [], queueRounds := [], seen := [], completions := [], order := 0, serial := 0 }

/-- Untrained link end. -/
def Link.reset : Link :=
  { trained := false, dead := false, chans := [], repair := 0, nextSeq := 0, unacked := [], expected := 0, failed := 0,
    resend := [], lost := [] }
/-- Error counters at package reset (R375). -/
def Errors.reset : Errors := { correctable := 0, uncorrectable := 0, refused := 0, overwritten := 0, log := [] }
/-- An island at package reset (R374); slack has no reset value (log 3). -/
def Island.reset : Island := { slack := 0, least := 255, near := 0, steps := 0, volts := 0 }

/-- The device after a successful package reset of an SG9 (R7, R385): dies 0-3 are M and 4-7 are B. -/
def Device.reset : Device :=
  { variantH := false, dies := [Die.reset true, Die.reset true, Die.reset true, Die.reset true, Die.reset false, Die.reset false,
      Die.reset false, Die.reset false], cisterns := [0, 1, 2, 3, 4, 5, 6, 7, 8, 9, 10, 11], cisternTsc := [], mem := [],
    poison := [], writes := 0, hist := [], rels := [], scView := [], storage := [], storagePoison := [], hstate := [], allocs := [], cells := [], errors := [],
    hw := Headworks.reset, mains := [], nextMain := 1, permits := [], granted := [], pumpSlots := [], pumpCache := [], losers := [], vc2 := [], links := [],
    fabric := { dev := 0, assigned := false, domain := 1, hello := [], lostPorts := [], tags := [], grants := 0, replies := [] },
    window := { ringAddr := 0, ringDepth := 0, grants := [], args := [], cmds := [], order := [] }, islands := [], firmware := [], booted := true, fallback := false,
    downC := [] }

/-- The device after a successful package reset of an SG9-H (R2, R7, R389): the M dies are out of service and the G cisterns absent; the
slot-to-engine map then binds va1 to va0 on every tile (R155; `engineOf`). -/
def Device.resetH : Device :=
  { Device.reset with
    variantH := true, cisterns := [0, 1, 2, 3, 4, 5, 6, 7],
    dies := Device.reset.dies.map fun d => if d.m then { d with service := false } else d }

/-- The machine right after package reset (R385), the turn at tile (0, 0, 0): every tile in reset, nothing uploaded. -/
def State.reset : State :=
  { cur := Tile.reset { die := 0, row := 0, col := 0 }, peers := [], dev := Device.reset, agenda := [], fresh := 0 }

/-- The same for an SG9-H (R2, R389), the turn at a tile of the first B die. -/
def State.resetH : State :=
  { cur := Tile.reset { die := 4, row := 0, col := 0 }, peers := [], dev := Device.resetH, agenda := [], fresh := 0 }

end Sys2Proof.Machine
end

