-- ==== Sys2Proof/Machine/Float.lean ====
section
/-!
DEFINITION. Machine/Float.lean: the floating formats (R52, R53), exact numbers (`Num`), the rounding helpers of R63 and R132,
exact arithmetic, and the tapered formats T8 and T6 (R55-R58).
-/
namespace Sys2Proof.Machine

/-- Exponent and fraction widths of a float format by its FMT.vf number: binary32, binary16, bfloat16 (R52, R70). -/
def fmtWidths (f : Nat) : Nat × Nat := if f = 1 then (5, 10) else if f = 2 then (8, 7) else (8, 23)
/-- Element width in bits. -/
def floatBits (f : Nat) : Nat := if f = 0 then 32 else 16
/-- Exponent of the smallest normal number. -/
def minExp (f : Nat) : Int := 2 - 2 ^ ((fmtWidths f).1 - 1)
/-- The bits of +inf. -/
def infBits (f : Nat) : Nat := (2 ^ (fmtWidths f).1 - 1) * 2 ^ (fmtWidths f).2
/-- The canonical quiet NaN (R53). -/
def nanBits (f : Nat) : Nat := infBits f + 2 ^ ((fmtWidths f).2 - 1)

/-- A float pattern decoded exactly (R52, R54). -/
def decodeFloat (f n : Nat) : Num :=
  let (eb, mb) := fmtWidths f
  let neg := bitsOf n (eb + mb) 1 == 1
  let e := bitsOf n mb eb
  let m := bitsOf n 0 mb
  if e = 2 ^ eb - 1 then (if m = 0 then .inf neg else .nan)
  else if e = 0 then .fin neg m (minExp f - mb)
  else .fin neg (2 ^ mb + m) (minExp f - mb + (e - 1))

/-- Rounding directions for a magnitude. -/
inductive Dir where
  | near | trunc | away
  deriving DecidableEq, Repr

/-- Round the magnitude m * 2^e (plus something below one unit of m when `sticky`) to a format; the bits without sign. Beyond the
largest finite value truncation stays at it and the other directions give infinity (R63). -/
def roundMag (f : Nat) (d : Dir) (m : Nat) (e : Int) (sticky : Bool) : Nat :=
  if m = 0 then (if sticky && d == .away then 1 else 0) else
  let mb := (fmtWidths f).2
  let top : Int := (bitLen m : Int) - 1 + e
  let base := if top < minExp f then minExp f else top
  let sh : Int := base - mb - e
  let (sig, up) :=
    if sh ≤ 0 then (m * 2 ^ (-sh).toNat, match d with | .away => sticky | _ => false)
    else
      let s := sh.toNat
      let q := m >>> s
      let r := m % 2 ^ s
      let half := 2 ^ (s - 1)
      (q, match d with
        | .near => decide (half < r) || (r == half && (sticky || q % 2 == 1))
        | .away => r != 0 || sticky
        | .trunc => false)
  let bits := (base - minExp f).toNat * 2 ^ mb + sig + if up then 1 else 0
  if infBits f ≤ bits then (match d with | .trunc => infBits f - 1 | _ => infBits f) else bits

/-- The magnitude direction of a rounding mode for a sign (R70: 0 nearest, 1 toward zero, 2 downward, 3 upward). -/
def dirOf (rm : Nat) (neg : Bool) : Dir :=
  match rm with
  | 0 => .near | 1 => .trunc | 2 => if neg then .away else .trunc | _ => if neg then .trunc else .away

/-- Sign bit of a format. -/
def signBit (f : Nat) (neg : Bool) : Nat := if neg then 2 ^ (floatBits f - 1) else 0

/-- RoundRM (R132): a number encoded in a format; the sign of a zero is the number's own. -/
def encodeFloat (f rm : Nat) : Num → Nat
  | .nan => nanBits f
  | .inf neg => signBit f neg + infBits f
  | .fin neg m e => signBit f neg + if m = 0 then 0 else roundMag f (dirOf rm neg) m e false

/-- A number whose zero is +0 (R63), and whose underflow to zero is +0 (log 10). -/
def encodePlain (f rm : Nat) (x : Num) : Nat :=
  let b := encodeFloat f rm x
  if b % 2 ^ (floatBits f - 1) = 0 then 0 else b

/-- Negation. -/
def Num.neg : Num → Num
  | .nan => .nan
  | .inf n => .inf (!n)
  | .fin n m e => .fin (!n) m e

/-- The magnitude. -/
def Num.abs : Num → Num
  | .nan => .nan
  | .inf _ => .inf false
  | .fin _ m e => .fin false m e

/-- An integer from sign and magnitude. -/
def signed (neg : Bool) (m : Nat) : Int := if neg then -(m : Int) else m

/-- The integer that m * 2^e is at a lower exponent. -/
def scaledInt (neg : Bool) (m : Nat) (e lo : Int) : Int := signed neg (m * 2 ^ (e - lo).toNat)

/-- The exact sum; a zero sum of unlike signs is -0 exactly when `negZero` (R132). -/
def Num.add (negZero : Bool) : Num → Num → Num
  | .nan, _ => .nan
  | _, .nan => .nan
  | .inf a, .inf b => if a = b then .inf a else .nan
  | .inf a, _ => .inf a
  | _, .inf b => .inf b
  | .fin n1 m1 e1, .fin n2 m2 e2 =>
    let lo := if e1 < e2 then e1 else e2
    let z := scaledInt n1 m1 e1 lo + scaledInt n2 m2 e2 lo
    if z = 0 then .fin (if n1 = n2 then n1 else negZero) 0 lo else .fin (decide (z < 0)) z.natAbs lo

/-- The exact product; infinity times zero is a NaN (R132). -/
def Num.mul : Num → Num → Num
  | .nan, _ => .nan
  | _, .nan => .nan
  | .inf a, .inf b => .inf (a != b)
  | .inf a, .fin b m _ => if m = 0 then .nan else .inf (a != b)
  | .fin b m _, .inf a => if m = 0 then .nan else .inf (a != b)
  | .fin n1 m1 e1, .fin n2 m2 e2 => .fin (n1 != n2) (m1 * m2) (e1 + e2)

/-- Whether a number is zero. -/
def Num.isZero : Num → Bool
  | .fin _ m _ => m == 0
  | _ => false
/-- Whether a number is a NaN. -/
def Num.isNan : Num → Bool
  | .nan => true
  | _ => false
/-- Whether a number is finite. -/
def Num.isFin : Num → Bool
  | .fin .. => true
  | _ => false
/-- Whether a number is infinite. -/
def Num.isInf : Num → Bool
  | .inf _ => true
  | _ => false

/-- Three-way comparison of non-NaN numbers; -0 equals +0. -/
def Num.cmp : Num → Num → Option Ordering
  | .nan, _ => none
  | _, .nan => none
  | .inf a, .inf b => some (if a = b then .eq else if a then .lt else .gt)
  | .inf a, .fin .. => some (if a then .lt else .gt)
  | .fin .., .inf b => some (if b then .gt else .lt)
  | .fin n1 m1 e1, .fin n2 m2 e2 =>
    let lo := if e1 < e2 then e1 else e2
    some (compare (scaledInt n1 m1 e1 lo) (scaledInt n2 m2 e2 lo))

/-- Strictly less, false on NaNs. -/
def Num.lt (a b : Num) : Bool := a.cmp b == some .lt
/-- Less or equal, false on NaNs. -/
def Num.le (a b : Num) : Bool := a.cmp b == some .lt || a.cmp b == some .eq

/-- e(x) = floor of log2 of the magnitude of a finite nonzero number (R201). -/
def Num.expo : Num → Option Int
  | .fin _ m e => if m = 0 then none else some ((bitLen m : Int) - 1 + e)
  | _ => none

/-- m * 2^e rounded to an integer in a direction, as a magnitude (R140). -/
def roundInt (d : Dir) (m : Nat) (e : Int) : Nat :=
  if 0 ≤ e then m * 2 ^ e.toNat
  else
    let s := (-e).toNat
    let q := m >>> s
    let r := m % 2 ^ s
    match d with
    | .trunc => q
    | .away => if r = 0 then q else q + 1
    | .near => if 2 ^ s < 2 * r ∨ (2 * r = 2 ^ s ∧ q % 2 = 1) then q + 1 else q

/-- Integer square root, bit by bit from bit k-1. -/
def isqrtFrom : Nat → Nat → Nat → Nat
  | 0, _, r => r
  | k + 1, n, r => isqrtFrom k n (if (r + 2 ^ k) * (r + 2 ^ k) ≤ n then r + 2 ^ k else r)

/-- Floor of the square root. -/
def isqrt (n : Nat) : Nat := isqrtFrom (bitLen n / 2 + 1) n 0

/-- A positive quotient a/b as (mantissa, exponent, inexact) with at least k significant bits. -/
def quotient (a b k : Nat) : Nat × Int × Bool :=
  let s := k + bitLen b
  let n := a * 2 ^ s
  (n / b, -(s : Int), n % b != 0)

/-- The square root of m * 2^e as (mantissa, exponent, inexact) with at least k significant bits. -/
def rootOf (m : Nat) (e : Int) (k : Nat) : Nat × Int × Bool :=
  let m1 := if e % 2 = 0 then m else 2 * m
  let e1 := if e % 2 = 0 then e else e - 1
  let n := m1 * 2 ^ (2 * k)
  let r := isqrt n
  (r, e1 / 2 - k, r * r != n)

/-! ## The tapered formats -/

/-- The length of the run of bits equal to b from bit i-1 downward. -/
def runLen (m b : Nat) : Nat → Nat
  | 0 => 0
  | i + 1 => if bitsOf m i 1 = b then runLen m b i + 1 else 0

/-- DecodeT8 (R55); `t6` selects T6. -/
def decodeTapered (t6 : Bool) (code : Nat) (scale : Int) : Num :=
  let n := if t6 then 6 else 8
  let neg := bitsOf code (n - 1) 1 == 1
  let m := bitsOf code 0 (n - 1)
  if m = 0 then (if neg then .nan else .fin false 0 0)
  else
    let b := bitsOf m (n - 2) 1
    let l := runLen m b (n - 1)
    let k : Int := if b = 1 then l - 1 else -l
    let rest := if l = n - 1 then 0 else n - 2 - l
    let hasE := !t6 && decide (1 ≤ rest)
    let e := if hasE then bitsOf m (rest - 1) 1 else 0
    let r := if hasE then rest - 1 else rest
    let w : Int := if t6 then k else 2 * k + e
    .fin neg (2 ^ r + bitsOf m 0 r) (w + scale - r)

/-- The largest magnitude code of a tapered format. -/
def taperedTop (t6 : Bool) : Nat := if t6 then 0x1F else 0x7F

/-- The nearest magnitude code at or below c; `a` is the magnitude at scale 0. Searched from the top code (R58). -/
def nearestCode (t6 : Bool) (a : Num) : Nat → Nat
  | 0 => 0
  | c + 1 =>
    let hi := decodeTapered t6 (c + 1) 0
    let lo := if c = 0 then Num.fin false 0 0 else decodeTapered t6 c 0
    -- twice a against the sum of the two neighbours
    match (a.add false a).cmp (hi.add false lo) with
    | some .gt => c + 1
    | some .eq => if c % 2 = 0 then c else c + 1
    | _ => nearestCode t6 a c

/-- EncodeT8 (R58). -/
def encodeTapered (t6 : Bool) (v : Num) (scale : Int) : Nat :=
  let sb := if t6 then 0x20 else 0x80
  match v with
  | .nan => sb
  | .inf neg => (if neg then sb else 0) + taperedTop t6
  | .fin neg m e =>
    let a := Num.fin false m (e - scale)
    let c := if (decodeTapered t6 (taperedTop t6) 0).le a then taperedTop t6 else nearestCode t6 a (taperedTop t6)
    if c = 0 then 0 else (if neg then sb else 0) + c

/-! ## Interval lanes (R64, R65) -/

/-- An interval lane as read (R65, R158): a nonempty interval, or empty (0 by contraction, 1 by domain error, 2 by propagation). -/
inductive Ivl where
  | set (lo hi : Num)
  | empty (kind : Nat)
  deriving DecidableEq, Repr

/-- A bound as read: a zero is +0 (R158). -/
def plusZero (x : Num) : Num := if x.isZero then .fin false 0 0 else x

/-- Lane l of an interval operand (R64, R65). -/
def ivlLane (v : Vec) (l : Nat) : Ivl :=
  let lo := lane 32 (2 * l) v
  let hi := lane 32 (2 * l + 1) v
  if lo = 0x7FC00001 ∧ hi = 0x7FC00001 then .empty 1
  else if lo = 0x7FC00002 ∧ hi = 0x7FC00002 then .empty 2
  else
    let a := decodeFloat 0 lo
    let b := decodeFloat 0 hi
    if a.isNan || b.isNan then .empty 1
    else if b.lt a || a == .inf false || b == .inf true then .empty 0
    else .set (plusZero a) (plusZero b)

end Sys2Proof.Machine
end

