-- ==== Sys2Proof/Config.lean ====
section
/-!
DEFINITION. Config.lean: the values the spec leaves to the implementation or to the outside world. Each is an opaque constant:
nothing can evaluate it, so a claim holds whatever it is.
-/
namespace Sys2Proof.Config

/-- The bundles 0-255 of an instruction buffer: the die firmware's trap runtime (R104). Not given by the spec (log 5). -/
opaque trapRuntime : Nat → BitVec 256

/-- A special-function result that the enclosures of Machine/Trans.lean do not decide: function code, format, operand (log 9). -/
opaque undecided : Nat → Nat → Nat → BitVec 64

/-- Whether an ecall of this number is a service of the trap runtime (R306), and what the service answers (log 6). -/
opaque isService : Nat → Bool

/-- Whether a debugger holds the tile at a breakpoint (R306): tile position as die*256 + row*16 + col, and a fresh number. -/
opaque debuggerHolds : Nat → Nat → Bool

/-- The ML-DSA-44 check of a firmware image against the fused key (R385; log 14). -/
opaque signatureHolds : List Byte → Bool
/-- The fused anti-rollback counter (R385; log 14). -/
opaque antiRollback : Nat
/-- The security version a firmware image carries; its place in the image is not given (R385; log 14). -/
opaque securityVersion : List Byte → Nat
/-- The hash the firmware image is checked against (R385; log 14). -/
opaque expectedHash : List Byte → List Byte
/-- The ML-DSA-44 signature of an attestation report, 2,420 bytes (R385; log 14). -/
opaque attestationSignature : List Byte → List Byte
/-- The module's serial (R381): hash of its identity public key. -/
opaque moduleSerial : Word

/-- The native function that the translator derives from the loop level (4) or scalar level (5) section of a function for a die class,
from the steppings of its dies, the sockets absent there, the section, the cross-references and the tile level, as the bytes
of a tile-level, a slot-table and a liveness section, or nothing when it cannot; the levels' formats are not given (R75, R82; log 13). -/
opaque translateLevel : Nat → Nat → List Nat → List Nat → List Byte → List Byte → List Byte → Option (List Byte × List Byte × List Byte)

/-- What a support-summary section lists, as pairs of socket and code; its layout is not given (R79; log 13). -/
opaque summaryPairs : List Byte → List (Nat × Nat)

/-- The guard value of the margin planner (R374; log 3). -/
opaque guardSlack : Nat

/-- The bytes that a read-counters command leaves in its buffer, from the selector and the counters: their layout is not given
(R383; log 14). -/
opaque counterReport : Nat → List Nat → List Byte

/-- Where on its edge a die's adapter toward another die stands, as a number below 16: a side and a router of it; not given (R320; log 19). -/
opaque adapterPlace : Nat → Nat → Nat

/-- The latency of a route of so many router hops, in mesh cycles; not given (R319). -/
opaque routeLatency : Nat → Nat

/-- The clock in MHz before any step of an island that is neither a tile's, a slice's nor a router's; not given (R387). -/
opaque islandClock : Nat → Nat

/-- A free bit that the spec leaves to the firmware or to a physical condition, by its number: a new route exists (R322), a
repair succeeds, a translation cache still holds an old entry (R220). -/
opaque freeBit : Nat → Bool

/-- A free 64-bit value, by its number. -/
opaque freeValue : Nat → Word

end Sys2Proof.Config
end

