-- ==== Sys2Proof/Machine/Tab.lean ====
section
/-!
DEFINITION. Machine/Tab.lean: reading and writing a sparse table (`Tab`) in its canonical form.
-/
namespace Sys2Proof.Machine

/-- The value at a key; the default where the key is not listed. -/
def tget {α : Type} (d : α) : Tab α → Nat → α
  | [], _ => d
  | (j, v) :: t, k => if j = k then v else tget d t k

/-- The table without a key. -/
def tdel {α : Type} : Tab α → Nat → Tab α
  | [], _ => []
  | (j, v) :: t, k => if j = k then tdel t k else (j, v) :: tdel t k

/-- The table with a value put at a key, in key order. -/
def tput {α : Type} : Tab α → Nat → α → Tab α
  | [], k, x => [(k, x)]
  | (j, v) :: t, k, x =>
    if k < j then (k, x) :: (j, v) :: t
    else if j = k then (k, x) :: t
    else (j, v) :: tput t k x

/-- Write a key: the default removes the entry. -/
def tset {α : Type} [DecidableEq α] (d : α) (t : Tab α) (k : Nat) (x : α) : Tab α :=
  if x = d then tdel t k else tput t k x

/-- Read a key that may be absent. -/
def tfind {α : Type} : Tab α → Nat → Option α
  | [], _ => none
  | (j, v) :: t, k => if j = k then some v else tfind t k

/-- Keys strictly rising from a bound. -/
def keysFrom {α : Type} (lo : Nat) : Tab α → Bool
  | [] => true
  | (j, _) :: t => decide (lo ≤ j) && keysFrom (j + 1) t

/-- The canonical form: keys strictly rising and no entry equal to the default. -/
def twf {α : Type} [DecidableEq α] (d : α) (t : Tab α) : Bool := keysFrom 0 t && t.all fun e => decide (e.2 ≠ d)

/-- A memory in canonical form: addresses strictly rising, no entry equal to 0, which an unlisted address reads as (log 4). -/
def Memory.wf (m : Memory) : Bool := twf (0 : Byte) m

/-- One byte of a memory. -/
def mget (m : Memory) (a : Nat) : Byte := tget 0 m a
/-- One byte written. -/
def mset (m : Memory) (a : Nat) (b : Byte) : Memory := tset 0 m a b

/-- n bytes from an address. -/
def mread (m : Memory) (a : Nat) : Nat → List Byte
  | 0 => []
  | n + 1 => mget m a :: mread m (a + 1) n

/-- Bytes written from an address. -/
def mwrite (m : Memory) (a : Nat) : List Byte → Memory
  | [] => m
  | b :: bs => mwrite (mset m a b) (a + 1) bs

end Sys2Proof.Machine
end

