-- ==== Sys2Proof/WellFormed.lean ====
section
/-!
DEFINITION. WellFormed.lean: which instructions an encoding can stand for (the limits of R33, R34, R37-R39, R41, R44, R71), and
the socket number and trigger code of each trigger (R41, R45).
-/
namespace Sys2Proof

/-- The socket number and trigger code of a trigger (R41, R45); `none` for every other instruction. -/
def Instr.trigger : Instr → Option (Nat × Nat)
  | .iaAdd _ _ n => some (if n then 2 else 1, 8)
  | .iaSub _ _ n => some (if n then 2 else 1, 9)
  | .iaAnd _ _ n => some (if n then 2 else 1, 10)
  | .iaOr _ _ n => some (if n then 2 else 1, 11)
  | .iaXor _ _ n => some (if n then 2 else 1, 12)
  | .iaAndn _ _ n => some (if n then 2 else 1, 13)
  | .iaShl _ _ n => some (if n then 2 else 1, 14)
  | .iaShr _ _ n => some (if n then 2 else 1, 15)
  | .iaSra _ _ n => some (if n then 2 else 1, 16)
  | .iaMin _ _ n => some (if n then 2 else 1, 17)
  | .iaMax _ _ n => some (if n then 2 else 1, 18)
  | .iaMinu _ _ n => some (if n then 2 else 1, 19)
  | .iaMaxu _ _ n => some (if n then 2 else 1, 20)
  | .iaCeq _ _ n => some (if n then 2 else 1, 21)
  | .iaCne _ _ n => some (if n then 2 else 1, 22)
  | .iaClt _ _ n => some (if n then 2 else 1, 23)
  | .iaCltu _ _ n => some (if n then 2 else 1, 24)
  | .iaCle _ _ n => some (if n then 2 else 1, 25)
  | .iaCleu _ _ n => some (if n then 2 else 1, 26)
  | .iaSel _ _ n => some (if n then 2 else 1, 27)
  | .iaPass _ _ n => some (if n then 2 else 1, 28)
  | .iaSext _ _ n => some (if n then 2 else 1, 29)
  | .iaZext _ _ n => some (if n then 2 else 1, 30)
  | .iaClz _ _ n => some (if n then 2 else 1, 31)
  | .iaPopc _ _ n => some (if n then 2 else 1, 32)
  | .iaAddsc _ _ n => some (if n then 2 else 1, 33)
  | .iaBext _ _ n => some (if n then 2 else 1, 34)
  | .iaBins _ _ n => some (if n then 2 else 1, 35)
  | .imdMul _ _ => some (3, 8)
  | .imdMulh _ _ => some (3, 9)
  | .imdMulhu _ _ => some (3, 10)
  | .imdDiv _ _ => some (3, 11)
  | .imdDivu _ _ => some (3, 12)
  | .imdRem _ _ => some (3, 13)
  | .imdRemu _ _ => some (3, 14)
  | .vaFadd _ _ n => some (if n then 5 else 4, 8)
  | .vaFsub _ _ n => some (if n then 5 else 4, 9)
  | .vaFmul _ _ n => some (if n then 5 else 4, 10)
  | .vaFma _ _ n => some (if n then 5 else 4, 11)
  | .vaFmin _ _ n => some (if n then 5 else 4, 12)
  | .vaFmax _ _ n => some (if n then 5 else 4, 13)
  | .vaFsgn _ _ n => some (if n then 5 else 4, 14)
  | .vaFcmp _ _ n => some (if n then 5 else 4, 15)
  | .vaFcvt _ _ n => some (if n then 5 else 4, 16)
  | .vaFround _ _ n => some (if n then 5 else 4, 17)
  | .vaFtoi _ _ n => some (if n then 5 else 4, 18)
  | .vaItof _ _ n => some (if n then 5 else 4, 19)
  | .vaIadd _ _ n => some (if n then 5 else 4, 20)
  | .vaIsub _ _ n => some (if n then 5 else 4, 21)
  | .vaImul _ _ n => some (if n then 5 else 4, 22)
  | .vaIand _ _ n => some (if n then 5 else 4, 23)
  | .vaIor _ _ n => some (if n then 5 else 4, 24)
  | .vaIxor _ _ n => some (if n then 5 else 4, 25)
  | .vaIshl _ _ n => some (if n then 5 else 4, 26)
  | .vaIshr _ _ n => some (if n then 5 else 4, 27)
  | .vaIsra _ _ n => some (if n then 5 else 4, 28)
  | .vaImin _ _ n => some (if n then 5 else 4, 29)
  | .vaImax _ _ n => some (if n then 5 else 4, 30)
  | .vaIcmp _ _ n => some (if n then 5 else 4, 31)
  | .vaBlend _ _ n => some (if n then 5 else 4, 32)
  | .vaSplat _ _ n => some (if n then 5 else 4, 33)
  | .vaFclass _ _ n => some (if n then 5 else 4, 34)
  | .vxPerm _ _ => some (6, 8)
  | .vxRot _ _ => some (6, 9)
  | .vxShufl _ _ => some (6, 10)
  | .vxRedadd _ _ => some (6, 11)
  | .vxRedmax _ _ => some (6, 12)
  | .vxRedmin _ _ => some (6, 13)
  | .vxScan _ _ => some (6, 14)
  | .vxPart _ _ => some (6, 15)
  | .vxCompact _ _ => some (6, 16)
  | .vxExpand _ _ => some (6, 17)
  | .vxBcast _ _ => some (6, 18)
  | .sfuExp2 _ _ => some (7, 8)
  | .sfuLog2 _ _ => some (7, 9)
  | .sfuRcp _ _ => some (7, 10)
  | .sfuRsqrt _ _ => some (7, 11)
  | .sfuSqrt _ _ => some (7, 12)
  | .sfuSinpi _ _ => some (7, 13)
  | .sfuCospi _ _ => some (7, 14)
  | .sfuTanh _ _ => some (7, 15)
  | .sfuSigm _ _ => some (7, 16)
  | .mxWload _ _ => some (8, 8)
  | .mxWswap _ _ => some (8, 9)
  | .mxMstream _ _ => some (8, 10)
  | .mxMstreamn _ _ => some (8, 11)
  | .mxMclr _ _ => some (8, 12)
  | .mxMread _ _ => some (8, 13)
  | .mxMacw _ _ => some (8, 14)
  | .mxMivl _ _ => some (8, 15)
  | .mxWloadsp _ _ => some (8, 16)
  | .qntQnt _ _ => some (9, 8)
  | .qntQflush _ _ => some (9, 9)
  | .qntQrange _ _ => some (9, 10)
  | .qntQthr _ _ => some (9, 11)
  | .ivIadd _ _ => some (10, 8)
  | .ivIsub _ _ => some (10, 9)
  | .ivImul _ _ => some (10, 10)
  | .ivIdiv _ _ => some (10, 11)
  | .ivIsqr _ _ => some (10, 12)
  | .ivIsqrt _ _ => some (10, 13)
  | .ivIexp _ _ => some (10, 14)
  | .ivIlog _ _ => some (10, 15)
  | .ivImax _ _ => some (10, 16)
  | .ivImin _ _ => some (10, 17)
  | .ivIhull _ _ => some (10, 18)
  | .ivIsect _ _ => some (10, 19)
  | .ivImid _ _ => some (10, 20)
  | .ivIrad _ _ => some (10, 21)
  | .ivIwid _ _ => some (10, 22)
  | .ivIcmp _ _ => some (10, 23)
  | .ivIin _ _ => some (10, 24)
  | .ivIsubset _ _ => some (10, 25)
  | .ivImk _ _ => some (10, 26)
  | .ivIlo _ _ => some (10, 27)
  | .ivIhi _ _ => some (10, 28)
  | .ivCadd _ _ => some (10, 32)
  | .ivCsub _ _ => some (10, 33)
  | .ivCmul _ _ => some (10, 34)
  | .ivCdiv _ _ => some (10, 35)
  | .ivCsqr _ _ => some (10, 36)
  | .ivCsqrt _ _ => some (10, 37)
  | .ivCexp _ _ => some (10, 38)
  | .ivClog _ _ => some (10, 39)
  | .ivCmax _ _ => some (10, 40)
  | .ivCmin _ _ => some (10, 41)
  | .lwLd _ _ n => some (if n then 12 else 11, 8)
  | .lwSt _ _ n => some (if n then 12 else 11, 9)
  | .lwLdx _ _ n => some (if n then 12 else 11, 10)
  | .lwStx _ _ n => some (if n then 12 else 11, 11)
  | .lwBind _ _ n => some (if n then 12 else 11, 12)
  | .lwUnbind _ _ n => some (if n then 12 else 11, 13)
  | .lwSeal _ _ n => some (if n then 12 else 11, 14)
  | .lwRelease _ _ n => some (if n then 12 else 11, 15)
  | .lwGath _ _ n => some (if n then 12 else 11, 16)
  | .lwScat _ _ n => some (if n then 12 else 11, 17)
  | .gmLd _ _ => some (13, 8)
  | .gmSt _ _ => some (13, 9)
  | .gmLdacq _ _ => some (13, 10)
  | .gmStrel _ _ => some (13, 11)
  | .gmLdv _ _ => some (13, 12)
  | .gmStv _ _ => some (13, 13)
  | .gmAmo _ _ => some (13, 14)
  | .gmCas _ _ => some (13, 15)
  | .gmFred _ _ => some (13, 16)
  | .gmFredrd _ _ => some (13, 17)
  | .gmFredclr _ _ => some (13, 18)
  | .gmFence _ _ => some (13, 19)
  | .gmGath _ _ => some (13, 20)
  | .gmScat _ _ => some (13, 21)
  | .cpCopy _ _ => some (14, 8)
  | .cpCstat _ _ => some (14, 9)
  | .cpCcancel _ _ => some (14, 10)
  | .cpPrefetch _ _ => some (14, 11)
  | .netSend _ _ => some (15, 8)
  | .netSendm _ _ => some (15, 9)
  | .netPsend _ _ => some (15, 10)
  | .netQcnt _ _ => some (15, 11)
  | .sluSinit _ _ => some (16, 8)
  | .sluArrive _ _ => some (16, 9)
  | .sluArrivb _ _ => some (16, 10)
  | .sluStest _ _ => some (16, 11)
  | .sluSreset _ _ => some (16, 12)
  | .sluSemadd _ _ => some (16, 13)
  | .sluSemsub _ _ => some (16, 14)
  | .ttHalloc _ _ => some (17, 8)
  | .ttHfree _ _ => some (17, 9)
  | .ttHstate _ _ => some (17, 10)
  | .ttHset _ _ => some (17, 11)
  | .ttHinfo _ _ => some (17, 12)
  | .lnkLaunch _ _ => some (18, 8)
  | .lnkMbind _ _ => some (18, 9)
  | .lnkMunbind _ _ => some (18, 10)
  | .lnkMpos _ _ => some (18, 11)
  | .lnkPermit _ _ => some (18, 12)
  | .sysCsrr _ _ => some (19, 8)
  | .sysCsrw _ _ => some (19, 9)
  | .sysCsrs _ _ => some (19, 10)
  | .sysCsrc _ _ => some (19, 11)
  | .sysTsc _ _ => some (19, 12)
  | .sysEst _ _ => some (19, 13)
  | .sysEcall _ _ => some (19, 14)
  | .sysCouple _ _ => some (19, 15)
  | .sysDecouple _ _ => some (19, 16)
  | _ => none

/-- The guard and source of a move (R35); `none` for every other instruction. -/
def Instr.move : Instr → Option (Guard × Src)
  | .moveToRegister g x _ => some (g, x)
  | .moveToStream g x _ => some (g, x)
  | .moveToOperand g x _ _ => some (g, x)
  | .iaAdd g x _ => some (g, x)
  | .iaSub g x _ => some (g, x)
  | .iaAnd g x _ => some (g, x)
  | .iaOr g x _ => some (g, x)
  | .iaXor g x _ => some (g, x)
  | .iaAndn g x _ => some (g, x)
  | .iaShl g x _ => some (g, x)
  | .iaShr g x _ => some (g, x)
  | .iaSra g x _ => some (g, x)
  | .iaMin g x _ => some (g, x)
  | .iaMax g x _ => some (g, x)
  | .iaMinu g x _ => some (g, x)
  | .iaMaxu g x _ => some (g, x)
  | .iaCeq g x _ => some (g, x)
  | .iaCne g x _ => some (g, x)
  | .iaClt g x _ => some (g, x)
  | .iaCltu g x _ => some (g, x)
  | .iaCle g x _ => some (g, x)
  | .iaCleu g x _ => some (g, x)
  | .iaSel g x _ => some (g, x)
  | .iaPass g x _ => some (g, x)
  | .iaSext g x _ => some (g, x)
  | .iaZext g x _ => some (g, x)
  | .iaClz g x _ => some (g, x)
  | .iaPopc g x _ => some (g, x)
  | .iaAddsc g x _ => some (g, x)
  | .iaBext g x _ => some (g, x)
  | .iaBins g x _ => some (g, x)
  | .imdMul g x => some (g, x)
  | .imdMulh g x => some (g, x)
  | .imdMulhu g x => some (g, x)
  | .imdDiv g x => some (g, x)
  | .imdDivu g x => some (g, x)
  | .imdRem g x => some (g, x)
  | .imdRemu g x => some (g, x)
  | .vaFadd g x _ => some (g, x)
  | .vaFsub g x _ => some (g, x)
  | .vaFmul g x _ => some (g, x)
  | .vaFma g x _ => some (g, x)
  | .vaFmin g x _ => some (g, x)
  | .vaFmax g x _ => some (g, x)
  | .vaFsgn g x _ => some (g, x)
  | .vaFcmp g x _ => some (g, x)
  | .vaFcvt g x _ => some (g, x)
  | .vaFround g x _ => some (g, x)
  | .vaFtoi g x _ => some (g, x)
  | .vaItof g x _ => some (g, x)
  | .vaIadd g x _ => some (g, x)
  | .vaIsub g x _ => some (g, x)
  | .vaImul g x _ => some (g, x)
  | .vaIand g x _ => some (g, x)
  | .vaIor g x _ => some (g, x)
  | .vaIxor g x _ => some (g, x)
  | .vaIshl g x _ => some (g, x)
  | .vaIshr g x _ => some (g, x)
  | .vaIsra g x _ => some (g, x)
  | .vaImin g x _ => some (g, x)
  | .vaImax g x _ => some (g, x)
  | .vaIcmp g x _ => some (g, x)
  | .vaBlend g x _ => some (g, x)
  | .vaSplat g x _ => some (g, x)
  | .vaFclass g x _ => some (g, x)
  | .vxPerm g x => some (g, x)
  | .vxRot g x => some (g, x)
  | .vxShufl g x => some (g, x)
  | .vxRedadd g x => some (g, x)
  | .vxRedmax g x => some (g, x)
  | .vxRedmin g x => some (g, x)
  | .vxScan g x => some (g, x)
  | .vxPart g x => some (g, x)
  | .vxCompact g x => some (g, x)
  | .vxExpand g x => some (g, x)
  | .vxBcast g x => some (g, x)
  | .sfuExp2 g x => some (g, x)
  | .sfuLog2 g x => some (g, x)
  | .sfuRcp g x => some (g, x)
  | .sfuRsqrt g x => some (g, x)
  | .sfuSqrt g x => some (g, x)
  | .sfuSinpi g x => some (g, x)
  | .sfuCospi g x => some (g, x)
  | .sfuTanh g x => some (g, x)
  | .sfuSigm g x => some (g, x)
  | .mxWload g x => some (g, x)
  | .mxWswap g x => some (g, x)
  | .mxMstream g x => some (g, x)
  | .mxMstreamn g x => some (g, x)
  | .mxMclr g x => some (g, x)
  | .mxMread g x => some (g, x)
  | .mxMacw g x => some (g, x)
  | .mxMivl g x => some (g, x)
  | .mxWloadsp g x => some (g, x)
  | .qntQnt g x => some (g, x)
  | .qntQflush g x => some (g, x)
  | .qntQrange g x => some (g, x)
  | .qntQthr g x => some (g, x)
  | .ivIadd g x => some (g, x)
  | .ivIsub g x => some (g, x)
  | .ivImul g x => some (g, x)
  | .ivIdiv g x => some (g, x)
  | .ivIsqr g x => some (g, x)
  | .ivIsqrt g x => some (g, x)
  | .ivIexp g x => some (g, x)
  | .ivIlog g x => some (g, x)
  | .ivImax g x => some (g, x)
  | .ivImin g x => some (g, x)
  | .ivIhull g x => some (g, x)
  | .ivIsect g x => some (g, x)
  | .ivImid g x => some (g, x)
  | .ivIrad g x => some (g, x)
  | .ivIwid g x => some (g, x)
  | .ivIcmp g x => some (g, x)
  | .ivIin g x => some (g, x)
  | .ivIsubset g x => some (g, x)
  | .ivImk g x => some (g, x)
  | .ivIlo g x => some (g, x)
  | .ivIhi g x => some (g, x)
  | .ivCadd g x => some (g, x)
  | .ivCsub g x => some (g, x)
  | .ivCmul g x => some (g, x)
  | .ivCdiv g x => some (g, x)
  | .ivCsqr g x => some (g, x)
  | .ivCsqrt g x => some (g, x)
  | .ivCexp g x => some (g, x)
  | .ivClog g x => some (g, x)
  | .ivCmax g x => some (g, x)
  | .ivCmin g x => some (g, x)
  | .lwLd g x _ => some (g, x)
  | .lwSt g x _ => some (g, x)
  | .lwLdx g x _ => some (g, x)
  | .lwStx g x _ => some (g, x)
  | .lwBind g x _ => some (g, x)
  | .lwUnbind g x _ => some (g, x)
  | .lwSeal g x _ => some (g, x)
  | .lwRelease g x _ => some (g, x)
  | .lwGath g x _ => some (g, x)
  | .lwScat g x _ => some (g, x)
  | .gmLd g x => some (g, x)
  | .gmSt g x => some (g, x)
  | .gmLdacq g x => some (g, x)
  | .gmStrel g x => some (g, x)
  | .gmLdv g x => some (g, x)
  | .gmStv g x => some (g, x)
  | .gmAmo g x => some (g, x)
  | .gmCas g x => some (g, x)
  | .gmFred g x => some (g, x)
  | .gmFredrd g x => some (g, x)
  | .gmFredclr g x => some (g, x)
  | .gmFence g x => some (g, x)
  | .gmGath g x => some (g, x)
  | .gmScat g x => some (g, x)
  | .cpCopy g x => some (g, x)
  | .cpCstat g x => some (g, x)
  | .cpCcancel g x => some (g, x)
  | .cpPrefetch g x => some (g, x)
  | .netSend g x => some (g, x)
  | .netSendm g x => some (g, x)
  | .netPsend g x => some (g, x)
  | .netQcnt g x => some (g, x)
  | .sluSinit g x => some (g, x)
  | .sluArrive g x => some (g, x)
  | .sluArrivb g x => some (g, x)
  | .sluStest g x => some (g, x)
  | .sluSreset g x => some (g, x)
  | .sluSemadd g x => some (g, x)
  | .sluSemsub g x => some (g, x)
  | .ttHalloc g x => some (g, x)
  | .ttHfree g x => some (g, x)
  | .ttHstate g x => some (g, x)
  | .ttHset g x => some (g, x)
  | .ttHinfo g x => some (g, x)
  | .lnkLaunch g x => some (g, x)
  | .lnkMbind g x => some (g, x)
  | .lnkMunbind g x => some (g, x)
  | .lnkMpos g x => some (g, x)
  | .lnkPermit g x => some (g, x)
  | .sysCsrr g x => some (g, x)
  | .sysCsrw g x => some (g, x)
  | .sysCsrs g x => some (g, x)
  | .sysCsrc g x => some (g, x)
  | .sysTsc g x => some (g, x)
  | .sysEst g x => some (g, x)
  | .sysEcall g x => some (g, x)
  | .sysCouple g x => some (g, x)
  | .sysDecouple g x => some (g, x)
  | _ => none

/-- The head of a control operation (R30); `none` for every other instruction. -/
def Instr.head : Instr → Option CtlHead
  | .ctlNop h => some h
  | .ctlStall h _ => some h
  | .ctlBra h _ => some h
  | .ctlBrp h _ _ _ => some h
  | .ctlBri h _ => some h
  | .ctlCall h _ => some h
  | .ctlRet h => some h
  | .ctlLoop h _ _ _ _ => some h
  | .ctlLend h _ => some h
  | .ctlLbrk h => some h
  | .ctlWait h _ _ => some h
  | .ctlTrap h => some h
  | .ctlFmt h _ _ => some h
  | .ctlUiret h => some h
  | .ctlStrokeend h => some h
  | .ctlHalt h => some h
  | .ctlSret h => some h
  | _ => none

/-- The result ports a socket implements (R41): y0 everywhere, y0-y2 on vx and qnt, y0-y1 on iv. -/
def portCount (s : Nat) : Nat := if s = 6 ∨ s = 9 then 3 else if s = 10 then 2 else 1

/-- Sockets 1-19 exist (R41). -/
def socketOk (s : Nat) : Bool := decide (1 ≤ s ∧ s ≤ 19)

/-- The number of registers of a class (R39). -/
def RegClass.size : RegClass → Nat
  | .x => 64 | .v => 64 | .j => 16 | .p => 16 | .k => 8

/-- The number of a class (R39). -/
def RegClass.num : RegClass → Nat
  | .x => 0 | .v => 1 | .j => 2 | .p => 3 | .k => 4

/-- A register index within its class's range (R39, R49). -/
def Reg.wf (r : Reg) : Bool := decide (r.idx.toNat < r.cls.size)

/-- The hold modifier of a source (R44); an immediate and a literal have none. -/
def Src.hold : Src → Bool
  | .reg _ h => h | .port _ _ h => h | .imm _ => false | .lit _ => false
  | .stream _ _ h => h | .recvq _ _ h => h | .cq _ h => h

/-- A source within the limits of R37 and R41; the immediate 0x800 reads the literal and is no value of its own. -/
def Src.wf : Src → Bool
  | .reg r _ => r.wf
  | .port s y _ => socketOk s.toNat && decide (y.toNat < portCount s.toNat)
  | .imm v => decide (v ≠ 0x800)
  | .lit _ | .stream .. | .recvq .. | .cq .. => true

/-- Whether a move's destination is an operand or trigger port, where hold is legal (R44). -/
def Instr.toPort (i : Instr) : Bool :=
  i.trigger.isSome || match i with | .moveToOperand .. => true | _ => false

/-- The legal values of an FMT field (R34, R71). -/
def fmtLegal (f v : Nat) : Bool :=
  match f with
  | 0 => decide (v ≤ 2) | 1 => decide (v ≤ 3) | 2 => decide (v ≤ 4) | 3 => decide (v ≤ 4) | 4 => decide (v ≤ 3)
  | 5 => decide (v ≤ 3) | _ => false

/-- The operand of a control operation within the limits of R33, R34 and R71. A loop without a literal has no stride set; with a
32-bit literal its strides are that literal sign-extended (R32, R107). -/
def Instr.ctlOk : Instr → Bool
  | .ctlBra _ d => decide (d ≠ 0)
  | .ctlBrp _ _ _ d => decide (d ≠ 0)
  | .ctlLoop h body stages _ strides =>
    decide (body ≠ 0) && decide (stages.toNat ≤ 6) &&
      match h.lit with
      | .none => decide (strides = 0)
      | .w32 => decide (strides = (strides.setWidth 32).signExtend 64)
      | .w64 => true
  | .ctlLend _ b => decide (b ≠ 0)
  | .ctlWait _ idx sem => !sem || decide (idx.toNat ≤ 15)
  | .ctlFmt _ f v => fmtLegal f.toNat v.toNat
  | _ => true

/-- Well-formed: an instruction some legal encoding stands for. Events have no encoding and are well-formed. -/
def Instr.wf (i : Instr) : Bool :=
  (match i.move with
   | some (_, x) => x.wf && (!x.hold || i.toPort)
   | none => true) &&
  (match i with
   | .moveToRegister _ _ r => r.wf
   | .moveToOperand _ _ s _ => socketOk s.toNat
   | _ => true) &&
  i.ctlOk

end Sys2Proof
end

