-- ==== Sys2Proof/Machine/Ops.lean ====
section
/-!
DEFINITION. Machine/Ops.lean: the named operations over a tile and the device: registers, ports, the focus on a tile, storage
and its errors, translation, records and logs, taking an exception and returning from one (R116), faulting a node (R308).
-/
namespace Sys2Proof.Machine

/-! ## Outcomes inside a bundle -/

/-- What a part of a bundle comes to: an effect, a freeze, a drain wait (R96) or a fault (R50). -/
inductive Res (α : Type) where
  | ok (x : α)
  | freeze
  | drain
  | fault (f : FaultInfo)

/-- Go on with an effect; a freeze, a drain wait or a fault ends the bundle. -/
def Res.bind {α β : Type} (r : Res α) (k : α → Res β) : Res β :=
  match r with
  | .ok x => k x
  | .freeze => .freeze
  | .drain => .drain
  | .fault f => .fault f

/-- A fault of an operation of a socket, in a move slot (R305). -/
def mkFault (cause sock code slot detail : Nat) : FaultInfo :=
  { cause := cause, sock := sock, code := code, slot := slot, late := false, detail := detail, addr := 0 }

/-! ## Registers -/

/-- The value of an unwritten j register: every lane empty by contraction (R85, R65). -/
def jReset : Vec := packLanes 64 (List.replicate 16 0xFF8000007F800000)

/-- A predicate (R36, R39): p0 is true. -/
def getP (t : Tile) (i : Nat) : BitVec 2 := if i = 0 then 1 else tget 0 t.regs.p i

/-- A predicate set by the sequencer, p14 and p15 included; p0 stays true. A value of 3 is stored as unknown (R40). -/
def putP (t : Tile) (i : Nat) (v : BitVec 2) : Tile :=
  if i = 0 then t else { t with regs := { t.regs with p := tset 0 t.regs.p i (if v = 3 then 2 else v) } }

/-- An x register; x0 reads zero (R39). -/
def getX (t : Tile) (i : Nat) : Word := if i = 0 then 0 else tget 0 t.regs.x i

/-- An x register written; a write to x0 is discarded (R36). -/
def putX (t : Tile) (i : Nat) (v : Word) : Tile :=
  if i = 0 then t else { t with regs := { t.regs with x := tset 0 t.regs.x i v } }

/-- A register at full width, zero-extended (R40). -/
def readReg (t : Tile) (r : Reg) : Vec :=
  match r.cls with
  | .x => wordVec (getX t r.idx.toNat)
  | .v => tget 0 t.regs.v r.idx.toNat
  | .j => tget jReset t.regs.j r.idx.toNat
  | .p => (getP t r.idx.toNat).setWidth 1024
  | .k => wordVec (tget 0 t.regs.k r.idx.toNat)

/-- A register write by a move (R40, R85): the low-order bits; x0, p0, p14 and p15 discard it. -/
def writeReg (t : Tile) (r : Reg) (v : Vec) : Tile :=
  match r.cls with
  | .x => putX t r.idx.toNat (vecWord v)
  | .v => { t with regs := { t.regs with v := tset 0 t.regs.v r.idx.toNat v } }
  | .j => { t with regs := { t.regs with j := tset jReset t.regs.j r.idx.toNat v } }
  | .p => if r.idx.toNat = 14 ∨ r.idx.toNat = 15 then t else putP t r.idx.toNat (v.setWidth 2)
  | .k => { t with regs := { t.regs with k := tset 0 t.regs.k r.idx.toNat (vecWord v) } }

/-- Whether a guarded move fires (R36). -/
def guardFires (t : Tile) (g : Guard) : Bool :=
  let p := getP t g.pred.toNat
  if g.inv then decide (p = 0) else decide (p = 1)

/-- System privilege (R114). -/
def isSystem (t : Tile) : Bool := bit t.csr.status 0

/-- STATUS as it reads: the stored bits with ldepth (R114). -/
def statusWord (t : Tile) : Word := t.csr.status ||| (BitVec.ofNat 64 (t.ctl.loops.length % 8) <<< 13)

/-- A status bit set or cleared. -/
def putStatus (t : Tile) (i : Nat) (b : Bool) : Tile :=
  let m : Word := 1 <<< i
  { t with csr := { t.csr with status := if b then t.csr.status ||| m else t.csr.status &&& ~~~m } }

/-! ## Sockets -/

/-- The socket of a tile. -/
def sockOf (t : Tile) (n : Nat) : Socket := tget Socket.reset t.socks n
/-- A socket written back. -/
def putSock (t : Tile) (n : Nat) (k : Socket) : Tile := { t with socks := tset Socket.reset t.socks n k }
/-- A result port of a socket. -/
def portOf (k : Socket) (y : Nat) : Port := tget Port.reset k.y y
/-- A result port written back. -/
def putPort (k : Socket) (y : Nat) (p : Port) : Socket := { k with y := tset Port.reset k.y y p }

/-- SOCKMODE's bits are the socket numbers of the sockets that have both modes (R94). -/
def sockFree (t : Tile) (sock : Nat) : Bool := bit t.csr.sockmode sock
/-- The sockets that have a SOCKMODE bit (R46, R94). -/
def modeMask : Word := 0x4F6

/-- The operations always data-locked in a socket that has both modes (R45). -/
def alwaysLocked (sock code : Nat) : Bool :=
  match sock with
  | 6 => code == 15 || code == 16 || code == 17
  | 10 => code == 11 || code == 13 || code == 14 || code == 15 || code == 35 || code == 37 || code == 38 || code == 39
  | _ => false

/-- Whether a trigger follows the free-running rules (R46). -/
def runsFree (t : Tile) (sock code : Nat) : Bool := sockFree t sock && !alwaysLocked sock code

/-- A free-running operation of a socket is in flight. -/
def anyFlight (k : Socket) : Bool := k.y.any fun e => !e.2.flight.isEmpty
/-- A data-locked result of a socket is in flight or unread. -/
def anyLocked (k : Socket) : Bool := k.y.any fun e => !e.2.fifo.isEmpty
/-- A data-locked result of a socket is in flight. -/
def anyPending (k : Socket) : Bool := k.y.any fun e => e.2.fifo.any fun r => decide (r.due ≠ .ready)

/-- Whether the socket accepts a trigger that delivers to these ports (R92, R95): a drain wait before an L operation of a
free-running socket, a freeze of an F/L operation behind an L operation's results, a freeze at four results of a port. -/
def accepts (t : Tile) (sock code : Nat) (outs : List Nat) : Res Unit :=
  let k := sockOf t sock
  if runsFree t sock code then
    if anyLocked k then .freeze else .ok ()
  else if sockFree t sock && anyFlight k then .drain
  else if outs.any fun y => decide (4 ≤ (portOf k y).fifo.length) then .freeze
  else .ok ()

/-- The operands a trigger reads (R92, R93, R101): in data-locked mode an absent port is a missing-operand fault and the read ports
are consumed unless held or the trigger itself is held; in free-running mode an absent port reads zero and stays. -/
def takeOperands (t : Tile) (sock code slot : Nat) (held : Bool) : List Nat → Res (List Vec × Tile)
  | [] => .ok ([], t)
  | p :: ps =>
    let k := sockOf t sock
    match tfind k.o p with
    | none =>
      if runsFree t sock code then
        (takeOperands t sock code slot held ps).bind fun r => .ok (0 :: r.1, r.2)
      else .fault (mkFault 6 sock code slot p)
    | some v =>
      let t' := if runsFree t sock code || held || v.held then t else putSock t sock { k with o := tdel k.o p }
      (takeOperands t' sock code slot held ps).bind fun r => .ok (v.val :: r.1, r.2)

/-- A result sent toward a port of a socket: due after so many steps (free-running) or cycles (data-locked) (R96). -/
def deliver (t : Tile) (sock code y lat : Nat) (v : Vec) (narrowed : Option Vec) : Tile :=
  let k := sockOf t sock
  let p := portOf k y
  let p' := if runsFree t sock code then { p with flight := p.flight ++ [{ rem := lat, val := v, narrowed := narrowed }] }
    else { p with fifo := p.fifo ++ [{ due := .cycles lat, val := v, narrowed := narrowed }] }
  putSock t sock (putPort k y p')

/-- A place kept on a result port for a result that an event will answer (R92: in flight toward the port). -/
def awaitOn (t : Tile) (sock y serial : Nat) : Tile :=
  let k := sockOf t sock
  let p := portOf k y
  putSock t sock (putPort k y { p with fifo := p.fifo ++ [{ due := .waits serial, val := 0, narrowed := none }] })

/-- The waiting result of a serial on a port answered: due after so many cycles (0: at once). -/
def answerOn (t : Tile) (sock y serial lat : Nat) (v : Vec) : Tile :=
  let k := sockOf t sock
  let p := portOf k y
  let f := p.fifo.map fun r =>
    if r.due = .waits serial then { r with due := if lat = 0 then .ready else .cycles lat, val := v } else r
  putSock t sock (putPort k y { p with fifo := f })

/-- The waiting result of a serial dropped: its operation faulted (R225, R234). -/
def dropOn (t : Tile) (sock y serial : Nat) : Tile :=
  let k := sockOf t sock
  let p := portOf k y
  putSock t sock (putPort k y { p with fifo := p.fifo.filter fun r => decide (r.due ≠ .waits serial) })

/-- The same on y0. -/
def awaitResult (t : Tile) (sock serial : Nat) : Tile := awaitOn t sock 0 serial
/-- The same on y0. -/
def answer (t : Tile) (sock serial lat : Nat) (v : Vec) : Tile := answerOn t sock 0 serial lat v
/-- The same on y0. -/
def dropResult (t : Tile) (sock serial : Nat) : Tile := dropOn t sock 0 serial

/-- A late fault noted, oldest first (R307). -/
def addLate (t : Tile) (f : FaultInfo) : Tile :=
  { t with ctl := { t.ctl with late := t.ctl.late ++ [{ f with late := true }] } }

/-- A fresh serial of the tile. -/
def bumpSerial (t : Tile) : Nat × Tile := (t.serial, { t with serial := t.serial + 1 })

/-- A user-level event joins the list or is dropped (R119). -/
def addEvent (t : Tile) (cause info : Nat) : Tile :=
  if t.ctl.events.length < 32 then
    { t with ctl := { t.ctl with events := t.ctl.events ++ [BitVec.ofNat 24 (cause * 65536 + info % 65536)] } }
  else { t with ctl := { t.ctl with dropped := true } }

/-! ## Tiles of the machine -/

/-- The number of a tile in the device. -/
def tileIndex (i : TileId) : Nat := i.die * 256 + i.row * 16 + i.col

/-- A tile of the machine: the focused one, another, or one still in reset. -/
def tileAt (s : State) (i : TileId) : Tile :=
  if s.cur.id = i then s.cur else (s.peers.find? fun t => decide (t.id = i)).getD (Tile.reset i)

/-- Turn the focus to a tile. -/
def focus (i : TileId) (s : State) : State :=
  if s.cur.id = i then s
  else { s with cur := tileAt s i, peers := s.cur :: s.peers.filter fun t => decide (t.id ≠ i) }

/-- Act on a tile and give the focus back. -/
def onTile (i : TileId) (f : State → State) (s : State) : State :=
  let back := s.cur.id
  focus back (f (focus i s))

/-- A change of the focused tile. -/
def onCur (f : Tile → Tile) (s : State) : State := { s with cur := f s.cur }

/-- The die of a tile. -/
def dieOf (s : State) (i : TileId) : Die := (s.dev.dies[i.die]?).getD (Die.reset false)
/-- A die written back. -/
def putDie (s : State) (d : Nat) (x : Die) : State := { s with dev := { s.dev with dies := setAt s.dev.dies d x } }
/-- The timebase of the focused tile's die (R372). -/
def tscOf (s : State) : Word := (dieOf s s.cur.id).tsc
/-- Raise the timebase of the focused tile's die (R373). -/
def raiseTsc (s : State) (v : Word) : State :=
  let d := dieOf s s.cur.id
  if d.tsc.toNat < v.toNat then putDie s s.cur.id.die { d with tsc := v } else s
/-- The timebase of a cistern (R373). -/
def cisternTsc (s : State) (c : Nat) : Word := tget 0 s.dev.cisternTsc c

/-- The next free value of the machine: its number, and the counter advanced. -/
def freshValue (s : State) : Word × State := (Config.freeValue s.fresh, { s with fresh := s.fresh + 1 })

/-- The cluster of a tile and its ring position (R15). -/
def clusterOf (i : TileId) : Nat := i.die * 16 + (i.row / 4) * 4 + i.col / 4
/-- The snake order over the cluster's local rows and columns (R15). -/
def ringPos (i : TileId) : Nat := 4 * (i.row % 4) + if i.row % 2 = 0 then i.col % 4 else 3 - i.col % 4
/-- The shorter way round the ring of 16 (R362). -/
def ringDist (a b : Nat) : Nat := let d := if a ≤ b then b - a else a - b; if d ≤ 8 then d else 16 - d
/-- The tile at a ring position of a cluster. -/
def tileAtRing (i : TileId) (r : Nat) : TileId :=
  let lr := r / 4
  let lc := if lr % 2 = 0 then r % 4 else 3 - r % 4
  { die := i.die, row := i.row / 4 * 4 + lr, col := i.col / 4 * 4 + lc }

/-- The size of a node's rectangle, from a tile's place. -/
def rectRows (p : Place) : Nat := 2 ^ p.lh
/-- Columns of the rectangle. -/
def rectCols (p : Place) : Nat := 2 ^ p.lw
/-- The relative position of a tile in its rectangle. -/
def relRow (t : Tile) : Nat := t.id.row - t.place.origin.row
/-- Relative column. -/
def relCol (t : Tile) : Nat := t.id.col - t.place.origin.col

/-- The node of an entry. -/
def nodeOf (s : State) (r : NodeRef) : Option Node := s.dev.hw.nodes.find? fun n => decide (n.ref = r)
/-- The node of the focused tile. -/
def curNode (s : State) : Option Node := s.cur.place.node.bind (nodeOf s)
/-- A change of the headworks. -/
def onHw (f : Headworks → Headworks) (s : State) : State := { s with dev := { s.dev with hw := f s.dev.hw } }
/-- A node written back. -/
def putNode (n : Node) (s : State) : State :=
  onHw (fun h => { h with nodes := h.nodes.map fun m => if m.ref = n.ref then n else m }) s
/-- A context by number. -/
def ctxOf (s : State) (c : Nat) : Option Ctx := s.dev.hw.ctxs.find? fun x => decide (x.num = c)
/-- A context written back. -/
def putCtx (c : Ctx) (s : State) : State :=
  onHw (fun h => { h with ctxs := h.ctxs.map fun x => if x.num = c.num then c else x }) s
/-- The context number of a tile's node; 0 when it has none. -/
def ctxNum (t : Tile) : Nat := match t.place.node with | some r => r.ctx | none => 0

/-- The tile at a relative position of a part of the focused tile's node (R12, R21); the parts of a span lie where the headworks
placed them, and a tile without a node names tiles of its own rectangle. -/
def memberTile (s : State) (part row col : Nat) : TileId :=
  match curNode s with
  | some n =>
    match n.parts[part]? with
    | some (d, r, c) => { die := d, row := r + row, col := c + col }
    | none => { die := s.cur.id.die, row := s.cur.place.origin.row + row, col := s.cur.place.origin.col + col }
  | none => { die := s.cur.id.die, row := s.cur.place.origin.row + row, col := s.cur.place.origin.col + col }

/-- The positions of an h by w block. -/
def block (row col h w : Nat) : List (Nat × Nat) :=
  (List.range h).flatMap fun r => (List.range w).map fun c => (row + r, col + c)

/-- Every tile of a node, by part, row, column. -/
def nodeTiles (n : Node) : List TileId :=
  n.parts.flatMap fun (d, r, c) => (block r c (2 ^ n.decl.lh) (2 ^ n.decl.lw)).map fun (a, b) => { die := d, row := a, col := b }

/-! ## Storage -/

/-- The storage a handle entry can name, by number: a tile's well, a cluster's slice, a cistern's buffer (R208). -/
def wellSpace (i : TileId) : Nat := 10000 + tileIndex i
/-- The slice of a tile's cluster. -/
def sliceSpace (i : TileId) : Nat := 1000 + clusterOf i
/-- A cistern's buffer. -/
def bufferSpace (c : Nat) : Nat := 2000 + c

/-- The bytes of a storage. Only the focused tile's own well is reached. -/
def spaceMem (s : State) (space : Nat) : Memory :=
  if 10000 ≤ space then s.cur.well else tget [] s.dev.storage space
/-- The poisoned 8-byte words of a storage (R221). -/
def spacePoison (s : State) (space : Nat) : List Nat :=
  if 10000 ≤ space then s.cur.wellPoison else tget [] s.dev.storagePoison space
/-- Storage bytes and poison written back. -/
def putSpace (s : State) (space : Nat) (m : Memory) (ps : List Nat) : State :=
  if 10000 ≤ space then { s with cur := { s.cur with well := m, wellPoison := ps } }
  else { s with dev := { s.dev with storage := tset [] s.dev.storage space m,
                                    storagePoison := tset [] s.dev.storagePoison space ps } }

/-- A poisoned word of size g is touched by n bytes at off. -/
def poisonHit (ps : List Nat) (g off n : Nat) : Bool := ps.any fun w => decide (w * g < off + n ∧ off < (w + 1) * g)
/-- A poisoned word is touched and not wholly covered (R221: a sub-word write). -/
def poisonPart (ps : List Nat) (g off n : Nat) : Bool :=
  ps.any fun w => decide (w * g < off + n ∧ off < (w + 1) * g ∧ ¬(off ≤ w * g ∧ (w + 1) * g ≤ off + n))
/-- The poisoned words left after a write of n bytes at off: those wholly covered are cleared (R221). -/
def poisonCleared (ps : List Nat) (g off n : Nat) : List Nat :=
  ps.filter fun w => !decide (off ≤ w * g ∧ (w + 1) * g ≤ off + n)

/-- Bytes of a storage and whether one of their words is poisoned. -/
def spaceRead (s : State) (space off n : Nat) : List Byte × Bool :=
  (mread (spaceMem s space) off n, poisonHit (spacePoison s space) 8 off n)

/-- A write to storage; none where R221 refuses a sub-word write over a poisoned word. -/
def spaceWrite (s : State) (space off : Nat) (bs : List Byte) : Option State :=
  let ps := spacePoison s space
  if poisonPart ps 8 off bs.length then none
  else some (putSpace s space (mwrite (spaceMem s space) off bs) (poisonCleared ps 8 off bs.length))

/-- The key of a handle's storage, where its state is held (R212). -/
def storeKey (e : Entry) : Nat := e.space * 2 ^ 26 + e.off
/-- The state at a handle's storage; empty, nothing counted, until an event changes it. -/
def hstateOf (s : State) (e : Entry) : HState := tget { st := 0, count := 0 } s.dev.hstate (storeKey e)
/-- The state at a handle's storage written. -/
def putHstate (s : State) (e : Entry) (h : HState) : State :=
  { s with dev := { s.dev with hstate := tset { st := 0, count := 0 } s.dev.hstate (storeKey e) h } }

/-- The events of R213. -/
inductive HEvent where
  | write | read | seal | release
  deriving DecidableEq, Repr

/-- The state that an event leaves, or none where R213 says fault: 0 empty, 1 filling, 2 full, 3 draining. -/
def hstep (h : HState) (e : HEvent) : Option HState :=
  match e, h.st with
  | .write, 0 => some { h with st := 1 }
  | .write, 1 => some h
  | .read, 2 => some { h with st := 3 }
  | .read, 3 => some h
  | .seal, 0 => some { h with st := 2 }
  | .seal, 1 => some { h with st := 2 }
  | .release, 2 => some { st := 0, count := 0 }
  | .release, 3 => some { st := 0, count := 0 }
  | _, _ => none

/-- An event applied at a handle; a plain handle has no state (R213). None where it is refused. -/
def handleEvent (s : State) (e : Entry) (ev : HEvent) : Option State :=
  if e.tracked then (hstep (hstateOf s e) ev).map (putHstate s e) else some s

/-- A copy's completion counted at a tracked handle with a declared count, while it is filling (R213). -/
def countCompletion (s : State) (e : Entry) : State :=
  let h := hstateOf s e
  if e.tracked ∧ 1 ≤ e.declared ∧ h.st = 1 then
    putHstate s e (if e.declared ≤ h.count + 1 then { st := 2, count := h.count + 1 } else { h with count := h.count + 1 })
  else s

/-! ## Errors and logs -/

/-- A change of the error counters of a place: die d is place d, cistern c is place 16 + c. -/
def onErrors (s : State) (place : Nat) (f : Errors → Errors) : State :=
  { s with dev := { s.dev with errors := tset Errors.reset s.dev.errors place (f (tget Errors.reset s.dev.errors place)) } }

/-- A saturating 32-bit increment. -/
def sat32 (c : BitVec 32) : BitVec 32 := if c = 0xFFFFFFFF then c else c + 1

/-- A violation-log entry: the oldest of 256 gives way (R310). -/
def logRefusal (s : State) (place : Nat) (e : LogEntry) : State :=
  onErrors s place fun r =>
    let full := decide (256 ≤ r.log.length)
    { r with refused := sat32 r.refused, overwritten := if full then sat32 r.overwritten else r.overwritten,
             log := (if full then r.log.drop 1 else r.log) ++ [e] }

/-- The position word of the focused tile in a log entry (R310). -/
def logPos (t : Tile) : Nat := t.place.part * 256 + relRow t % 16 * 16 + relCol t % 16

/-- The place that logs a refusal at a handle's storage (R310). -/
def storagePlace (s : State) (e : Entry) : Nat := if e.level = 2 then 16 + (e.space - 2000) else s.cur.id.die

/-- The storage word of R357 with an offset added. -/
def storageWord (e : Entry) (off : Nat) : Word :=
  if e.level = 2 then BitVec.ofNat 64 ((e.space - 2000) * 2 ^ 44 + e.off + off) else BitVec.ofNat 64 (e.off + off)

/-- A refused handle access logged: kind, handle, the state found, the offset (R215, R310). -/
def logHandle (s : State) (e : Option Entry) (h kind off : Nat) : State :=
  let st := match e with | some x => (hstateOf s x).st | none => 0
  let place := match e with | some x => storagePlace s x | none => s.cur.id.die
  let word : Word := (e.map fun x => storageWord x off).getD 0
  logRefusal s place
    { addr := word, ctx := ctxNum s.cur, pos := logPos s.cur, kind := kind + st * 256 + 1024 + h * 65536, time := tscOf s, st := 4 }

/-- A failed store noted in FSTAT and FADDR (R244, R245): scope 0-4, refused or dropped. -/
def failStore (t : Tile) (scope : Nat) (dropped : Bool) (addr : Word) : Tile :=
  let cnt := fld t.csr.fstat 16 8
  let b : Word := 1 <<< (scope + if dropped then 0 else 8)
  let cnt' := if cnt < 255 then cnt + 1 else cnt
  let f := (t.csr.fstat &&& ~~~0xFF0000) ||| b ||| BitVec.ofNat 64 (cnt' * 65536)
  { t with csr := { t.csr with fstat := f, faddr := if cnt = 0 then addr else t.csr.faddr } }

/-- The scope of a storage or of a domain address (R242). -/
def scopeOfLevel (level : Nat) : Nat := level

/-! ## Cistern memory and translation -/

/-- The device field of a domain address (R11). -/
def devField (a : Nat) : Nat := bitsOf a 52 12
/-- The cistern field (R11). -/
def cisField (a : Nat) : Nat := bitsOf a 48 4

/-- A domain address in the command window of its device (R382). -/
def inWindow (a : Nat) : Bool := cisField a == 0 && decide (0xFF0000000000 ≤ bitsOf a 0 48 ∧ bitsOf a 0 48 ≤ 0xFF0000FFFFFF)
/-- The cistern that holds the command window, as a place of error counters (R310, R386). -/
def windowPlace (s : State) : Nat := 16 + s.dev.hw.active.getD 0

/-- The status of an access of a tile to a domain address (R11, R380, R382): 0 done, 1 no such device or cistern, 2 beyond the capacity of
64 GiB, 5 in the command window, whose pages belong to host endpoints. An address of another device of the domain is checked there and not
here. -/
def addrStatus (s : State) (a : Nat) : Nat :=
  if devField a ≠ s.dev.fabric.dev then (if 2048 ≤ devField a ∨ s.dev.fabric.domain ≤ devField a then 1 else 0)
  else if inWindow a then 5
  else if cisField a ∉ s.dev.cisterns ∨ cisField a ∈ s.dev.downC then 1
  else if 2 ^ 36 ≤ bitsOf a 0 48 then 2
  else 0

/-- Whether a domain address lies in a cistern of this device. -/
def ownAddr (s : State) (a : Nat) : Bool := devField a == s.dev.fabric.dev
/-- The scope of a domain address (R242): package or domain. -/
def scopeOfAddr (s : State) (a : Nat) : Nat := if ownAddr s a then 3 else 4

/-- n bytes of cistern memory. -/
def memRead (s : State) (a n : Nat) : List Byte := mread s.dev.mem a n
/-- A poisoned 32-byte word among n bytes at a (R221). -/
def memPoisoned (s : State) (a n : Nat) : Bool := poisonHit s.dev.poison 32 a n
/-- A write to cistern memory; of its bytes no earlier write stands any more (`record` puts the writes of tiles in their order). -/
def memStore (s : State) (a : Nat) (bs : List Byte) : State :=
  { s with dev := { s.dev with mem := mwrite s.dev.mem a bs, poison := poisonCleared s.dev.poison 32 a bs.length,
                               hist := s.dev.hist.filter fun e => !decide (a ≤ e.1 ∧ e.1 < a + bs.length) } }
/-- A little-endian word of cistern memory. -/
def memWord (s : State) (a : Nat) : Nat := leNat (memRead s a 8)

/-- How a translation ends (R218, R219): the domain address with its page size's log2 and leaf permissions, a wait on a migrating
page, or a fault cause. -/
inductive Trans where
  | done (pa : Nat)
  | migrating
  | fault (cause : Nat)
  deriving DecidableEq, Repr

/-- The shift, index width and table alignment of each level (R216). -/
def levelShift (l : Nat) : Nat × Nat × Nat :=
  match l with
  | 0 => (39, 9, 4096) | 1 => (30, 9, 4096) | 2 => (21, 9, 4096) | _ => (16, 5, 256)

/-- One level of a walk and the levels below it; the fuel is the number of levels left (R216-R219). `read` gives the entry of a level at an
address. -/
def walkFrom (s : State) (read : Nat → Nat → Nat) (va : Nat) (needR needW : Bool) : Nat → Nat → Nat → Trans
  | 0, _, _ => .fault 19
  | fuel + 1, l, table =>
    let (sh, iw, al) := levelShift l
    if !ownAddr s table || addrStatus s table ≠ 0 || table % al ≠ 0 then .fault 19
    else
      let e := read l (table + 8 * bitsOf va sh iw)
      if bitsOf e 0 1 = 0 then .fault 20
      else if bitsOf e 7 1 ≠ 0 || bitsOf e 4 2 ≠ 0 then .fault 19
      else
        let a := e / 256 * 256
        if bitsOf e 1 1 = 1 then
          if l = 0 || a % 2 ^ sh ≠ 0 then .fault 19
          else if bitsOf e 6 1 = 1 then .migrating
          else if (needR && bitsOf e 2 1 = 0) || (needW && bitsOf e 3 1 = 0) then .fault 21
          else .done (a + va % 2 ^ sh)
        else if l = 3 then .fault 19
        else walkFrom s read va needR needW fuel (l + 1) a

/-- The translation of a virtual address of a context by a reader of entries (R216-R219). A tile that belongs to no context finds no entry:
a page fault. -/
def translateBy (s : State) (read : Nat → Nat → Nat) (ctx va : Nat) (needR needW : Bool) : Trans :=
  if 2 ^ 48 ≤ va then .fault 19
  else
    match ctxOf s ctx with
    | none => .fault 20
    | some c => walkFrom s read va needR needW 4 0 c.root.toNat

/-- The translation that the page tables give now. -/
def translate (s : State) (ctx va : Nat) (needR needW : Bool) : Trans := translateBy s (fun _ a => memWord s a) ctx va needR needW

/-! ## The walk units (R220) -/

/-- The key of an entry of a level on the way to an address. -/
def walkKey (l va : Nat) : Nat := l * 2 ^ 48 + va / 2 ^ (levelShift l).1

/-- The translation that a die's walk unit gives where it holds entries on the way, which may be old. -/
def translateOld (s : State) (die ctx va : Nat) (needR needW : Bool) : Trans :=
  let unit := ((s.dev.dies[die]?).map Die.walk).getD []
  translateBy s (fun l a =>
    match unit.find? fun e => decide (e.1 = ctx ∧ e.2.1 = walkKey l va) with
    | some e => e.2.2
    | none => memWord s a) ctx va needR needW

/-- The entries on the way to an address. -/
def walkSeen (s : State) (va : Nat) : Nat → Nat → Nat → List (Nat × Nat)
  | 0, _, _ => []
  | fuel + 1, l, table =>
    let e := memWord s (table + 8 * bitsOf va (levelShift l).1 (levelShift l).2.1)
    (walkKey l va, e) :: if bitsOf e 0 2 = 1 then walkSeen s va fuel (l + 1) (e / 256 * 256) else []

/-- A die's walk unit after a walk that has reached its page: 16 Ki entries. -/
def fillUnit (die ctx va : Nat) (s : State) : State :=
  match s.dev.dies[die]?, ctxOf s ctx with
  | some d, some c =>
    let new := (walkSeen s va 4 0 c.root.toNat).map fun e => (ctx, e.1, e.2)
    let old := d.walk.filter fun e => new.all fun n => decide (n.1 ≠ e.1 ∨ n.2.1 ≠ e.2.1)
    putDie s die { d with walk := (new ++ old).take 16384 }
  | _, _ => s

/-- The answers that caches hold and the tables no longer give. -/
def oldAnswers (now : Trans) (held : List Trans) : List Trans := held.filter fun t => decide (t ≠ now)

/-- What an access may take for a translation (R220): what the tables give now, or another answer that a cache still holds; which is free. -/
def chooseTrans (now : Trans) (held : List Trans) (s : State) : Trans :=
  ((oldAnswers now held)[(Config.freeValue s.fresh).toNat % ((oldAnswers now held).length + 1)]?).getD now

/-! ## Records -/

/-- A record as it is written: bytes 2-3 take the count of records discarded before it; a completion record's time is that of its writing
(R277, R278). -/
def stampRecord (timed : Bool) (s : State) (discarded : Nat) (bytes : List Byte) : List Byte :=
  let ovf := if discarded < 65535 then discarded else 65535
  let bytes := if timed then bytes.take 32 ++ leBytes 8 (cisternTsc s 0).toNat ++ bytes.drop 40 else bytes
  bytes.take 2 ++ leBytes 2 ovf ++ bytes.drop 4

/-- A record appended to a ring (R277): into memory when the ring has room, then the tail; else it waits, up to 256 with those that wait
for the context's `other` ring; else it is counted as discarded. -/
def ringPut (timed : Bool) (other : Nat) (s : State) (r : Ring) (bytes : List Byte) : Ring × State :=
  if r.depth = 0 then (r, s)
  else
    let head := memWord s (r.addr.toNat + 8)
    let rec' := stampRecord timed s r.discarded bytes
    if r.tail.toNat < head + r.depth ∧ r.waiting = [] then
      let s1 := memStore s (r.addr.toNat + 64 + 64 * (r.tail.toNat % r.depth)) rec'
      let s2 := memStore s1 r.addr.toNat (leBytes 8 (r.tail.toNat + 1))
      ({ r with tail := r.tail + 1, discarded := 0 }, s2)
    else if r.waiting.length + other < 256 then ({ r with waiting := r.waiting ++ [bytes] }, s)
    else ({ r with discarded := r.discarded + 1 }, s)

/-- Records that waited, written once the host has made room (R277). -/
def ringDrain (timed : Bool) : Nat → State → Ring → Ring × State
  | 0, s, r => (r, s)
  | n + 1, s, r =>
    match r.waiting with
    | [] => (r, s)
    | b :: bs =>
      if r.tail.toNat < memWord s (r.addr.toNat + 8) + r.depth then
        let q := ringPut timed 0 s { r with waiting := [] } b
        ringDrain timed n q.2 { q.1 with waiting := bs }
      else (r, s)

/-- A record to a context's event ring. -/
def eventRecord (c : Nat) (bytes : List Byte) (s : State) : State :=
  match ctxOf s c with
  | none => s
  | some x =>
    let d := ringDrain false 256 s x.events
    let q := ringPut false x.done.waiting.length d.2 d.1 bytes
    putCtx { x with events := q.1 } q.2

/-- A record to a context's completion ring. -/
def doneRecord (c : Nat) (bytes : List Byte) (s : State) : State :=
  match ctxOf s c with
  | none => s
  | some x =>
    let d := ringDrain true 256 s x.done
    let q := ringPut true x.events.waiting.length d.2 d.1 bytes
    putCtx { x with done := q.1 } q.2

/-- A record to the device reply ring: discarded while the ring's address is zero (R383). -/
def replyRecord (bytes : List Byte) (s : State) : State :=
  if s.dev.hw.reply.addr = 0 then s
  else
    let d := ringDrain true 256 s s.dev.hw.reply
    let q := ringPut true 0 d.2 d.1 bytes
    onHw (fun h => { h with reply := q.1 }) q.2

/-- The entry field of R308. An ended node of an earlier replay that holds a prefix has 16 times a number added to its replay, so that the
number itself is free (R276; `retag`). -/
def entryWord (r : NodeRef) : Nat := r.graph * 2 ^ 48 + r.replay % 16 * 2 ^ 40 + r.node * 2 ^ 24 + r.serial

/-- A fault or event record (R308). -/
def faultRecord (type cause flags entry queue part pos cword epc addr time aux : Nat) : List Byte :=
  leBytes 1 type ++ leBytes 1 cause ++ leBytes 2 0 ++ leBytes 4 flags ++ leBytes 8 entry ++ leBytes 1 queue ++ leBytes 1 part ++
    leBytes 1 pos ++ leBytes 5 0 ++ leBytes 8 cword ++ leBytes 8 epc ++ leBytes 8 addr ++ leBytes 8 time ++ leBytes 8 aux

/-- A completion record (R278). -/
def completionRecord (type st entry key value time why : Nat) : List Byte :=
  leBytes 1 type ++ leBytes 1 st ++ leBytes 2 0 ++ leBytes 4 0 ++ leBytes 8 entry ++ leBytes 8 key ++ leBytes 8 value ++
    leBytes 8 time ++ leBytes 8 why ++ leBytes 16 0

/-- A device event of R384 to one context. -/
def deviceEvent (c code aux : Nat) (s : State) : State :=
  eventRecord c (faultRecord 7 code 0 0 0 0 0 0 0 0 (cisternTsc s 0).toNat aux) s

/-- A device event to every context. -/
def deviceEventAll (code aux : Nat) (s : State) : State :=
  s.dev.hw.ctxs.foldl (fun s c => deviceEvent c.num code aux s) s

/-! ## Taking an exception, and faulting a node -/

/-- CAUSE as a fault writes it (R305). -/
def causeWord (f : FaultInfo) : Word :=
  BitVec.ofNat 64 (f.detail % 2 ^ 32 * 2 ^ 32 + f.slot % 8 * 2 ^ 21 + (if f.late then 2 ^ 20 else 0) + f.code % 128 * 2 ^ 13 +
    f.sock % 32 * 2 ^ 8 + f.cause % 256)

/-- The queue byte of a record (R308): die class and priority. -/
def queueByte (n : Node) : Nat := n.cls + 4 * n.prio

/-- A tile told to stop: it issues nothing more and keeps its state (R308). Its copies are cancelled, each counted as received
when it stops (R253, R287). -/
def stopTile (r : Run) (t : Tile) : Tile :=
  { t with run := r, copies := [], net := { t.net with received := t.net.received + BitVec.ofNat 48 t.copies.length } }

/-- Every tile of a node changed. -/
def onNodeTiles (n : Node) (f : Tile → Tile) (s : State) : State :=
  (nodeTiles n).foldl (fun s i => onTile i (onCur f) s) s

/-- The type 1 record of a tile (R308): the cause byte is given, the cause word and EPC are the tile's. -/
def tileRecord (n : Node) (t : Tile) (cause flags : Nat) (addr : Word) (time : Nat) : List Byte :=
  faultRecord 1 cause flags (entryWord n.ref) (queueByte n) t.place.part (relRow t % 16 * 16 + relCol t % 16) t.csr.cause.toNat
    t.csr.epc.toNat addr.toNat time 0

/-- The mains attached to a main. -/
def attachedTo (s : State) (m : Main) : List Main := s.dev.mains.filter fun b => (b.attach.map fun a => a.1 == m.id).getD false
/-- The deepest depth at which a main is attached to (R350). -/
def deepest (s : State) (m : Main) : Nat := (attachedTo s m).foldl (fun d b => max d ((b.attach.map Prod.snd).getD 0)) 0
/-- The first stage that a main runs itself (R342, R344). -/
def runsFrom (m : Main) : Nat := match m.attach with | some a => a.2 | none => 0
/-- A stage's sub-rectangle covers a relative position (R338). -/
def stageCovers (g : StageDecl) (row col : Nat) : Bool :=
  decide (fld g.sub 12 4 ≤ row ∧ row < fld g.sub 12 4 + 2 ^ fld g.sub 5 3 ∧ fld g.sub 8 4 ≤ col ∧ col < fld g.sub 8 4 + 2 ^ fld g.sub 2 3)

/-- The held prefix whose stages a tile runs (R350). -/
def heldPrefix (s : State) (t : Tile) : Option Main :=
  s.dev.mains.find? fun m => !m.bound && decide (some m.node = t.place.node) && m.part == t.place.part &&
    (List.range m.stages.length).any fun j => decide (runsFrom m ≤ j ∧ j < deepest s m) &&
      match m.stages[j]? with | some g => stageCovers g (relRow t) (relCol t) | none => false

/-- The context that a tile's records go to: a held prefix belongs to its owner (R350). -/
def recordCtx (s : State) (t : Tile) (n : Node) : Nat := match heldPrefix s t with | some m => m.owner | none => n.ref.ctx

/-- The context whose entries a node's fault freezes: the owner's where only held prefixes of an ended node are left (R350). -/
def frozenCtx (s : State) (n : Node) : Nat :=
  if n.state = .ended then ((s.dev.mains.find? fun m => decide (m.node = n.ref) && !m.bound).map Main.owner).getD n.ref.ctx
  else n.ref.ctx

/-- A child's completion goes to its parent, as a status (R279, R302). -/
def queueCompletion (n : Node) (st : Nat) (s : State) : State :=
  match n.parent with
  | some p => onHw (fun h => { h with completions := h.completions ++ [{ p with st := st, child := n.ref }] }) s
  | none => s

/-- A tile of a faulted node stops (R308): one that has still to take its turn of the cycle of the fault takes it, and may fault in the
same cycle; every other stops at once. -/
def leaveNode (now : Nat) (t : Tile) : Tile :=
  if t.wheel = now ∧ t.run ≠ .stopped then let t := stopTile t.run t; { t with ctl := { t.ctl with leaving := true } }
  else stopTile .stopped t

/-- A node faulted (R308): its tiles stop, its queue stops handing out the context's entries, the node is faulted and its cut or
drain is abandoned; one that has ended and only holds a prefix stays ended (R350). The records are the caller's. -/
def faultNodeQuiet (n : Node) (s : State) : State :=
  let c := frozenCtx s n
  let now := s.cur.wheel
  let s := onNodeTiles n (leaveNode now) s
  let state := if n.state = .ended then NodeState.ended else .faulted
  let s := putNode { n with state := state, stopping := none, target := none, saving := none } s
  let s := if n.state = .ended ∨ n.state = .faulted then s else queueCompletion n 2 s
  onHw (fun h => { h with frozenQ := (c, n.cls, n.prio) :: h.frozenQ.filter fun q => decide (q ≠ (c, n.cls, n.prio)) }) s

/-- The mains among `ms` with an identifier in `ids`, and those attached to them, directly or through other attachments (R352); the fuel
bounds the length of a chain. -/
def attachedFrom (ms : List Main) : Nat → List Nat → List Nat
  | 0, ids => ids
  | k + 1, ids =>
    let more := (ms.filter fun m => decide (m.id ∉ ids) && (m.attach.map fun a => decide (a.1 ∈ ids)).getD false).map Main.id
    attachedFrom ms k (ids ++ more)

/-- The other nodes that a node's fault takes with it: those that hold a main attached to one of its mains, directly or through other
attachments, held prefixes included (R352). -/
def attachedNodes (s : State) (r : NodeRef) : List NodeRef :=
  let ms := s.dev.mains
  let ids := attachedFrom ms ms.length ((ms.filter fun m => decide (m.node = r)).map Main.id)
  ((ms.filter fun m => decide (m.id ∈ ids ∧ m.node ≠ r)).map Main.node).eraseDups

/-- A node faulted with all that follows (R308, R352): its own record is written by `own`, every attached node that has not faulted is
faulted in its own context with the cause and address of the fault, and their mains are no candidates any more (R354). -/
def faultNode (n : Node) (cause : Nat) (addr : Word) (own : State → State) (s : State) : State :=
  let time := (tscOf s).toNat
  let others := attachedNodes s n.ref
  let s := own (faultNodeQuiet n s)
  let s := others.foldl (fun s r =>
    match nodeOf s r with
    | none => s
    | some m =>
      if m.state = .faulted then s
      else eventRecord (frozenCtx s m) (faultRecord 1 cause 1 (entryWord r) (queueByte m) 0 0 0 0 addr.toNat time 0) (faultNodeQuiet m s)) s
  { s with dev := { s.dev with mains := s.dev.mains.map fun m =>
      if m.node = n.ref ∨ m.node ∈ others then { m with faulted := true } else m } }

/-- Fault the focused tile's node (R308) with the tile's record. A tile without a node just stops. -/
def faultCurNode (cause : Nat) (addr : Word) (s : State) : State :=
  let s := onCur (stopTile .stopped) s
  match curNode s with
  | none => s
  | some n =>
    let t := s.cur
    let owner := recordCtx s t n
    let time := (tscOf s).toNat
    faultNode n cause addr (eventRecord owner (tileRecord n t cause 1 addr time)) s

/-- Capture every free-running result in flight, with its remaining latency, and the pending FMT writes (R99, R73). -/
def capture (t : Tile) : Tile :=
  let caught := t.socks.flatMap fun e => e.2.y.flatMap fun p => p.2.flight.map fun o => { sock := e.1, port := p.1, op := o }
  let socks := t.socks.map fun e => (e.1, { e.2 with y := e.2.y.map fun p => (p.1, { p.2 with flight := [] }) })
  { t with socks := socks, ctl := { t.ctl with captured := t.ctl.captured ++ caught, capturedFmt := t.ctl.capturedFmt ++ t.ctl.fmtPending, fmtPending := [] } }

/-- Re-arm what a fault captured, as the bundle after the return is about to issue (R99, R73). -/
def rearm (t : Tile) : Tile :=
  let t1 := t.ctl.captured.foldl (fun t c =>
    let k := sockOf t c.sock
    let p := portOf k c.port
    putSock t c.sock (putPort k c.port { p with flight := p.flight ++ [c.op] })) t
  { t1 with ctl := { t1.ctl with captured := [], fmtPending := t1.ctl.fmtPending ++ t1.ctl.capturedFmt, capturedFmt := [], rearms := false } }

/-- The registers of a trap entry (R116): EPC, CAUSE, STATUS.ppriv and priv, PC. -/
def enterSystem (f : FaultInfo) (pc : Nat) (w : Bool) (t : Tile) : Tile :=
  let t := { t with csr := { t.csr with epc := BitVec.ofNat 64 (pc % 8192 + if w then 65536 else 0), cause := causeWord f } }
  let t := putStatus t 1 (isSystem t)
  let t := putStatus t 0 true
  { t with pc := 0, run := .go, ctl := { t.ctl with controlOnly := false, split := none, rearms := false } }

/-- The tile waits in the trap runtime for its node's owner, to whom its record goes (R309). -/
def askOwner (f : FaultInfo) (s : State) : State :=
  let wait := onCur fun t => { t with run := .owner, ctl := { t.ctl with owner := some f } }
  match curNode s with
  | none => wait s
  | some n => eventRecord (recordCtx s s.cur n) (tileRecord n s.cur f.cause 0 f.addr (tscOf s).toNat) (wait s)

/-- The node of the focused tile has not faulted. -/
def nodeStands (s : State) : Bool := match curNode s with | some n => n.state != .faulted | none => true

/-- A fault of a tile of a checked pair is held until it shows whether the partner faults too (R311). In the held fault `late` marks a
double fault. -/
def holdFault (f : FaultInfo) (double : Bool) (s : State) : State :=
  onCur (fun t => let t := stopTile .stopped t; { t with ctl := { t.ctl with late := [{ f with late := double }] } }) s

/-- What follows entry (R306): disposition O asks the owner (R309), S is served by the trap runtime, N faults the node (R308); on a
checked tile the fault is held first (R311). -/
def dispose (f : FaultInfo) (s : State) : State :=
  if f.cause = 33 ∧ Config.isService f.detail then s
  else if f.cause = 32 ∧ Config.debuggerHolds (tileIndex s.cur.id) s.fresh then { s with fresh := s.fresh + 1 }
  else if bit s.cur.csr.status 7 && nodeStands s then holdFault f false s
  else if f.cause = 20 ∨ f.cause = 21 then askOwner f s
  else faultCurNode f.cause f.addr s

/-- A fault at system privilege (R116, R307): CAUSE and EPC keep the first entry's values, the tile stops, and its node is faulted with the
second cause; on a checked tile it is held first (R311). -/
def doubleFault (f : FaultInfo) (s : State) : State :=
  if bit s.cur.csr.status 7 && nodeStands s then holdFault f true s else faultCurNode f.cause f.addr (onCur (stopTile .stopped) s)

/-- Take an exception (R116): a synchronous fault inside a bundle captures the free-running pipelines (R99); the registers of
R116 change; then the disposition of R306. At system privilege it is a double fault. -/
def takeException (f : FaultInfo) (pc : Nat) (w inBundle : Bool) (s : State) : State :=
  let s := if inBundle then onCur capture s else s
  if isSystem s.cur then doubleFault f s else dispose f (onCur (enterSystem f pc w) s)

/-- Return from an exception (R116): PC and privilege; the captured pipelines are re-armed when the bundle at EPC.pc issues (R99); EPC.w
makes that bundle do its control operation alone. -/
def returnException (t : Tile) : Tile :=
  let t := putStatus t 0 (bit t.csr.status 1)
  { t with pc := BitVec.ofNat 13 (fld t.csr.epc 0 13), run := .go, ctl := { t.ctl with controlOnly := bit t.csr.epc 16, owner := none, rearms := true } }

end Sys2Proof.Machine
end

