-- ==== Sys2Proof/Machine/Quant.lean ====
section
/-!
DEFINITION. Machine/Quant.lean: the quantiser as data (R200-R206): blocks, scales, the units it fills, and the effect of its operations.
-/
namespace Sys2Proof.Machine

/-- The quantiser has work in flight. -/
def Quant.busy (q : Quant) : Bool := !q.queue.isEmpty || !q.units.isEmpty || q.flush.isSome

/-- n bits of a number appended. -/
def BitBuf.push (b : BitBuf) (n x : Nat) : BitBuf := { val := b.val + x % 2 ^ n * 2 ^ b.len, len := b.len + n }
/-- A full unit taken off. -/
def BitBuf.full (b : BitBuf) : Option (Vec × BitBuf) :=
  if 512 ≤ b.len then some (toVec (b.val % 2 ^ 512), { val := b.val / 2 ^ 512, len := b.len - 512 }) else none

/-- Full units move to the list of units that wait for their streams (R206). -/
def emitUnits (q : Quant) : Quant :=
  let q := match q.codes.full with
    | some (v, r) => { q with codes := r, units := q.units ++ [(q.fe, v)] }
    | none => q
  let q := match q.marks.full with
    | some (v, r) => { q with marks := r, units := q.units ++ [(q.fb, v)] }
    | none => q
  match q.scales.full with
  | some (v, r) => { q with scales := r, units := q.units ++ [(q.fs, v)] }
  | none => q

/-- The scale of the pending block (R204). -/
def blockScale (q : Quant) : Int :=
  let h : Int := if q.t6 then 3 else 11
  let of := fun (hi lo : Int) => max ((hi + lo) / 2) (hi - h)
  let e := match q.bound with
    | some b => match b.expo with
      | some x => of x (x - q.tau)
      | none => 0
    | none => match q.emax, q.emin with
      | some hi, some lo => of hi lo
      | _, _ => 0
  saturate e (-128) 127

/-- A value saturates at a scale (R204). -/
def saturates (t6 : Bool) (e : Int) (v : Num) : Bool :=
  match v with
  | .nan => false
  | .inf _ => true
  | .fin _ m x => (decodeTapered t6 (taperedTop t6) 0).lt (.fin false m (x - e))

/-- One value of a closing block. -/
def pushCode (e : Int) (q : Quant) (v : Num) : Quant :=
  emitUnits { q with codes := q.codes.push (if q.t6 then 6 else 8) (encodeTapered q.t6 v e),
                     sat := q.sat + if saturates q.t6 e v then 1 else 0 }

/-- Close the pending block (R204). -/
def closeBlock (q : Quant) : Quant :=
  if q.pending = [] then q
  else
    let e := blockScale q
    let q := q.pending.foldl (pushCode e) q
    emitUnits { q with scales := q.scales.push 8 (wrapInt 8 e), blocks := q.blocks + 1, pending := [], emax := none, emin := none,
                       bound := none }

/-- Fold e(v) into the range of a measured block. -/
def foldRange (q : Quant) (v : Num) : Quant :=
  match q.bound, v.expo with
  | none, some e =>
    { q with emax := some (match q.emax with | some x => max x e | none => e),
             emin := some (match q.emin with | some x => min x e | none => e) }
  | _, _ => q

/-- A measured block would exceed the threshold with v (R203). -/
def overRange (q : Quant) (v : Num) : Bool :=
  match q.bound, v.expo, q.emax, q.emin with
  | none, some e, some hi, some lo => decide ((q.tau : Int) < max hi e - min lo e)
  | _, _, _, _ => false

/-- Append one value (R203). -/
def appendValue (q : Quant) (v : Num) : Quant :=
  let i := q.elems
  let q := if q.pending ≠ [] ∧ (i % 256 = 0 ∨ q.pending.length = 64) then closeBlock q
    else if q.pending ≠ [] ∧ overRange q v then closeBlock q else q
  let opens := decide (q.pending = [])
  let q := if opens then
      (match q.ranges with
       | r :: rs => { q with bound := r, ranges := rs }
       | [] => { q with bound := none })
    else q
  let q := foldRange { q with pending := q.pending ++ [v] } v
  emitUnits { q with marks := q.marks.push 1 (if opens then 1 else 0), elems := i + 1 }

/-- The last, padded units of the three streams (R206). -/
def lastUnits (q : Quant) : Quant :=
  let one := fun (f : Nat) (b : BitBuf) => if b.len = 0 then [] else [(f, toVec b.val)]
  let z : BitBuf := { val := 0, len := 0 }
  { q with units := q.units ++ one q.fe q.codes ++ one q.fb q.marks ++ one q.fs q.scales, codes := z, marks := z, scales := z }

/-- The bound of an interval lane (R205). -/
def rangeOf (l : Ivl) : Option Num :=
  match l with
  | .set lo hi => if lo.isFin && hi.isFin then some (if lo.abs.le hi.abs then hi.abs else lo.abs) else none
  | .empty _ => none

/-- The effect of one operation on the quantiser, its units listed (R202-R206). -/
def qntEffect (q : Quant) (o : QntOp) : Quant :=
  let q := { q with last := (o.code, o.slot) }
  match o.code with
  | 8 => ((List.range (fld o.a 0 7)).map fun l => decodeFloat o.vf (lane (floatBits o.vf) l o.b)).foldl appendValue q
  | 9 =>
    let q := lastUnits (closeBlock q)
    { q with flush := some { rem := 4, serial := o.serial, elems := q.elems, blocks := q.blocks, sat := q.sat }, elems := 0, blocks := 0,
             sat := 0, ranges := [] }
  | 10 => { q with ranges := q.ranges ++ (List.range (fld o.a 0 5)).map fun l => rangeOf (ivlLane o.b l) }
  | _ =>
    { q with tau := fld o.b 0 5, t6 := bit o.b 8, fe := fld o.b 12 4, fb := fld o.b 16 4, fs := fld o.b 20 4, configured := true }

/-- The quantiser as the operations triggered so far leave it (R200: in trigger order). -/
def plannedQuant (q : Quant) : Quant := q.queue.foldl qntEffect q

/-- A tensor is open (R201). -/
def Quant.isOpen (q : Quant) : Bool := q.elems != 0 || !q.ranges.isEmpty


end Sys2Proof.Machine
end

