-- ==== Sys2Proof/Machine/Operands.lean ====
section
/-!
DEFINITION. Machine/Operands.lean: every operand form of a move: the sources of R37 with hold and peek, streams (R229-R231),
the gm access word (R233), queues (R270, R297), the destinations of R38, and a move run as a bundle of its own.
-/
namespace Sys2Proof.Machine

/-! ## FMT fields (R70) -/

/-- The position and width of an FMT field by its number (R34, R70). -/
def fmtField (f : Nat) : Nat × Nat :=
  match f with
  | 0 => (0, 2) | 1 => (4, 2) | 2 => (8, 3) | 3 => (12, 3) | 4 => (16, 2) | _ => (20, 2)

/-- An FMT field as an operation triggered now reads it. -/
def fmtOf (t : Tile) (f : Nat) : Nat := let q := fmtField f; fld t.csr.fmt q.1 q.2
/-- FMT with one field replaced. -/
def setFmt (w : Word) (f v : Nat) : Word :=
  let q := fmtField f
  (w &&& ~~~(BitVec.ofNat 64 ((2 ^ q.2 - 1) * 2 ^ q.1))) ||| BitVec.ofNat 64 (v % 2 ^ q.2 * 2 ^ q.1)

/-! ## Streams (R229-R231) -/

/-- The number of elements of a walk (R230). -/
def walkLen (st : Stream) : Nat := st.counts.foldl (· * ·) 1

/-- The walk's element i as byte offset in the handle, dimension 0 innermost (R230). -/
def walkOff (e : Nat) : List Nat → List Int → Nat → Int
  | n :: ns, s :: ss, i => (e : Int) * ((i % n : Nat) * s) + walkOff e ns ss (i / n)
  | _, _, _ => 0

/-- The byte offset of element i. -/
def elemOff (st : Stream) (i : Nat) : Int := st.base + walkOff (sizeOf st.esz) st.counts st.strides i

/-- Whether element i lies inside its handle and is aligned to min(e, 64) (R230). -/
def elemOk (t : Tile) (st : Stream) (i : Nat) : Bool :=
  let o := elemOff st i
  let e := sizeOf st.esz
  match tfind t.table st.h with
  | none => false
  | some h => decide (0 ≤ o ∧ o.toNat + e ≤ h.size ∧ o.toNat % min e 64 = 0)

/-- The width in bits of a matrix operand format (R52, R182). -/
def mxBits (f : Nat) : Nat := if f = 2 ∨ f = 4 then 8 else if f = 3 then 6 else 16
/-- T8 or T6, which travel with a bitmap and scales (R60). -/
def mxTapered (f : Nat) : Bool := f == 2 || f == 3
/-- K and S of a plane layout (R179). -/
def layoutK (l : Nat) : Nat := if l = 0 then 64 else if l = 3 then 128 else 256
/-- Stored weights per column (R179). -/
def layoutS (l : Nat) : Nat := if l = 1 then 32 else 64

/-- Weight loads (R183). -/
def MxOp.isLoad (o : MxOp) : Bool := o.code == 8 || o.code == 16
/-- Array operations (R187). -/
def MxOp.isArray (o : MxOp) : Bool := o.code == 10 || o.code == 11 || o.code == 15

/-- The element count of an operation's element stream (R182). For an array operation `sp` holds the plane's layout. -/
def MxOp.elems (o : MxOp) : Nat :=
  if o.code = 8 then fld o.desc 0 7 * 64
  else if o.code = 16 then fld o.desc 0 7 * layoutS o.sp
  else fld o.desc 4 7 * layoutK o.sp

/-- The format of an operation's elements. -/
def MxOp.fmt (o : MxOp) : Nat := if o.isLoad then o.mw else o.ma

/-- The stream fields fe, fb, fs, fi of an operation (R183, R187). -/
def MxOp.fields (o : MxOp) : Nat × Nat × Nat × Nat :=
  if o.isLoad then (fld o.desc 8 4, fld o.desc 12 4, fld o.desc 16 4, fld o.desc 20 4)
  else (fld o.desc 20 4, fld o.desc 24 4, fld o.desc 28 4, 0)

/-- The units taken so far from a stream. -/
def MxOp.got (o : MxOp) (f : Nat) : List Vec := tget [] o.taken f

/-- The number of blocks that the bitmap units taken so far show among the first n elements (R60). -/
def bitmapOnes (us : List Vec) (n : Nat) : Nat := popCount n (packNat 512 (us.map BitVec.toNat))

/-- The streams an operation uses, with the units it takes from each (R182), and whether that number is final: until the whole bitmap is
taken, the scale units are those of the blocks that the bits taken so far show. -/
def MxOp.needs (o : MxOp) : List (Nat × Nat × Bool) :=
  let (fe, fb, fs, fi) := o.fields
  if !o.isLoad && !o.isArray then []
  else if o.code = 15 then [(fe, 4 * fld o.desc 4 7, true), (fb, 4 * fld o.desc 4 7, true)]
  else
    let n := o.elems
    let bm := ceilDiv n 512
    [(fe, ceilDiv (n * mxBits o.fmt) 512, true)] ++
      (if mxTapered o.fmt then
        [(fb, bm, true), (fs, ceilDiv (bitmapOnes (o.got fb) n) 64, decide (bm ≤ (o.got fb).length))]
       else []) ++
      (if o.code = 16 then [(fi, ceilDiv (n * 3) 512, true)] else [])

/-- An operation still has units of a stream to take. -/
def MxOp.wants (o : MxOp) (f : Nat) : Bool := o.needs.any fun q => q.1 == f && (!q.2.2 || decide ((o.got f).length < q.2.1))

/-- An operation can tell that the next unit of a stream is its own. -/
def MxOp.mayTake (o : MxOp) (f : Nat) : Bool := o.needs.any fun q => q.1 == f && decide ((o.got f).length < q.2.1)

/-- The mx operations in flight, in trigger order is not needed here. -/
def Mx.inFlight (m : Mx) : List MxOp := m.loader.toList ++ m.array.toList ++ m.queue

/-- An mx or qnt operation in flight has units of the stream still to take or write (R181); the quantiser's are those that its operations
triggered so far fill. -/
def streamHeld (t : Tile) (f : Nat) : Bool :=
  (t.mx.inFlight.any fun o => o.wants f) || (plannedQuant t.qnt).units.any fun u => u.1 == f

/-- A stream fault: cause 18, the stream as detail (R229-R232). -/
def streamFault (sock code slot f : Nat) : FaultInfo := mkFault 18 sock code slot f

/-- Read a stream by a move (R231): the head element, taken unless peeked. -/
def readStream (t : Tile) (slot f : Nat) (peek : Bool) : Res (Vec × Tile) :=
  match tfind t.streams f with
  | none => .fault (streamFault 0 0 slot f)
  | some st =>
    if st.write then .fault (streamFault 0 0 slot f)
    else if streamHeld t f then .freeze
    else if walkLen st ≤ st.moved then .fault (streamFault 0 0 slot f)
    else
      match st.buf with
      | [] => .freeze
      | (v, cause) :: rest =>
        if cause = 18 then .fault (streamFault 0 0 slot f)
        else if cause ≠ 0 then .fault (mkFault cause 0 0 slot (if cause = 15 then st.h else 0))
        else if peek then .ok (v, t)
        else .ok (v, { t with streams := tput t.streams f { st with buf := rest, moved := st.moved + 1 } })

/-- Write a stream by a move (R230, R231): the low e bytes of the value join the queue. -/
def writeStream (t : Tile) (slot f : Nat) (v : Vec) : Res Tile :=
  match tfind t.streams f with
  | none => .fault (streamFault 0 0 slot f)
  | some st =>
    if !st.write then .fault (streamFault 0 0 slot f)
    else if streamHeld t f then .freeze
    else if walkLen st ≤ st.moved then .fault (streamFault 0 0 slot f)
    else if !elemOk t st st.moved then .fault (streamFault 0 0 slot f)
    else if st.stopped then .ok { t with streams := tput t.streams f { st with moved := st.moved + 1 } }
    else if 8 ≤ st.buf.length then .freeze
    else
      let x := toVec (v.toNat % 2 ^ (8 * sizeOf st.esz))
      .ok { t with streams := tput t.streams f { st with buf := st.buf ++ [(x, 0)], moved := st.moved + 1 } }

/-! ## The gm access word (R233) and the accesses that wait on one another (R243, R259) -/

/-- va. -/
def gmVa (w : Word) : Nat := fld w 0 48
/-- sz. -/
def gmSz (w : Word) : Nat := fld w 48 3
/-- scope. -/
def gmScope (w : Word) : Nat := fld w 52 3
/-- ord. -/
def gmOrd (w : Word) : Nat := fld w 56 2
/-- fx. -/
def gmFx (w : Word) : Nat := fld w 58 6
/-- The element bytes of a reduction. -/
def redBytes (w : Word) : Nat := if gmSz w = 0 then 4 else 2

/-- An operation on reduction cells. -/
def GmReq.isRed (r : GmReq) : Bool := r.code == 16 || r.code == 17 || r.code == 18
/-- A fence. -/
def GmReq.isFence (r : GmReq) : Bool := r.code == 19
/-- A gather or scatter. -/
def GmReq.isList (r : GmReq) : Bool := r.code == 20 || r.code == 21
/-- A store or fred, which has no result. -/
def GmReq.posted (r : GmReq) : Bool := r.code == 9 || r.code == 11 || r.code == 13 || r.code == 16 || r.code == 21
/-- Whether an access writes a memory or a cell. -/
def GmReq.writes (r : GmReq) : Bool := r.posted || r.code == 14 || r.code == 15 || r.code == 17 || r.code == 18
/-- The path of an access (R242): 0 LS, 2 RD. -/
def GmReq.path (r : GmReq) : Nat := if r.isRed then 2 else 0
/-- An acquire (R260). -/
def GmReq.acquire (r : GmReq) : Bool := r.code == 10 || ((r.code == 14 || r.code == 15) && gmOrd r.word % 2 == 1)
/-- A release (R260). -/
def GmReq.release (r : GmReq) : Bool := r.code == 11 || ((r.code == 14 || r.code == 15) && decide (2 ≤ gmOrd r.word))
/-- The element or access size in bytes. -/
def GmReq.size (r : GmReq) : Nat :=
  if r.code = 12 ∨ r.code = 13 then 128 else if r.isRed then redBytes r.word else sizeOf (gmSz r.word)
/-- Where in the value the bytes of a lane stand; a lane of a plain access is a piece, named by its first byte. -/
def GmReq.posOf (r : GmReq) (q : Nat × Nat) : Nat := if r.isList || r.isRed then q.1 * r.size else q.1
/-- The bytes of a lane: an element, or a piece up to the next 32-byte sector (R235). -/
def GmReq.lenOf (r : GmReq) (q : Nat × Nat) : Nat := if r.isList || r.isRed then r.size else min (r.size - q.1) (32 - q.2 % 32)
/-- The scope of an access: that of the farthest storage it reaches (R242). -/
def GmReq.scope (s : State) (r : GmReq) : Nat := r.lanes.foldl (fun m q => max m (scopeOfAddr s q.2)) 3
/-- Two accesses touch a common location (R256: a byte, or a cell). -/
def GmReq.meets (e g : GmReq) : Bool :=
  e.lanes.any fun x => g.lanes.any fun y => decide (x.2 < y.2 + g.lenOf y ∧ y.2 < x.2 + e.lenOf x)
/-- A fence names a path (R243: bit 0 LS, 1 CP, 2 RD, 3 NT). -/
def GmReq.fences (r : GmReq) (path : Nat) : Bool := r.isFence && bit (BitVec.ofNat 6 (gmFx r.word)) path

/-- A fence that the tile issued before an access of a path has not completed. -/
def fenceHolds (t : Tile) (path serial : Nat) : Bool := t.gm.any fun e => decide (e.serial < serial) && e.fences path
/-- An acquire issued before an access of LS has not been performed (R259). -/
def acquireHolds (t : Tile) (serial : Nat) : Bool := t.gm.any fun e => decide (e.serial < serial) && e.acquire && !e.performed
/-- A tt operation triggered before an access of a handle has not taken effect (R355); a halloc that chooses its number may choose
any. -/
def ttHolds (t : Tile) (h serial : Nat) : Bool :=
  t.tt.any fun o => decide (o.serial < serial) && (fld o.b 0 10 == h || (o.code == 8 && bit o.b 15))

/-- A fence of LS names the elements moves had written to a stream before it; later ones wait (R243). -/
def fenceLimit (t : Tile) (f : Nat) : Option Nat :=
  (t.gm.find? fun e => e.fences 0).map fun e => ((e.lanes.find? fun q => q.1 == f).map Prod.snd).getD 0

/-! ## Queues (R270, R297) -/

/-- The first byte of a tile's spillway in its cluster's slice (R416). -/
def spillBase (i : TileId) : Nat := 0x700000 + 0x10000 * ringPos i
/-- Where in the slice an element of a tile's spillway lies, 128 bytes each (R297). -/
def spillOffset (i : TileId) (e : Nat × Vec) : Nat := spillBase i + 128 * (e.1 / 4)
/-- Elements of a queue held in the spillway. -/
def spillCount (t : Tile) (q : Nat) : Nat := (t.net.spill.filter fun e => e.1 % 4 == q).length
/-- An element put into the spillway behind the others, at the lowest place that is free (log 19). -/
def spillIn (q : Nat) (v : Vec) (t : Tile) : Tile :=
  let k := ((List.range 512).find? fun i => t.net.spill.all fun e => e.1 / 4 != i).getD 0
  { t with net := { t.net with spill := t.net.spill ++ [(4 * k + q, v)] } }

/-- The oldest spillway element of a queue enters it while it has room (R297). -/
def refill (t : Tile) (q : Nat) : Tile :=
  let cur := tget [] t.net.q q
  match t.net.spill.find? fun e => e.1 % 4 == q with
  | none => t
  | some e =>
    if cur.length < 16 then
      { t with net := { t.net with q := tset [] t.net.q q (cur ++ [e.2]), spill := t.net.spill.erase e } }
    else t

/-- Read a receive queue (R270): freeze while it is empty. -/
def readQueue (t : Tile) (q : Nat) (peek : Bool) : Res (Vec × Tile) :=
  match tget [] t.net.q q with
  | [] => .freeze
  | v :: rest =>
    if peek then .ok (v, t)
    else .ok (v, refill { t with net := { t.net with q := tset [] t.net.q q rest } } q)

/-- Read the completion queue (R270). -/
def readCq (t : Tile) (peek : Bool) : Res (Vec × Tile) :=
  match t.net.cq with
  | [] => .freeze
  | w :: rest => if peek then .ok (wordVec w, t) else .ok (wordVec w, { t with net := { t.net with cq := rest } })

/-! ## Result ports (R92, R95, R98) -/

/-- Read a result port: a data-locked result is taken, oldest first; a pending one freezes; a free-running value stays and counts
as read. With STC.en a read before an operation in flight is due is an undersized-count fault (R98). -/
def readPort (t : Tile) (slot sock y : Nat) : Res (Vec × Tile) :=
  let k := sockOf t sock
  let p := portOf k y
  match p.fifo with
  | r :: rest => if r.due = .ready then .ok (r.val, putSock t sock (putPort k y { p with fifo := rest })) else .freeze
  | [] =>
    if sockFree t sock then
      if bit t.csr.stc 0 && !p.flight.isEmpty then .fault (mkFault 8 sock 0 slot 0)
      else .ok (p.val, putSock t sock (putPort k y { p with unread := false }))
    else .fault (mkFault 7 sock 0 slot y)

/-! ## Moves -/

/-- Read the source of a firing move (R37, R40, R42). An immediate is sign-extended to 64 bits. -/
def readSrc (t : Tile) (slot : Nat) (x : Src) : Res (Vec × Tile) :=
  match x with
  | .reg r _ => .ok (readReg t r, t)
  | .port k y _ => readPort t slot k.toNat y.toNat
  | .imm v => .ok (wordVec (v.signExtend 64), t)
  | .lit v => .ok (wordVec v, t)
  | .stream f pk _ => readStream t slot f.toNat pk
  | .recvq q pk _ => readQueue t q.toNat pk
  | .cq pk _ => readCq t pk

/-- Set an operand port (R38, R92). A hold latches in data-locked mode only: in free-running mode the move is a plain move (R93). -/
def setOperand (t : Tile) (sock o : Nat) (v : Vec) (held : Bool) : Tile :=
  let k := sockOf t sock
  putSock t sock { k with o := tput k.o o { val := v, held := held && !sockFree t sock } }

/-- The sockets a move names: its source port's and its destination's. -/
def namedSockets (i : Instr) : List Nat :=
  (match i.move with
   | some (_, .port k _ _) => [k.toNat]
   | _ => []) ++
  (match i.trigger with | some q => [q.1] | none => []) ++
  (match i with | .moveToOperand _ _ k _ => [k.toNat] | _ => [])

/-- The physical instance that a socket of a tile is bound to, by the slot-to-engine map (R316); 32 for absent. Where no test result
changed the map, a socket has its own instance, and on SG9-H va1 has va0's (R155). -/
def engineOf (s : State) (i : TileId) (sock : Nat) : Nat :=
  match tfind (dieOf s i).engines ((i.row * 16 + i.col) * 32 + sock) with
  | some e => e
  | none => if sock = 5 ∧ s.dev.variantH then 4 else sock

/-- A move that names a socket which the slot-to-engine map leaves absent (R49, R316). -/
def namesAbsent (s : State) (i : Instr) : Bool := (namedSockets i).any fun k => engineOf s s.cur.id k == 32

/-- A move that is no legal encoding (R49). -/
def moveIllegal (s : State) (i : Instr) : Bool := !i.wf || namesAbsent s i

/-- The ports of a socket that becomes free-running (R94): the oldest unread result is kept, the others go. A result that the writing
bundle itself has put under way keeps the data-locked rules of its trigger (log 7). -/
def freePort (p : Port) : Port :=
  let later := p.fifo.filter fun r => decide (r.due ≠ .ready)
  match p.fifo.find? fun r => decide (r.due = .ready) with
  | none => p
  | some r => { p with fifo := later, val := r.val, unread := true }

/-- The ports of a socket that becomes data-locked (R94): the free-running value goes. DESIGN CHOICE (log 7): unread results of L
operations, which follow the data-locked rules already (R95), stay in the port's queue, and free-running operations that the writing
bundle itself started come due as data-locked ones. -/
def lockPort (p : Port) : Port :=
  { fifo := p.fifo ++ p.flight.map fun o => { due := .cycles o.rem, val := o.val, narrowed := o.narrowed }, val := 0, unread := false,
    flight := [] }

/-- A SOCKMODE value takes effect (R94). -/
def applyMode (t : Tile) (m : Word) : Tile :=
  let change := fun (e : Nat × Socket) =>
    if bit t.csr.sockmode e.1 == bit m e.1 then e
    else (e.1, { e.2 with y := (e.2.y.map fun p => (p.1, if bit m e.1 then freePort p.2 else lockPort p.2)).filter fun p => decide (p.2 ≠ Port.reset) })
  let socks := (t.socks.map change).filter fun e => decide (e.2 ≠ Socket.reset)
  { t with csr := { t.csr with sockmode := m }, socks := socks, ctl := { t.ctl with mode := none } }

/-- What a bundle's moves leave for its end: the SOCKMODE value they wrote applies from the next bundle (R94). -/
def endMoves (t : Tile) : Tile := match t.ctl.mode with | some m => applyMode t m | none => t

/-- The traps that a bundle raised are taken (R112, R127, R116): the first enters system privilege, a second is a double fault. -/
def takeTraps (pc : Nat) (w : Bool) (s : State) : State :=
  s.cur.ctl.traps.foldl (fun s f => takeException f pc w false s) (onCur (fun t => { t with ctl := { t.ctl with traps := [] } }) s)

/-- The state that the outcome of a move's own bundle leaves (R50, R96, R127): a freeze and a drain wait mark the tile, a fault is
taken at the bundle, an ecall after it. -/
def settle (s : State) (r : Res State) : State :=
  match r with
  | .ok s' => takeTraps (s'.cur.pc.toNat + 1) false (onCur endMoves s')
  | .freeze => onCur (fun t => { t with run := .frozen }) s
  | .drain => onCur (fun t => { t with run := .drain }) s
  | .fault f => takeException f s.cur.pc.toNat false true s

/-- What a firing move does with its value: the slot, the hold modifier, the value. -/
abbrev Fire := Nat → Bool → Vec → State → Res State

/-- A move as the one move of a bundle, in slot 1 (R36, R42, R49): a move that is no legal encoding raises the fault whatever
its guard; one that does not fire has no effect. -/
def runMove (i : Instr) (g : Guard) (x : Src) (f : Fire) (s : State) : Host.Outcome State Fault Refusal :=
  if moveIllegal s i then .next (settle s (.fault (mkFault 1 0 0 1 0)))
  else if !guardFires s.cur g then .next s
  else .next (settle s ((readSrc s.cur 1 x).bind fun r => f 1 x.hold r.1 { s with cur := r.2 }))

/-- Phase 4 of a register write. -/
def fireRegister (r : Reg) : Fire := fun _ _ v s => .ok (onCur (fun t => writeReg t r v) s)
/-- Phase 4 of a stream write. -/
def fireStream (f : BitVec 4) : Fire := fun slot _ v s => (writeStream s.cur slot f.toNat v).bind fun t => .ok { s with cur := t }
/-- Phase 2: an operand port. -/
def fireOperand (k : BitVec 5) (o : BitVec 2) : Fire := fun _ held v s => .ok (onCur (fun t => setOperand t k.toNat o.toNat v held) s)

/-- MOVE_TO_REGISTER (R42). -/
def execMoveToRegister (g : Guard) (x : Src) (r : Reg) (s : State) : Host.Outcome State Fault Refusal :=
  runMove (.moveToRegister g x r) g x (fireRegister r) s
/-- MOVE_TO_STREAM (R231). -/
def execMoveToStream (g : Guard) (x : Src) (f : BitVec 4) (s : State) : Host.Outcome State Fault Refusal :=
  runMove (.moveToStream g x f) g x (fireStream f) s
/-- MOVE_TO_OPERAND (R38). -/
def execMoveToOperand (g : Guard) (x : Src) (k : BitVec 5) (o : BitVec 2) (s : State) : Host.Outcome State Fault Refusal :=
  runMove (.moveToOperand g x k o) g x (fireOperand k o) s

/-- The generic trigger of a computing operation: the socket accepts it, its operands are taken, the results are computed from
them and the trigger value, and each is sent toward its port with the operation's latency (R92, R96). `compute` gets the tile
for FMT and may raise a fault at the trigger; it answers the latency and the results (port, value, operand it narrows). -/
def fireVariable (sock code : Nat) (ports outs : List Nat)
    (compute : Tile → Nat → List Vec → Vec → Res (Nat × List (Nat × Vec × Option Vec))) : Fire := fun slot held b s =>
  (takeOperands s.cur sock code slot held ports).bind fun q =>
    (compute s.cur slot q.1 b).bind fun rs =>
      (accepts s.cur sock code outs).bind fun _ =>
        .ok { s with cur := rs.2.foldl (fun t r => deliver t sock code r.1 rs.1 r.2.1 r.2.2) q.2 }

/-- A computing operation of a fixed latency. -/
def fireCompute (sock code lat : Nat) (ports outs : List Nat)
    (compute : Tile → Nat → List Vec → Vec → Res (List (Nat × Vec × Option Vec))) : Fire :=
  fireVariable sock code ports outs fun t slot ops b => (compute t slot ops b).bind fun rs => .ok (lat, rs)

/-- A computing operation with the one result y0 that is a function of its operands. -/
def firePure (sock code lat : Nat) (ports : List Nat) (f : Tile → List Vec → Vec → Vec) : Fire :=
  fireCompute sock code lat ports [0] fun t _ ops b => .ok [(0, f t ops b, none)]

/-- Operand i of a trigger's operand list. -/
def opAt (ops : List Vec) (i : Nat) : Vec := (ops[i]?).getD 0

end Sys2Proof.Machine
end

