-- ==== Sys2Proof/Machine/Flags.lean ====
section
/-!
DEFINITION. Machine/Flags.lean: what a comparison, a mask and a three-valued outcome write (R101, R133, R138, R165), the delayed
writes of FMT (R71, R72), and the narrowing-progress flag NPF (R171-R173).
-/
namespace Sys2Proof.Machine

/-- The 64-bit value of a comparison (R101). -/
def boolVec (b : Bool) : Vec := if b then 1 else 0

/-- An integer condition of R138 on w-bit lanes; none where it is reserved. -/
def intCond (c w x y : Nat) : Option Bool :=
  match c with
  | 0 => some (x == y) | 1 => some (x != y)
  | 2 => some (sintOf w x < sintOf w y) | 3 => some (sintOf w x ≤ sintOf w y)
  | 4 => some (sintOf w y < sintOf w x) | 5 => some (sintOf w y ≤ sintOf w x)
  | 8 => some (x < y) | 9 => some (x ≤ y) | 10 => some (y < x) | 11 => some (y ≤ x)
  | _ => none

/-- A float condition of R138; none where it is reserved. -/
def floatCond (c : Nat) (x y : Num) : Option Bool :=
  let o := x.cmp y
  match c with
  | 0 => some (o == some .eq) | 1 => some (o != some .eq)
  | 2 => some (o == some .lt) | 3 => some (o == some .lt || o == some .eq)
  | 4 => some (o == some .gt) | 5 => some (o == some .gt || o == some .eq)
  | 6 => some (o == none) | 7 => some (o != none)
  | _ => none

/-- Three-valued outcomes, 0 false, 1 true, 2 unknown, two bits a lane (R165). -/
def packThree (xs : List Nat) : Vec := packLanes 2 xs

/-! ## FMT (R71, R72) -/

/-- A write of one FMT field triggered in this bundle step: five ends of a bundle step until it takes effect. -/
def queueFmt (t : Tile) (f v : Nat) : Tile :=
  { t with ctl := { t.ctl with fmtPending := t.ctl.fmtPending ++ [{ rem := 5, field := f, val := v }] } }

/-- FMT once every pending write has taken effect (R72: csrs and csrc chain on it). -/
def fmtFinal (t : Tile) : Word := t.ctl.fmtPending.foldl (fun w p => setFmt w p.field p.val) t.csr.fmt

/-- A write of FMT by sys: each field whose new value is legal is written, the others keep theirs (R71). -/
def writeFmt (t : Tile) (w : Word) : Tile :=
  (List.range 6).foldl (fun t f => let q := fmtField f; if fmtLegal f (fld w q.1 q.2) then queueFmt t f (fld w q.1 q.2) else t) t

/-- A bundle step ends: pending FMT writes advance and take effect in issue order (R72, R96). -/
def tickFmt (t : Tile) : Tile :=
  let ps := t.ctl.fmtPending.map fun p => { p with rem := p.rem - 1 }
  let due := ps.filter fun p => decide (p.rem = 0)
  { t with csr := { t.csr with fmt := due.foldl (fun w p => setFmt w p.field p.val) t.csr.fmt },
           ctl := { t.ctl with fmtPending := ps.filter fun p => decide (p.rem ≠ 0) } }

/-! ## NPF -/

/-- One lane of one result of a contractor made progress (R172): u the operand, u' the result, t the threshold. -/
def laneProgress (t : Nat) (u u' : Ivl) : Bool :=
  match u, u' with
  | .set .., .empty k => k == 0
  | .set lo hi, .set lo' hi' =>
    (lo.isInf && lo'.isFin) || (hi.isInf && hi'.isFin) ||
      (lo.isFin && hi.isFin &&
        let w := hi.add false lo.neg
        let w' := hi'.add false lo'.neg
        let d := w.add false w'.neg
        (Num.fin false 0 0).lt d && (w.mul (.fin false 1 (-t))).le d)
  | _, _ => false

/-- Whether a contractor's result narrowed its operand in some lane (R172). -/
def narrowedProgress (t : Nat) (u u' : Vec) : Bool :=
  (List.range 16).any fun l => laneProgress t (ivlLane u l) (ivlLane u' l)

/-- NPF at the step in which a contractor's result comes due (R173). -/
def updateNpf (t : Tile) (narrowed : Option Vec) (v : Vec) : Tile :=
  match narrowed with
  | none => t
  | some u => if narrowedProgress (fld t.csr.npt 0 6) u v then { t with csr := { t.csr with npf := 1 } } else t

end Sys2Proof.Machine
end

