-- ==== Sys2Proof/Machine/Trans.lean ====
section
/-!
DEFINITION. Machine/Trans.lean: the exact real functions behind sfu and iv (R154, R160, R169): enclosures of their magnitudes in
fixed point, and the correctly rounded value where both ends of an enclosure round alike (log 9).
-/
namespace Sys2Proof.Machine

/-- Fraction bits of the fixed-point numbers of this file. -/
def fixBits : Nat := 420
/-- The natural logarithm of 2 in fixed point, rounded down. -/
def fixLn2 : Nat := 0xb17217f7d1cf79abc9e3b39803f2f6af40f343267298b62d8a0d175b8baafa2be7b876206debac98559552fb4afa1b10ed2eae35c
/-- π in fixed point, rounded down. -/
def fixPi : Nat := 0x3243f6a8885a308d313198a2e03707344a4093822299f31d0082efa98ec4e6c89452821e638d01377be5466cf34e90c6cc0ac29b7c
/-- A bound on the error of every series below, in units of the last place: at most 200 terms of less than three units each. -/
def fixErr : Nat := 4096

/-- An enclosure of a magnitude: between lo * 2^e and hi * 2^e. -/
structure Enc where
  lo : Nat
  hi : Nat
  e : Int
  deriving DecidableEq, Repr

/-- The rounding of an enclosed magnitude to a format, where it is decided. -/
def roundEnc (f : Nat) (d : Dir) (x : Enc) : Option Nat :=
  let a := roundMag f d x.lo x.e false
  if a = roundMag f d x.hi x.e false then some a else none

/-- Product of two fixed-point numbers, rounded down. -/
def fixMul (a b : Nat) : Nat := (a * b) >>> fixBits

/-- Terms of the exponential series from term k: t is the k-th term. -/
def expTerms (y : Nat) : Nat → Nat → Nat → Nat
  | 0, _, _ => 0
  | n + 1, k, t => t + expTerms y n (k + 1) (fixMul t y / (k + 1))

/-- e^y for 0 ≤ y < 1, within fixErr. -/
def fixExp (y : Nat) : Nat := expTerms y 110 0 (2 ^ fixBits)

/-- A nonnegative dyadic number in fixed point, rounded down (exact for every format value below 2^64). -/
def fixOf (m : Nat) (e : Int) : Nat :=
  let s := e + fixBits
  if 0 ≤ s then m * 2 ^ s.toNat else m >>> (-s).toNat

/-- An enclosure of e^v for v ≥ 0 in fixed point, v below 2^12. -/
def encExp (v : Nat) : Enc :=
  let n := v / fixLn2
  let a := fixExp (v - n * fixLn2)
  let err := fixErr + 4 * (n + 1)
  { lo := a - err, hi := a + err, e := (n : Int) - fixBits }

/-- An enclosure of 2^x for a finite x that is no integer, or whose magnitude is 2^10 or more (there 2^±2000 rounds alike). -/
def encExp2 (neg : Bool) (m : Nat) (e : Int) : Enc :=
  if 2 ^ (10 + fixBits) ≤ m * 2 ^ (e + fixBits).toNat then { lo := 1, hi := 1, e := if neg then -2000 else 2000 }
  else
    let z := signed neg (fixOf m e)
    let one : Int := 2 ^ fixBits
    let n := z / one
    let a := fixExp (fixMul (z - n * one).toNat fixLn2)
    { lo := a - fixErr, hi := a + fixErr, e := n - fixBits }

/-- Terms of the atanh series: t is the current odd power of the argument, s its square. -/
def atanhTerms (s : Nat) : Nat → Nat → Nat → Nat
  | 0, _, _ => 0
  | n + 1, k, t => t / (2 * k + 1) + atanhTerms s n (k + 1) (fixMul t s)

/-- log2 of m * 2^e for m > 0, in fixed point, within 2 fixErr. -/
def fixLog2 (m : Nat) (e : Int) : Int :=
  let k := bitLen m - 1
  let one := 2 ^ fixBits
  let x := m * one / 2 ^ k
  let t := (x - one) * one / (x + one)
  let ln := 2 * atanhTerms (fixMul t t) 140 0 t
  (e + k) * one + (ln * one / fixLn2 : Nat)

/-- Terms of the sine or cosine series with alternating sign: t is the term over k!, y2 the square. -/
def trigTerms (y2 : Nat) : Nat → Nat → Int → Nat → Int
  | 0, _, _, _ => 0
  | n + 1, k, sg, t => sg * t + trigTerms y2 n (k + 2) (-sg) (fixMul t y2 / ((k + 1) * (k + 2)))

/-- sin(π s) and cos(π s) for 0 ≤ s ≤ 1/4, within fixErr. -/
def fixTrig (s : Nat) : Nat × Nat :=
  let y := fixMul s fixPi
  let y2 := fixMul y y
  ((trigTerms y2 60 1 1 y).toNat, (trigTerms y2 60 0 1 (2 ^ fixBits)).toNat)

/-- |sin(π s)| for 0 ≤ s < 1, in fixed point. -/
def fixSinpi (s : Nat) : Nat :=
  let one := 2 ^ fixBits
  let r := if one / 2 < s then one - s else s
  if r ≤ one / 4 then (fixTrig r).1 else (fixTrig (one / 2 - r)).2

/-- An enclosure of a fixed-point magnitude. -/
def encFix (v err : Nat) : Enc := { lo := v - err, hi := v + err, e := -(fixBits : Int) }

/-- An enclosure of tanh of a positive number (R154). -/
def encTanh (m : Nat) (e : Int) : Enc :=
  let top := (bitLen m : Int) - 1 + e
  if top < -14 then { lo := m * (2 ^ 29 - 1), hi := m * 2 ^ 29, e := e - 29 }
  else if 4 ≤ top then { lo := 2 ^ 40 - 1, hi := 2 ^ 40, e := -40 }
  else
    let x := encExp (2 * fixOf m e)
    let one := 2 ^ fixBits
    let lo := x.lo * 2 ^ (x.e + fixBits).toNat
    let hi := x.hi * 2 ^ (x.e + fixBits).toNat
    { lo := (lo - one) * one / (lo + one), hi := (hi - one) * one / (hi + one) + 1, e := -(fixBits : Int) }

/-- An enclosure of 1 / (1 + e^-x) for a nonzero finite x (R154). -/
def encSigm (neg : Bool) (m : Nat) (e : Int) : Enc :=
  let top := (bitLen m : Int) - 1 + e
  if 7 ≤ top then (if neg then { lo := 1, hi := 1, e := -180 } else { lo := 2 ^ 40 - 1, hi := 2 ^ 40, e := -40 })
  else
    let x := encExp (fixOf m e)
    let one := 2 ^ fixBits
    let lo := x.lo * 2 ^ (x.e + fixBits).toNat
    let hi := x.hi * 2 ^ (x.e + fixBits).toNat
    if neg then
      { lo := one * one * one / (hi + one), hi := one * one * one / (lo + one) + 1, e := -(2 * fixBits : Int) }
    else { lo := lo * one / (lo + one), hi := hi * one / (hi + one) + 1, e := -(fixBits : Int) }

/-- The value of an integer n as the exponent of 2 that m * 2^e is, if it is one. -/
def asInteger (m : Nat) (e : Int) : Option Nat :=
  if 0 ≤ e then some (m * 2 ^ e.toNat)
  else if m % 2 ^ (-e).toNat = 0 then some (m / 2 ^ (-e).toNat) else none

/-- 2^x rounded in a direction, for a finite x; the undecided value has code 8. -/
def exp2Round (f : Nat) (d : Dir) (neg : Bool) (m : Nat) (e : Int) (operand : Nat) : Nat :=
  match (if (bitLen m : Int) + e ≤ 11 then asInteger m e else none) with
  | some n => roundMag f d 1 (signed neg n) false
  | none => (roundEnc f d (encExp2 neg m e)).getD (Config.undecided 8 f operand).toNat

/-- log2 of m * 2^e > 0 as sign, and the bits of the magnitude rounded in the direction that `dir` gives for the sign. -/
def log2Round (f : Nat) (dir : Bool → Dir) (m : Nat) (e : Int) (operand : Nat) : Bool × Nat :=
  let k := bitLen m - 1
  if m = 2 ^ k then
    let z := e + k
    (decide (z < 0), roundMag f (dir (decide (z < 0))) z.natAbs 0 false)
  else
    let z := fixLog2 m e
    (decide (z < 0), (roundEnc f (dir (decide (z < 0))) (encFix z.natAbs (2 * fixErr))).getD (Config.undecided 9 f operand).toNat)

end Sys2Proof.Machine
end

