-- ==== Sys2Proof/Machine/Interval.lean ====
section
/-!
DEFINITION. Machine/Interval.lean: the forward operations, extractions, constructors and comparisons of iv (R157-R167), over exact
rational points and the sign parts of a set of reals.
-/
namespace Sys2Proof.Machine

/-! ## Exact points and sets -/

/-- An extended real: the fraction n/d with d > 0, or an infinity. -/
inductive Pt where
  | ninf
  | q (n : Int) (d : Nat)
  | pinf
  deriving DecidableEq, Repr

/-- A bound as a point (a binary32 number is a fraction). -/
def ptOf : Num → Pt
  | .nan => .q 0 1
  | .inf neg => if neg then .ninf else .pinf
  | .fin neg m e => if 0 ≤ e then .q (signed neg (m * 2 ^ e.toNat)) 1 else .q (signed neg m) (2 ^ (-e).toNat)

/-- Less or equal. -/
def Pt.le : Pt → Pt → Bool
  | .ninf, _ => true
  | _, .pinf => true
  | .q a b, .q c d => decide (a * d ≤ c * b)
  | _, _ => false
/-- Strictly less. -/
def Pt.lt (x y : Pt) : Bool := !y.le x
/-- The smaller point. -/
def Pt.min (x y : Pt) : Pt := if x.le y then x else y
/-- The larger point. -/
def Pt.max (x y : Pt) : Pt := if x.le y then y else x
/-- Negation. -/
def Pt.neg : Pt → Pt
  | .ninf => .pinf
  | .pinf => .ninf
  | .q n d => .q (-n) d
/-- A sum; callers never add opposite infinities. -/
def Pt.add : Pt → Pt → Pt
  | .q a b, .q c d => .q (a * d + c * b) (b * d)
  | .ninf, _ => .ninf
  | _, .ninf => .ninf
  | _, _ => .pinf
/-- Zero. -/
def Pt.zero : Pt := .q 0 1
/-- A product of points of (0, inf]. -/
def Pt.mulPos : Pt → Pt → Pt
  | .q a b, .q c d => .q (a * c) (b * d)
  | _, _ => .pinf
/-- A quotient p/r of points of [0, inf] where not both are 0 and not both infinite. -/
def Pt.divPos : Pt → Pt → Pt
  | .q a b, .q c d => if c = 0 then .pinf else .q (a * d) (b * c.natAbs)
  | .q _ _, _ => .zero
  | _, _ => .pinf
/-- A point is zero. -/
def Pt.isZero : Pt → Bool
  | .q n _ => n == 0
  | _ => false
/-- A point is finite. -/
def Pt.isFin : Pt → Bool
  | .q .. => true
  | _ => false

/-- A point rounded down or up to binary32 (R63, R159); a zero is +0 (R158). -/
def roundPt (up : Bool) : Pt → Nat
  | .ninf => negBits
  | .pinf => infBits 0
  | .q n d =>
    let neg := decide (n < 0)
    let q := quotient n.natAbs d 40
    let m := roundMag 0 (if up = neg then .trunc else .away) q.1 q.2.1 q.2.2
    if m = 0 then 0 else signBit 0 neg + m
where
  /-- The bits of minus infinity. -/
  negBits : Nat := signBit 0 true + infBits 0

/-- An interval lane's bits from two patterns (R64). -/
def laneBits (lo hi : Nat) : Nat := lo + 2 ^ 32 * hi
/-- The bits of an empty lane: 0 by contraction, 1 by domain error, 2 by propagation (R65). -/
def emptyBits (k : Nat) : Nat :=
  if k = 0 then laneBits 0x7F800000 0xFF800000 else if k = 1 then laneBits 0x7FC00001 0x7FC00001 else laneBits 0x7FC00002 0x7FC00002
/-- A hull rounded outward, or empty of a kind (R159, R168). -/
def hullBits (kind : Nat) : Option (Pt × Pt) → Nat
  | none => emptyBits kind
  | some (lo, hi) => laneBits (roundPt false lo) (roundPt true hi)

/-- A nonempty connected set of positive reals: its bounds, and whether each belongs to it. -/
structure Span where
  lo : Pt
  hi : Pt
  lc : Bool
  hc : Bool
  deriving DecidableEq, Repr

/-- A set of reals by sign: the magnitudes of its negative part, whether it holds zero, its positive part. -/
structure Parts where
  neg : Option Span
  zero : Bool
  pos : Option Span
  deriving DecidableEq, Repr

/-- The positive part of the closed real interval from lo to hi. -/
def posSpan (lo hi : Pt) : Option Span :=
  if hi.le .zero then none
  else if Pt.zero.lt lo then some { lo := lo, hi := hi, lc := lo.isFin, hc := hi.isFin }
  else some { lo := .zero, hi := hi, lc := false, hc := hi.isFin }

/-- A closed real interval by sign; an infinite bound is no member (R159). -/
def partsOf (lo hi : Pt) : Parts :=
  { neg := posSpan hi.neg lo.neg, zero := lo.le .zero && Pt.zero.le hi, pos := posSpan lo hi }

/-- The union of two spans of which one holds the other or both start alike. -/
def joinSpan : Option Span → Option Span → Option Span
  | none, y => y
  | x, none => x
  | some x, some y =>
    some { lo := x.lo.min y.lo, hi := x.hi.max y.hi,
           lc := if x.lo.lt y.lo then x.lc else if y.lo.lt x.lo then y.lc else x.lc || y.lc,
           hc := if y.hi.lt x.hi then x.hc else if x.hi.lt y.hi then y.hc else x.hc || y.hc }

/-- The products of two spans. -/
def mulSpan (x y : Option Span) : Option Span :=
  match x, y with
  | some x, some y =>
    some { lo := if x.lo.isZero || y.lo.isZero then .zero else x.lo.mulPos y.lo, hi := x.hi.mulPos y.hi,
           lc := x.lc && y.lc, hc := x.hc && y.hc }
  | _, _ => none

/-- The quotients of two spans. -/
def divSpan (x y : Option Span) : Option Span :=
  match x, y with
  | some x, some y =>
    some { lo := if x.lo.isZero then .zero else x.lo.divPos y.hi, hi := if y.lo.isZero then .pinf else x.hi.divPos y.lo,
           lc := x.lc && y.hc, hc := x.hc && y.lc }
  | _, _ => none

/-- A set is not empty apart from zero. -/
def Parts.nonzero (p : Parts) : Bool := p.neg.isSome || p.pos.isSome
/-- A set is not empty. -/
def Parts.inhabited (p : Parts) : Bool := p.zero || p.nonzero

/-- The set of products. -/
def mulParts (x y : Parts) : Parts :=
  { pos := joinSpan (mulSpan x.pos y.pos) (mulSpan x.neg y.neg), neg := joinSpan (mulSpan x.pos y.neg) (mulSpan x.neg y.pos),
    zero := (x.zero && y.inhabited) || (y.zero && x.inhabited) }

/-- The set of quotients with a nonzero divisor. -/
def divParts (x y : Parts) : Parts :=
  { pos := joinSpan (divSpan x.pos y.pos) (divSpan x.neg y.neg), neg := joinSpan (divSpan x.pos y.neg) (divSpan x.neg y.pos),
    zero := x.zero && y.nonzero }

/-- The infimum and supremum of a set. -/
def Parts.hull (p : Parts) : Option (Pt × Pt) :=
  if !p.inhabited then none
  else
    let lo := match p.neg with
      | some n => n.hi.neg
      | none => if p.zero then .zero else (p.pos.map Span.lo).getD .zero
    let hi := match p.pos with
      | some n => n.hi
      | none => if p.zero then .zero else ((p.neg.map Span.lo).getD .zero).neg
    some (lo, hi)

/-! ## Lanes -/

/-- An operation on the 16 lanes of two interval operands into 64-bit lanes. -/
def ivLanes2 (f : Ivl → Ivl → Nat) (a b : Vec) : Vec :=
  packLanes 64 ((List.range 16).map fun l => f (ivlLane a l) (ivlLane b l))
/-- The same of one operand. -/
def ivLanes1 (f : Ivl → Nat) (b : Vec) : Vec := packLanes 64 ((List.range 16).map fun l => f (ivlLane b l))

/-- A binary operation on nonempty lanes; an empty lane propagates (R158). -/
def onSets (f : Num → Num → Num → Num → Nat) (u v : Ivl) : Nat :=
  match u, v with
  | .set a b, .set c d => f a b c d
  | _, _ => emptyBits 2
/-- A unary operation on a nonempty lane. -/
def onSet (f : Num → Num → Nat) (u : Ivl) : Nat :=
  match u with
  | .set a b => f a b
  | _ => emptyBits 2

/-- Bounds rounded outward. -/
def outBits (lo hi : Pt) : Nat := hullBits 0 (some (lo, hi))

/-- The bits of a bound taken as it is: a value that needs no rounding. -/
def boundBits (x : Num) : Nat := encodePlain 0 0 x
/-- The smaller bound. -/
def numMin (x y : Num) : Num := if x.le y then x else y
/-- The larger bound. -/
def numMax (x y : Num) : Num := if x.le y then y else x

/-- η². -/
def sqrBits (lo hi : Num) : Nat :=
  let p := partsOf (ptOf lo) (ptOf hi)
  let sq := { p with pos := joinSpan (mulSpan p.pos p.pos) (mulSpan p.neg p.neg), neg := none : Parts }
  hullBits 1 sq.hull

/-- A root rounded down or up. -/
def rootBits (up : Bool) : Num → Nat
  | .fin _ m e => if m = 0 then 0 else let r := rootOf m e 40; roundMag 0 (if up then .away else .trunc) r.1 r.2.1 r.2.2
  | _ => infBits 0

/-- √η over the lane. -/
def sqrtBits (lo hi : Num) : Nat :=
  if hi.lt (.fin false 0 0) then emptyBits 1
  else laneBits (if lo.lt (.fin false 0 0) then 0 else rootBits false lo) (rootBits true hi)

/-- 2^x of a bound rounded down or up. -/
def expBits (up : Bool) (x : Num) : Nat :=
  match x with
  | .fin neg m e => exp2Round 0 (if up then .away else .trunc) neg m e (encodeFloat 0 0 x)
  | .inf true => 0
  | _ => infBits 0

/-- log₂ of a bound rounded down or up; a bound that is not positive gives -inf. -/
def logBits (up : Bool) (x : Num) : Nat :=
  match x with
  | .fin neg m e =>
    if neg || m = 0 then signBit 0 true + infBits 0
    else
      let r := log2Round 0 (fun s => if s = up then .trunc else .away) m e (encodeFloat 0 0 x)
      if r.2 = 0 then 0 else signBit 0 r.1 + r.2
  | .inf true => signBit 0 true + infBits 0
  | _ => infBits 0

/-- log₂ η over the lane. -/
def ilogBits (lo hi : Num) : Nat :=
  if hi.le (.fin false 0 0) then emptyBits 1 else laneBits (logBits false lo) (logBits true hi)

/-- The midpoint m of a nonempty lane (R162). -/
def midOf (lo hi : Num) : Nat :=
  match lo.isInf, hi.isInf with
  | true, true => 0
  | true, false => 0xFF7FFFFF
  | false, true => 0x7F7FFFFF
  | false, false => encodePlain 0 0 ((lo.add false hi).mul (.fin false 1 (-1)))

/-- The radius (R162). -/
def radOf (lo hi : Num) : Nat :=
  if lo.isInf || hi.isInf then infBits 0
  else
    let m := decodeFloat 0 (midOf lo hi)
    encodePlain 0 3 (numMax (m.add false lo.neg) (hi.add false m.neg))

/-- The width (R162). -/
def widOf (lo hi : Num) : Nat := if lo.isInf || hi.isInf then infBits 0 else encodePlain 0 3 (hi.add false lo.neg)

/-- An extraction: 16 binary32 values; an empty lane gives the canonical NaN (R162). -/
def extract (f : Num → Num → Nat) (b : Vec) : Vec :=
  packLanes 32 ((List.range 16).map fun l => match ivlLane b l with | .set lo hi => f lo hi | .empty _ => nanBits 0)

/-- imk of two bounds (R163). -/
def imkBits (x y : Nat) : Nat :=
  let a := decodeFloat 0 x
  let b := decodeFloat 0 y
  if a.isNan || b.isNan || b.lt a || a == .inf false || b == .inf true then emptyBits 1
  else laneBits (if a.isZero then 0 else x) (if b.isZero then 0 else y)

/-- icmp of two lanes (R166): the true and the false condition of a relation. -/
def icmpLane (c : Nat) (u v : Ivl) : Nat :=
  match u, v with
  | .set al ah, .set bl bh =>
    let apart := ah.lt bl || bh.lt al
    let same := al.cmp ah == some .eq && ah.cmp bl == some .eq && bl.cmp bh == some .eq
    let (yes, no) := match c with
      | 0 => (same, apart)
      | 1 => (apart, same)
      | 2 => (ah.lt bl, bh.le al)
      | 3 => (ah.le bl, bh.lt al)
      | 4 => (bh.lt al, ah.le bl)
      | _ => (bh.le al, ah.lt bl)
    if yes then 1 else if no then 0 else 2
  | _, _ => 2

/-- iin (R167). -/
def iinLane (x : Nat) (v : Ivl) : Nat :=
  match v with
  | .set lo hi => let a := decodeFloat 0 x; if !a.isNan && lo.le a && a.le hi then 1 else 0
  | .empty _ => 0

/-- isubset (R167). -/
def isubsetLane (u v : Ivl) : Nat :=
  match u, v with
  | .empty _, _ => 1
  | .set al ah, .set bl bh => if bl.le al && ah.le bh then 1 else 0
  | _, _ => 0

/-- ihull of two lanes (R161). -/
def ihullLane (u v : Ivl) : Nat :=
  match u, v with
  | .set a b, .set c d => laneBits (boundBits (numMin a c)) (boundBits (numMax b d))
  | .set a b, .empty _ => laneBits (boundBits a) (boundBits b)
  | .empty _, .set c d => laneBits (boundBits c) (boundBits d)
  | .empty _, .empty _ => emptyBits 2

/-- A forward operation of iv on interval operands a and b. -/
def fireIv2 (code lat : Nat) (f : Ivl → Ivl → Nat) : Fire :=
  firePure 10 code lat [0] fun _ ops b => ivLanes2 f (opAt ops 0) b
/-- A forward operation of iv on b. -/
def fireIv1 (code lat : Nat) (f : Ivl → Nat) : Fire := firePure 10 code lat [] fun _ _ b => ivLanes1 f b

/-- iadd (R160). -/
def fireIvIadd : Fire := fireIv2 8 4 (onSets fun a b c d => outBits ((ptOf a).add (ptOf c)) ((ptOf b).add (ptOf d)))
/-- IV_IADD (R160). -/
def execIvIadd (g : Guard) (x : Src) (s : State) : Host.Outcome State Fault Refusal :=
  runMove (.ivIadd g x) g x fireIvIadd s

/-- isub (R160). -/
def fireIvIsub : Fire := fireIv2 9 4 (onSets fun a b c d => outBits ((ptOf a).add (ptOf d).neg) ((ptOf b).add (ptOf c).neg))
/-- IV_ISUB (R160). -/
def execIvIsub (g : Guard) (x : Src) (s : State) : Host.Outcome State Fault Refusal :=
  runMove (.ivIsub g x) g x fireIvIsub s

/-- imul (R160). -/
def fireIvImul : Fire := 
  fireIv2 10 6 (onSets fun a b c d => hullBits 1 (mulParts (partsOf (ptOf a) (ptOf b)) (partsOf (ptOf c) (ptOf d))).hull)
/-- IV_IMUL (R160). -/
def execIvImul (g : Guard) (x : Src) (s : State) : Host.Outcome State Fault Refusal :=
  runMove (.ivImul g x) g x fireIvImul s

/-- idiv (R160). -/
def fireIvIdiv : Fire := 
  fireIv2 11 12 (onSets fun a b c d => hullBits 1 (divParts (partsOf (ptOf a) (ptOf b)) (partsOf (ptOf c) (ptOf d))).hull)
/-- IV_IDIV (R160). -/
def execIvIdiv (g : Guard) (x : Src) (s : State) : Host.Outcome State Fault Refusal :=
  runMove (.ivIdiv g x) g x fireIvIdiv s

/-- isqr (R160). -/
def fireIvIsqr : Fire := fireIv1 12 5 (onSet sqrBits)
/-- IV_ISQR (R160). -/
def execIvIsqr (g : Guard) (x : Src) (s : State) : Host.Outcome State Fault Refusal :=
  runMove (.ivIsqr g x) g x fireIvIsqr s

/-- isqrt (R160). -/
def fireIvIsqrt : Fire := fireIv1 13 10 (onSet sqrtBits)
/-- IV_ISQRT (R160). -/
def execIvIsqrt (g : Guard) (x : Src) (s : State) : Host.Outcome State Fault Refusal :=
  runMove (.ivIsqrt g x) g x fireIvIsqrt s

/-- iexp (R160). -/
def fireIvIexp : Fire := fireIv1 14 14 (onSet fun lo hi => laneBits (expBits false lo) (expBits true hi))
/-- IV_IEXP (R160). -/
def execIvIexp (g : Guard) (x : Src) (s : State) : Host.Outcome State Fault Refusal :=
  runMove (.ivIexp g x) g x fireIvIexp s

/-- ilog (R160). -/
def fireIvIlog : Fire := fireIv1 15 14 (onSet ilogBits)
/-- IV_ILOG (R160). -/
def execIvIlog (g : Guard) (x : Src) (s : State) : Host.Outcome State Fault Refusal :=
  runMove (.ivIlog g x) g x fireIvIlog s

/-- imax (R161). -/
def fireIvImax : Fire := 
  fireIv2 16 4 (onSets fun a b c d => laneBits (boundBits (numMax a c)) (boundBits (numMax b d)))
/-- IV_IMAX (R161). -/
def execIvImax (g : Guard) (x : Src) (s : State) : Host.Outcome State Fault Refusal :=
  runMove (.ivImax g x) g x fireIvImax s

/-- imin (R161). -/
def fireIvImin : Fire := 
  fireIv2 17 4 (onSets fun a b c d => laneBits (boundBits (numMin a c)) (boundBits (numMin b d)))
/-- IV_IMIN (R161). -/
def execIvImin (g : Guard) (x : Src) (s : State) : Host.Outcome State Fault Refusal :=
  runMove (.ivImin g x) g x fireIvImin s

/-- ihull (R161). -/
def fireIvIhull : Fire := fireIv2 18 4 ihullLane
/-- IV_IHULL (R161). -/
def execIvIhull (g : Guard) (x : Src) (s : State) : Host.Outcome State Fault Refusal :=
  runMove (.ivIhull g x) g x fireIvIhull s

/-- isect (R161). -/
def fireIvIsect : Fire := 
  fireIv2 19 4 (onSets fun a b c d =>
    if (numMin b d).lt (numMax a c) then emptyBits 0 else laneBits (boundBits (numMax a c)) (boundBits (numMin b d)))
/-- IV_ISECT (R161). -/
def execIvIsect (g : Guard) (x : Src) (s : State) : Host.Outcome State Fault Refusal :=
  runMove (.ivIsect g x) g x fireIvIsect s

/-- imid (R162). -/
def fireIvImid : Fire := firePure 10 20 4 [] fun _ _ b => extract midOf b
/-- IV_IMID (R162). -/
def execIvImid (g : Guard) (x : Src) (s : State) : Host.Outcome State Fault Refusal :=
  runMove (.ivImid g x) g x fireIvImid s

/-- irad (R162). -/
def fireIvIrad : Fire := firePure 10 21 4 [] fun _ _ b => extract radOf b
/-- IV_IRAD (R162). -/
def execIvIrad (g : Guard) (x : Src) (s : State) : Host.Outcome State Fault Refusal :=
  runMove (.ivIrad g x) g x fireIvIrad s

/-- iwid (R162). -/
def fireIvIwid : Fire := firePure 10 22 4 [] fun _ _ b => extract widOf b
/-- IV_IWID (R162). -/
def execIvIwid (g : Guard) (x : Src) (s : State) : Host.Outcome State Fault Refusal :=
  runMove (.ivIwid g x) g x fireIvIwid s

/-- icmp (R166). -/
def fireIvIcmp : Fire := 
  fireCompute 10 23 4 [0, 1] [0] fun _ slot ops b =>
    let c := fld (opAt ops 1) 0 4
    if 6 ≤ c then .fault (mkFault 1 10 23 slot 0)
    else .ok [(0, packThree ((List.range 16).map fun l => icmpLane c (ivlLane (opAt ops 0) l) (ivlLane b l)), none)]
/-- IV_ICMP (R166). -/
def execIvIcmp (g : Guard) (x : Src) (s : State) : Host.Outcome State Fault Refusal :=
  runMove (.ivIcmp g x) g x fireIvIcmp s

/-- iin (R167). -/
def fireIvIin : Fire := 
  firePure 10 24 4 [0] fun _ ops b => packThree ((List.range 16).map fun l => iinLane (lane 32 l (opAt ops 0)) (ivlLane b l))
/-- IV_IIN (R167). -/
def execIvIin (g : Guard) (x : Src) (s : State) : Host.Outcome State Fault Refusal :=
  runMove (.ivIin g x) g x fireIvIin s

/-- isubset (R167). -/
def fireIvIsubset : Fire := 
  firePure 10 25 4 [0] fun _ ops b => packThree ((List.range 16).map fun l => isubsetLane (ivlLane (opAt ops 0) l) (ivlLane b l))
/-- IV_ISUBSET (R167). -/
def execIvIsubset (g : Guard) (x : Src) (s : State) : Host.Outcome State Fault Refusal :=
  runMove (.ivIsubset g x) g x fireIvIsubset s

/-- imk (R163). -/
def fireIvImk : Fire := 
  firePure 10 26 4 [0] fun _ ops b => packLanes 64 ((List.range 16).map fun l => imkBits (lane 32 l (opAt ops 0)) (lane 32 l b))
/-- IV_IMK (R163). -/
def execIvImk (g : Guard) (x : Src) (s : State) : Host.Outcome State Fault Refusal :=
  runMove (.ivImk g x) g x fireIvImk s

/-- ilo (R162). -/
def fireIvIlo : Fire := firePure 10 27 4 [] fun _ _ b => extract (fun lo _ => boundBits lo) b
/-- IV_ILO (R162). -/
def execIvIlo (g : Guard) (x : Src) (s : State) : Host.Outcome State Fault Refusal :=
  runMove (.ivIlo g x) g x fireIvIlo s

/-- ihi (R162). -/
def fireIvIhi : Fire := firePure 10 28 4 [] fun _ _ b => extract (fun _ hi => boundBits hi) b
/-- IV_IHI (R162). -/
def execIvIhi (g : Guard) (x : Src) (s : State) : Host.Outcome State Fault Refusal :=
  runMove (.ivIhi g x) g x fireIvIhi s

end Sys2Proof.Machine
end

