-- ==== Sys2Proof/Machine/Contract.lean ====
section
/-!
DEFINITION. Machine/Contract.lean: the contractors of iv (R168-R170), computed on exact sets.
-/
namespace Sys2Proof.Machine

/-- The common part of two spans. -/
def meetSpan (x y : Option Span) : Option Span :=
  match x, y with
  | some x, some y =>
    let r : Span :=
      { lo := x.lo.max y.lo, hi := x.hi.min y.hi,
        lc := if y.lo.lt x.lo then x.lc else if x.lo.lt y.lo then y.lc else x.lc && y.lc,
        hc := if x.hi.lt y.hi then x.hc else if y.hi.lt x.hi then y.hc else x.hc && y.hc }
    if r.hi.lt r.lo || (!r.lo.lt r.hi && !(r.lc && r.hc)) then none else some r
  | _, _ => none

/-- The common part of two sets. -/
def meetParts (x y : Parts) : Parts :=
  { neg := meetSpan x.neg y.neg, zero := x.zero && y.zero, pos := meetSpan x.pos y.pos }

/-- The common part of two closed intervals, as a hull. -/
def meetPt (a b c d : Pt) : Option (Pt × Pt) :=
  let lo := a.max c
  let hi := b.min d
  if hi.lt lo then none else some (lo, hi)

/-- The hull of two hulls. -/
def joinHull : Option (Pt × Pt) → Option (Pt × Pt) → Option (Pt × Pt)
  | none, y => y
  | x, none => x
  | some (a, b), some (c, d) => some (a.min c, b.max d)

/-- A closed real interval: its bounds as points. -/
abbrev Box := Pt × Pt
/-- The set of a box. -/
def Box.parts (b : Box) : Parts := partsOf b.1 b.2
/-- Negated. -/
def Box.neg (b : Box) : Box := (b.2.neg, b.1.neg)

/-- x' and y' of z = x + y (R169). -/
def cadd (x y z : Box) : Option Box × Option Box :=
  (meetPt x.1 x.2 (z.1.add y.2.neg) (z.2.add y.1.neg), meetPt y.1 y.2 (z.1.add x.2.neg) (z.2.add x.1.neg))

/-- x' and y' of z = x - y. -/
def csub (x y z : Box) : Option Box × Option Box :=
  (meetPt x.1 x.2 (z.1.add y.1) (z.2.add y.2), meetPt y.1 y.2 (x.1.add z.2.neg) (x.2.add z.1.neg))

/-- Sx of z = x * y. -/
def cmulSide (x y z : Parts) : Option Box :=
  if y.zero && z.zero then x.hull else (meetParts x (divParts z y)).hull

/-- x' and y' of z = x * y. -/
def cmul (x y z : Box) : Option Box × Option Box :=
  (cmulSide x.parts y.parts z.parts, cmulSide y.parts x.parts z.parts)

/-- x' and y' of z = x / y, y ≠ 0. -/
def cdiv (x y z : Box) : Option Box × Option Box :=
  let px := x.parts
  let py := { y.parts with zero := false : Parts }
  let pz := z.parts
  let q := { divParts px pz with zero := false : Parts }
  ((meetParts px (mulParts pz py)).hull, if px.zero && pz.zero then py.hull else (meetParts py q).hull)

/-- The square of a point. -/
def Pt.sqr : Pt → Pt
  | .q n d => .q (n * n) (d * d)
  | _ => .pinf

/-- The interval of binary32 bits of {ξ in [a, b], ξ² in [zl, zh]} for 0 ≤ a: lower and upper bits. -/
def rootSide (a b : Num) (zl zh : Num) : Option (Nat × Nat) :=
  let zl0 := if zl.lt (.fin false 0 0) then Num.fin false 0 0 else zl
  if (ptOf zh).lt (ptOf a).sqr || (ptOf b).sqr.lt (ptOf zl0) || zh.lt (.fin false 0 0) then none
  else
    some (if (ptOf zl0).le (ptOf a).sqr then boundBits a else rootBits false zl0,
          if (ptOf b).sqr.le (ptOf zh) then boundBits b else rootBits true zh)

/-- A sign bit set on the pattern of a magnitude; a zero stays +0. -/
def negBitsOf (n : Nat) : Nat := if n = 0 then 0 else 2 ^ 31 + n

/-- The part of a lane that is not negative. -/
def upperHalf (lo hi : Num) : Option (Num × Num) :=
  if hi.lt (.fin false 0 0) then none else some (numMax lo (.fin false 0 0), hi)

/-- x' of z = x² (R169). -/
def csqrBits (lo hi zl zh : Num) : Nat :=
  let p := (upperHalf lo hi).bind fun q => rootSide q.1 q.2 zl zh
  let n := (upperHalf hi.neg lo.neg).bind fun q => rootSide q.1 q.2 zl zh
  match n, p with
  | none, none => emptyBits 0
  | none, some (a, b) => laneBits a b
  | some (a, b), none => laneBits (negBitsOf b) (negBitsOf a)
  | some (_, b), some (_, d) => laneBits (negBitsOf b) d

/-- x' of z = √x, x ≥ 0 (R169). -/
def csqrtBits (lo hi zl zh : Num) : Nat :=
  if zh.lt (.fin false 0 0) then emptyBits 0
  else hullBits 0 (meetPt (ptOf lo) (ptOf hi) (ptOf (numMax zl (.fin false 0 0))).sqr (ptOf zh).sqr)

/-- A bound pattern's number. -/
def numOf (n : Nat) : Num := decodeFloat 0 n

/-- x' of z = 2^x (R169): the bounds of log₂ of the positive part of z against those of x. -/
def cexpBits (lo hi zl zh : Num) : Nat :=
  if zh.le (.fin false 0 0) then emptyBits 0
  else if hi.lt (numOf (logBits true zl)) || (numOf (logBits false zh)).lt lo then emptyBits 0
  else laneBits (boundBits (numMax lo (numOf (logBits false zl)))) (boundBits (numMin hi (numOf (logBits true zh))))

/-- x' of z = log₂ x, x > 0 (R169). -/
def clogBits (lo hi zl zh : Num) : Nat :=
  if hi.le (.fin false 0 0) then emptyBits 0
  else if hi.lt (numOf (expBits true zl)) || (numOf (expBits false zh)).lt lo then emptyBits 0
  else laneBits (boundBits (numMax lo (numOf (expBits false zl)))) (boundBits (numMin hi (numOf (expBits true zh))))

/-- Sx of z = max(x, y). -/
def cmaxSide (x y z : Box) : Option Box :=
  let one := (meetPt x.1 x.2 z.1 z.2).bind fun q => meetPt q.1 q.2 y.1 .pinf
  let two := (meetPt y.1 y.2 z.1 z.2).bind fun q => meetPt x.1 x.2 .ninf q.2
  joinHull one two

/-- x' and y' of z = max(x, y). -/
def cmax (x y z : Box) : Option Box × Option Box := (cmaxSide x y z, cmaxSide y x z)
/-- x' and y' of z = min(x, y), by negation. -/
def cmin (x y z : Box) : Option Box × Option Box :=
  ((cmaxSide x.neg y.neg z.neg).map Box.neg, (cmaxSide y.neg x.neg z.neg).map Box.neg)

/-- One lane of a binary contractor: the bits of x' and y' (R168). -/
def contractLane (f : Box → Box → Box → Option Box × Option Box) (u v w : Ivl) : Nat × Nat :=
  match u, v, w with
  | .set a b, .set c d, .set e g =>
    let r := f (ptOf a, ptOf b) (ptOf c, ptOf d) (ptOf e, ptOf g)
    (hullBits 0 r.1, hullBits 0 r.2)
  | _, _, _ => (emptyBits 2, emptyBits 2)

/-- A binary contractor: x from o0, y from o1, z the trigger (R168, R169). -/
def fireContract2 (code lat : Nat) (f : Box → Box → Box → Option Box × Option Box) : Fire :=
  fireCompute 10 code lat [0, 1] [0, 1] fun _ _ ops z =>
    let x := opAt ops 0
    let y := opAt ops 1
    let rs := (List.range 16).map fun l => contractLane f (ivlLane x l) (ivlLane y l) (ivlLane z l)
    .ok [(0, packLanes 64 (rs.map Prod.fst), some x), (1, packLanes 64 (rs.map Prod.snd), some y)]

/-- A unary contractor: x from o0, z the trigger. -/
def fireContract1 (code lat : Nat) (f : Num → Num → Num → Num → Nat) : Fire :=
  fireCompute 10 code lat [0] [0] fun _ _ ops z => .ok [(0, ivLanes2 (onSets f) (opAt ops 0) z, some (opAt ops 0))]

/-- cadd (R169). -/
def fireIvCadd : Fire := fireContract2 32 5 cadd
/-- IV_CADD (R169). -/
def execIvCadd (g : Guard) (x : Src) (s : State) : Host.Outcome State Fault Refusal :=
  runMove (.ivCadd g x) g x fireIvCadd s

/-- csub (R169). -/
def fireIvCsub : Fire := fireContract2 33 5 csub
/-- IV_CSUB (R169). -/
def execIvCsub (g : Guard) (x : Src) (s : State) : Host.Outcome State Fault Refusal :=
  runMove (.ivCsub g x) g x fireIvCsub s

/-- cmul (R169). -/
def fireIvCmul : Fire := fireContract2 34 7 cmul
/-- IV_CMUL (R169). -/
def execIvCmul (g : Guard) (x : Src) (s : State) : Host.Outcome State Fault Refusal :=
  runMove (.ivCmul g x) g x fireIvCmul s

/-- cdiv (R169). -/
def fireIvCdiv : Fire := fireContract2 35 16 cdiv
/-- IV_CDIV (R169). -/
def execIvCdiv (g : Guard) (x : Src) (s : State) : Host.Outcome State Fault Refusal :=
  runMove (.ivCdiv g x) g x fireIvCdiv s

/-- csqr (R169). -/
def fireIvCsqr : Fire := fireContract1 36 7 csqrBits
/-- IV_CSQR (R169). -/
def execIvCsqr (g : Guard) (x : Src) (s : State) : Host.Outcome State Fault Refusal :=
  runMove (.ivCsqr g x) g x fireIvCsqr s

/-- csqrt (R169). -/
def fireIvCsqrt : Fire := fireContract1 37 12 csqrtBits
/-- IV_CSQRT (R169). -/
def execIvCsqrt (g : Guard) (x : Src) (s : State) : Host.Outcome State Fault Refusal :=
  runMove (.ivCsqrt g x) g x fireIvCsqrt s

/-- cexp (R169). -/
def fireIvCexp : Fire := fireContract1 38 16 cexpBits
/-- IV_CEXP (R169). -/
def execIvCexp (g : Guard) (x : Src) (s : State) : Host.Outcome State Fault Refusal :=
  runMove (.ivCexp g x) g x fireIvCexp s

/-- clog (R169). -/
def fireIvClog : Fire := fireContract1 39 16 clogBits
/-- IV_CLOG (R169). -/
def execIvClog (g : Guard) (x : Src) (s : State) : Host.Outcome State Fault Refusal :=
  runMove (.ivClog g x) g x fireIvClog s

/-- cmax (R169). -/
def fireIvCmax : Fire := fireContract2 40 5 cmax
/-- IV_CMAX (R169). -/
def execIvCmax (g : Guard) (x : Src) (s : State) : Host.Outcome State Fault Refusal :=
  runMove (.ivCmax g x) g x fireIvCmax s

/-- cmin (R169). -/
def fireIvCmin : Fire := fireContract2 41 5 cmin
/-- IV_CMIN (R169). -/
def execIvCmin (g : Guard) (x : Src) (s : State) : Host.Outcome State Fault Refusal :=
  runMove (.ivCmin g x) g x fireIvCmin s

end Sys2Proof.Machine
end

