-- ==== Sys2Proof/Decode.lean ====
section
/-!
DEFINITION. Decode.lean: from words to instructions, rejecting by name what R49 calls no instruction, and the encoder written
from the same tables (R30, R33-R39, R45). Decoding is total on any bytes.
-/
namespace Sys2Proof
open Machine (bitsOf leNat)

/-- Why a pattern is no instruction (R49). -/
inductive DecodeError where
  | controlOp | controlLit | controlBits | controlLimit
  | sourceClass | sourceIndex | sourceBits | sourceSocket | sourcePort | sourceLiteral | sourceKind
  | destSocket | destPort | destCode | destClass | destIndex | destBits | hold | length
  deriving DecidableEq, Repr

/-- A register class by number (R39). -/
def classOf : Nat → Option RegClass
  | 0 => some .x | 1 => some .v | 2 => some .j | 3 => some .p | 4 => some .k | _ => none

/-- A 14-bit source field (R37), with the bundle's literal value. -/
def decodeSrc (n : Nat) (lit : Option Word) : Except DecodeError Src :=
  match bitsOf n 12 2 with
  | 0 =>
    match classOf (bitsOf n 9 3) with
    | none => .error .sourceClass
    | some c =>
      if c.size ≤ bitsOf n 3 6 then .error .sourceIndex
      else if bitsOf n 0 2 ≠ 0 then .error .sourceBits
      else .ok (.reg { cls := c, idx := BitVec.ofNat 6 (bitsOf n 3 6) } (bitsOf n 2 1 == 1))
  | 1 =>
    if !socketOk (bitsOf n 7 5) then .error .sourceSocket
    else if portCount (bitsOf n 7 5) ≤ bitsOf n 4 3 then .error .sourcePort
    else if bitsOf n 0 3 ≠ 0 then .error .sourceBits
    else .ok (.port (BitVec.ofNat 5 (bitsOf n 7 5)) (BitVec.ofNat 3 (bitsOf n 4 3)) (bitsOf n 3 1 == 1))
  | 2 =>
    if bitsOf n 0 12 = 0x800 then
      match lit with
      | some v => .ok (.lit v)
      | none => .error .sourceLiteral
    else .ok (.imm (BitVec.ofNat 12 (bitsOf n 0 12)))
  | _ =>
    if bitsOf n 0 4 ≠ 0 then .error .sourceBits
    else
      match bitsOf n 10 2 with
      | 0 => .ok (.stream (BitVec.ofNat 4 (bitsOf n 6 4)) (bitsOf n 5 1 == 1) (bitsOf n 4 1 == 1))
      | 1 =>
        if 4 ≤ bitsOf n 6 4 then .error .sourceIndex
        else .ok (.recvq (BitVec.ofNat 2 (bitsOf n 6 4)) (bitsOf n 5 1 == 1) (bitsOf n 4 1 == 1))
      | 2 =>
        if bitsOf n 6 4 ≠ 0 then .error .sourceIndex
        else .ok (.cq (bitsOf n 5 1 == 1) (bitsOf n 4 1 == 1))
      | _ => .error .sourceKind

/-- The IA triggers by code (R45). -/
def decodeIa (g : Guard) (x : Src) (n : Bool) : Nat → Option Instr
  | 8 => some (.iaAdd g x n)
  | 9 => some (.iaSub g x n)
  | 10 => some (.iaAnd g x n)
  | 11 => some (.iaOr g x n)
  | 12 => some (.iaXor g x n)
  | 13 => some (.iaAndn g x n)
  | 14 => some (.iaShl g x n)
  | 15 => some (.iaShr g x n)
  | 16 => some (.iaSra g x n)
  | 17 => some (.iaMin g x n)
  | 18 => some (.iaMax g x n)
  | 19 => some (.iaMinu g x n)
  | 20 => some (.iaMaxu g x n)
  | 21 => some (.iaCeq g x n)
  | 22 => some (.iaCne g x n)
  | 23 => some (.iaClt g x n)
  | 24 => some (.iaCltu g x n)
  | 25 => some (.iaCle g x n)
  | 26 => some (.iaCleu g x n)
  | 27 => some (.iaSel g x n)
  | 28 => some (.iaPass g x n)
  | 29 => some (.iaSext g x n)
  | 30 => some (.iaZext g x n)
  | 31 => some (.iaClz g x n)
  | 32 => some (.iaPopc g x n)
  | 33 => some (.iaAddsc g x n)
  | 34 => some (.iaBext g x n)
  | 35 => some (.iaBins g x n)
  | _ => none

/-- The IMD triggers by code (R45). -/
def decodeImd (g : Guard) (x : Src) : Nat → Option Instr
  | 8 => some (.imdMul g x)
  | 9 => some (.imdMulh g x)
  | 10 => some (.imdMulhu g x)
  | 11 => some (.imdDiv g x)
  | 12 => some (.imdDivu g x)
  | 13 => some (.imdRem g x)
  | 14 => some (.imdRemu g x)
  | _ => none

/-- The VA triggers by code (R45). -/
def decodeVa (g : Guard) (x : Src) (n : Bool) : Nat → Option Instr
  | 8 => some (.vaFadd g x n)
  | 9 => some (.vaFsub g x n)
  | 10 => some (.vaFmul g x n)
  | 11 => some (.vaFma g x n)
  | 12 => some (.vaFmin g x n)
  | 13 => some (.vaFmax g x n)
  | 14 => some (.vaFsgn g x n)
  | 15 => some (.vaFcmp g x n)
  | 16 => some (.vaFcvt g x n)
  | 17 => some (.vaFround g x n)
  | 18 => some (.vaFtoi g x n)
  | 19 => some (.vaItof g x n)
  | 20 => some (.vaIadd g x n)
  | 21 => some (.vaIsub g x n)
  | 22 => some (.vaImul g x n)
  | 23 => some (.vaIand g x n)
  | 24 => some (.vaIor g x n)
  | 25 => some (.vaIxor g x n)
  | 26 => some (.vaIshl g x n)
  | 27 => some (.vaIshr g x n)
  | 28 => some (.vaIsra g x n)
  | 29 => some (.vaImin g x n)
  | 30 => some (.vaImax g x n)
  | 31 => some (.vaIcmp g x n)
  | 32 => some (.vaBlend g x n)
  | 33 => some (.vaSplat g x n)
  | 34 => some (.vaFclass g x n)
  | _ => none

/-- The VX triggers by code (R45). -/
def decodeVx (g : Guard) (x : Src) : Nat → Option Instr
  | 8 => some (.vxPerm g x)
  | 9 => some (.vxRot g x)
  | 10 => some (.vxShufl g x)
  | 11 => some (.vxRedadd g x)
  | 12 => some (.vxRedmax g x)
  | 13 => some (.vxRedmin g x)
  | 14 => some (.vxScan g x)
  | 15 => some (.vxPart g x)
  | 16 => some (.vxCompact g x)
  | 17 => some (.vxExpand g x)
  | 18 => some (.vxBcast g x)
  | _ => none

/-- The SFU triggers by code (R45). -/
def decodeSfu (g : Guard) (x : Src) : Nat → Option Instr
  | 8 => some (.sfuExp2 g x)
  | 9 => some (.sfuLog2 g x)
  | 10 => some (.sfuRcp g x)
  | 11 => some (.sfuRsqrt g x)
  | 12 => some (.sfuSqrt g x)
  | 13 => some (.sfuSinpi g x)
  | 14 => some (.sfuCospi g x)
  | 15 => some (.sfuTanh g x)
  | 16 => some (.sfuSigm g x)
  | _ => none

/-- The MX triggers by code (R45). -/
def decodeMx (g : Guard) (x : Src) : Nat → Option Instr
  | 8 => some (.mxWload g x)
  | 9 => some (.mxWswap g x)
  | 10 => some (.mxMstream g x)
  | 11 => some (.mxMstreamn g x)
  | 12 => some (.mxMclr g x)
  | 13 => some (.mxMread g x)
  | 14 => some (.mxMacw g x)
  | 15 => some (.mxMivl g x)
  | 16 => some (.mxWloadsp g x)
  | _ => none

/-- The QNT triggers by code (R45). -/
def decodeQnt (g : Guard) (x : Src) : Nat → Option Instr
  | 8 => some (.qntQnt g x)
  | 9 => some (.qntQflush g x)
  | 10 => some (.qntQrange g x)
  | 11 => some (.qntQthr g x)
  | _ => none

/-- The IV triggers by code (R45). -/
def decodeIv (g : Guard) (x : Src) : Nat → Option Instr
  | 8 => some (.ivIadd g x)
  | 9 => some (.ivIsub g x)
  | 10 => some (.ivImul g x)
  | 11 => some (.ivIdiv g x)
  | 12 => some (.ivIsqr g x)
  | 13 => some (.ivIsqrt g x)
  | 14 => some (.ivIexp g x)
  | 15 => some (.ivIlog g x)
  | 16 => some (.ivImax g x)
  | 17 => some (.ivImin g x)
  | 18 => some (.ivIhull g x)
  | 19 => some (.ivIsect g x)
  | 20 => some (.ivImid g x)
  | 21 => some (.ivIrad g x)
  | 22 => some (.ivIwid g x)
  | 23 => some (.ivIcmp g x)
  | 24 => some (.ivIin g x)
  | 25 => some (.ivIsubset g x)
  | 26 => some (.ivImk g x)
  | 27 => some (.ivIlo g x)
  | 28 => some (.ivIhi g x)
  | 32 => some (.ivCadd g x)
  | 33 => some (.ivCsub g x)
  | 34 => some (.ivCmul g x)
  | 35 => some (.ivCdiv g x)
  | 36 => some (.ivCsqr g x)
  | 37 => some (.ivCsqrt g x)
  | 38 => some (.ivCexp g x)
  | 39 => some (.ivClog g x)
  | 40 => some (.ivCmax g x)
  | 41 => some (.ivCmin g x)
  | _ => none

/-- The LW triggers by code (R45). -/
def decodeLw (g : Guard) (x : Src) (n : Bool) : Nat → Option Instr
  | 8 => some (.lwLd g x n)
  | 9 => some (.lwSt g x n)
  | 10 => some (.lwLdx g x n)
  | 11 => some (.lwStx g x n)
  | 12 => some (.lwBind g x n)
  | 13 => some (.lwUnbind g x n)
  | 14 => some (.lwSeal g x n)
  | 15 => some (.lwRelease g x n)
  | 16 => some (.lwGath g x n)
  | 17 => some (.lwScat g x n)
  | _ => none

/-- The GM triggers by code (R45). -/
def decodeGm (g : Guard) (x : Src) : Nat → Option Instr
  | 8 => some (.gmLd g x)
  | 9 => some (.gmSt g x)
  | 10 => some (.gmLdacq g x)
  | 11 => some (.gmStrel g x)
  | 12 => some (.gmLdv g x)
  | 13 => some (.gmStv g x)
  | 14 => some (.gmAmo g x)
  | 15 => some (.gmCas g x)
  | 16 => some (.gmFred g x)
  | 17 => some (.gmFredrd g x)
  | 18 => some (.gmFredclr g x)
  | 19 => some (.gmFence g x)
  | 20 => some (.gmGath g x)
  | 21 => some (.gmScat g x)
  | _ => none

/-- The CP triggers by code (R45). -/
def decodeCp (g : Guard) (x : Src) : Nat → Option Instr
  | 8 => some (.cpCopy g x)
  | 9 => some (.cpCstat g x)
  | 10 => some (.cpCcancel g x)
  | 11 => some (.cpPrefetch g x)
  | _ => none

/-- The NET triggers by code (R45). -/
def decodeNet (g : Guard) (x : Src) : Nat → Option Instr
  | 8 => some (.netSend g x)
  | 9 => some (.netSendm g x)
  | 10 => some (.netPsend g x)
  | 11 => some (.netQcnt g x)
  | _ => none

/-- The SLU triggers by code (R45). -/
def decodeSlu (g : Guard) (x : Src) : Nat → Option Instr
  | 8 => some (.sluSinit g x)
  | 9 => some (.sluArrive g x)
  | 10 => some (.sluArrivb g x)
  | 11 => some (.sluStest g x)
  | 12 => some (.sluSreset g x)
  | 13 => some (.sluSemadd g x)
  | 14 => some (.sluSemsub g x)
  | _ => none

/-- The TT triggers by code (R45). -/
def decodeTt (g : Guard) (x : Src) : Nat → Option Instr
  | 8 => some (.ttHalloc g x)
  | 9 => some (.ttHfree g x)
  | 10 => some (.ttHstate g x)
  | 11 => some (.ttHset g x)
  | 12 => some (.ttHinfo g x)
  | _ => none

/-- The LNK triggers by code (R45). -/
def decodeLnk (g : Guard) (x : Src) : Nat → Option Instr
  | 8 => some (.lnkLaunch g x)
  | 9 => some (.lnkMbind g x)
  | 10 => some (.lnkMunbind g x)
  | 11 => some (.lnkMpos g x)
  | 12 => some (.lnkPermit g x)
  | _ => none

/-- The SYS triggers by code (R45). -/
def decodeSys (g : Guard) (x : Src) : Nat → Option Instr
  | 8 => some (.sysCsrr g x)
  | 9 => some (.sysCsrw g x)
  | 10 => some (.sysCsrs g x)
  | 11 => some (.sysCsrc g x)
  | 12 => some (.sysTsc g x)
  | 13 => some (.sysEst g x)
  | 14 => some (.sysEcall g x)
  | 15 => some (.sysCouple g x)
  | 16 => some (.sysDecouple g x)
  | _ => none

/-- A trigger by socket and code (R41, R45). -/
def decodeTrigger (g : Guard) (x : Src) (s code : Nat) : Option Instr :=
  match s with
  | 1 => decodeIa g x false code
  | 2 => decodeIa g x true code
  | 3 => decodeImd g x code
  | 4 => decodeVa g x false code
  | 5 => decodeVa g x true code
  | 6 => decodeVx g x code
  | 7 => decodeSfu g x code
  | 8 => decodeMx g x code
  | 9 => decodeQnt g x code
  | 10 => decodeIv g x code
  | 11 => decodeLw g x false code
  | 12 => decodeLw g x true code
  | 13 => decodeGm g x code
  | 14 => decodeCp g x code
  | 15 => decodeNet g x code
  | 16 => decodeSlu g x code
  | 17 => decodeTt g x code
  | 18 => decodeLnk g x code
  | 19 => decodeSys g x code
  | _ => none

/-- A 13-bit destination field (R38). -/
def decodeDest (g : Guard) (x : Src) (n : Nat) : Except DecodeError Instr :=
  if bitsOf n 12 1 = 1 then
    if !socketOk (bitsOf n 7 5) then .error .destSocket
    else if bitsOf n 0 7 < 4 then
      .ok (.moveToOperand g x (BitVec.ofNat 5 (bitsOf n 7 5)) (BitVec.ofNat 2 (bitsOf n 0 7)))
    else if bitsOf n 0 7 < 8 then .error .destPort
    else
      match decodeTrigger g x (bitsOf n 7 5) (bitsOf n 0 7) with
      | some i => .ok i
      | none => .error .destCode
  else if bitsOf n 11 1 = 0 then
    match classOf (bitsOf n 8 3) with
    | none => .error .destClass
    | some c =>
      if c.size ≤ bitsOf n 2 6 then .error .destIndex
      else if bitsOf n 0 2 ≠ 0 then .error .destBits
      else .ok (.moveToRegister g x { cls := c, idx := BitVec.ofNat 6 (bitsOf n 2 6) })
  else if bitsOf n 0 7 ≠ 0 then .error .destBits
  else .ok (.moveToStream g x (BitVec.ofNat 4 (bitsOf n 7 4)))

/-- A move slot (R35), with the bundle's literal value; a hold on a register or stream destination is refused (R44). -/
def decodeMove (w : BitVec 32) (lit : Option Word) : Except DecodeError Instr :=
  let n := w.toNat
  let g : Guard := { inv := bitsOf n 31 1 == 1, pred := BitVec.ofNat 4 (bitsOf n 27 4) }
  match decodeSrc (bitsOf n 13 14) lit with
  | .error e => .error e
  | .ok x =>
    match decodeDest g x (bitsOf n 0 13) with
    | .error e => .error e
    | .ok i => if x.hold && !i.toPort then .error .hold else .ok i

/-- The control operation of a slot by its op and operand (R33); `lit` is the literal value a loop reads its strides from. -/
def decodeOp (h : CtlHead) (op n : Nat) (lit : Word) : Except DecodeError Instr :=
  match op with
  | 0 => if n ≠ 0 then .error .controlBits else .ok (.ctlNop h)
  | 1 => .ok (.ctlStall h (BitVec.ofNat 21 n))
  | 2 => if n = 0 then .error .controlLimit else .ok (.ctlBra h (BitVec.ofNat 21 n))
  | 3 =>
    if bitsOf n 0 16 = 0 then .error .controlLimit
    else .ok (.ctlBrp h (BitVec.ofNat 4 (bitsOf n 17 4)) (bitsOf n 16 1 == 1) (BitVec.ofNat 16 (bitsOf n 0 16)))
  | 4 => if bitsOf n 6 15 ≠ 0 then .error .controlBits else .ok (.ctlBri h (BitVec.ofNat 6 n))
  | 5 => .ok (.ctlCall h (BitVec.ofNat 21 n))
  | 6 => if n ≠ 0 then .error .controlBits else .ok (.ctlRet h)
  | 7 =>
    if bitsOf n 9 12 = 0 ∨ 6 < bitsOf n 6 3 then .error .controlLimit
    else .ok (.ctlLoop h (BitVec.ofNat 12 (bitsOf n 9 12)) (BitVec.ofNat 3 (bitsOf n 6 3)) (BitVec.ofNat 6 (bitsOf n 0 6)) lit)
  | 8 =>
    if bitsOf n 16 5 ≠ 0 then .error .controlBits
    else if bitsOf n 0 16 = 0 then .error .controlLimit
    else .ok (.ctlLend h (BitVec.ofNat 16 (bitsOf n 0 16)))
  | 9 => if n ≠ 0 then .error .controlBits else .ok (.ctlLbrk h)
  | 10 =>
    if bitsOf n 0 14 ≠ 0 then .error .controlBits
    else if bitsOf n 14 1 = 1 ∧ 15 < bitsOf n 15 6 then .error .controlLimit
    else .ok (.ctlWait h (BitVec.ofNat 6 (bitsOf n 15 6)) (bitsOf n 14 1 == 1))
  | 11 => if n ≠ 0 then .error .controlBits else .ok (.ctlTrap h)
  | 12 =>
    if !fmtLegal (bitsOf n 16 5) (bitsOf n 0 16) then .error .controlLimit
    else .ok (.ctlFmt h (BitVec.ofNat 5 (bitsOf n 16 5)) (BitVec.ofNat 16 (bitsOf n 0 16)))
  | 13 => if n ≠ 0 then .error .controlBits else .ok (.ctlUiret h)
  | 14 => if n ≠ 0 then .error .controlBits else .ok (.ctlStrokeend h)
  | 15 => if n ≠ 0 then .error .controlBits else .ok (.ctlHalt h)
  | 16 => if n ≠ 0 then .error .controlBits else .ok (.ctlSret h)
  | _ => .error .controlOp

/-- The literal form of a control slot (R30); 0b11 is reserved. -/
def litOf : Nat → Option Lit
  | 0 => some .none | 1 => some .w32 | 2 => some .w64 | _ => none

/-- A control slot (R30). -/
def decodeCtl (w : BitVec 32) (lit : Word) : Except DecodeError Instr :=
  let n := w.toNat
  match litOf (bitsOf n 26 2) with
  | none => .error .controlLit
  | some l =>
    decodeOp { xstall := BitVec.ofNat 3 (bitsOf n 29 3), quiet := bitsOf n 28 1 == 1, lit := l } (bitsOf n 21 5) (bitsOf n 0 21) lit

/-- A decoded bundle: its control operation and its moves, slot 1 first (R29). -/
structure Bundle where
  ctl : Instr
  moves : List Instr
  deriving DecidableEq, Repr

/-- Word i of a bundle (R29). -/
def bundleWord (b : BitVec 256) (i : Nat) : BitVec 32 := BitVec.ofNat 32 (bitsOf b.toNat (32 * i) 32)

/-- The literal value of a bundle (R32). -/
def bundleLit (b : BitVec 256) : Option Word :=
  match litOf (bitsOf b.toNat 26 2) with
  | some .w32 => some ((bundleWord b 7).signExtend 64)
  | some .w64 => some (BitVec.ofNat 64 ((bundleWord b 6).toNat + 2 ^ 32 * (bundleWord b 7).toNat))
  | _ => none

/-- How many move slots a literal leaves (R32). -/
def slotCount : Lit → Nat
  | .none => 7 | .w32 => 6 | .w64 => 5

/-- The moves of slots k, k+1, ..., the first error with its slot (R50). -/
def decodeSlots (b : BitVec 256) (lit : Option Word) : Nat → Nat → Except (Nat × DecodeError) (List Instr)
  | 0, _ => .ok []
  | n + 1, k =>
    match decodeMove (bundleWord b k) lit with
    | .error e => .error (k, e)
    | .ok i =>
      match decodeSlots b lit n (k + 1) with
      | .error e => .error e
      | .ok is => .ok (i :: is)

/-- A bundle (R29-R38), or its first faulting pattern in the order control slot, slot 1, ... slot 7 (R50). -/
def decodeBundle (b : BitVec 256) : Except (Nat × DecodeError) Bundle :=
  match decodeCtl (bundleWord b 0) ((bundleLit b).getD 0) with
  | .error e => .error (0, e)
  | .ok c =>
    match decodeSlots b (bundleLit b) (slotCount ((c.head.map CtlHead.lit).getD .none)) 1 with
    | .error e => .error e
    | .ok ms => .ok { ctl := c, moves := ms }

/-- A bundle from 32 bytes in memory order (R3, R29). -/
def decodeBytes (bs : List Byte) : Except (Nat × DecodeError) Bundle :=
  if bs.length = 32 then decodeBundle (BitVec.ofNat 256 (leNat bs)) else .error (0, .length)

/-- The instruction of one table word: 32 bits are a control slot where they are one, else a move slot (log 8); more bits are a
bundle, of which the first move that is not an empty slot is meant, or the control operation where every slot is empty. -/
def decodeTableWord (nbits w : Nat) : Option Instr :=
  if nbits ≤ 32 then
    match decodeCtl (BitVec.ofNat 32 w) 0 with
    | .ok i => some i
    | .error _ => (decodeMove (BitVec.ofNat 32 w) none).toOption
  else
    match decodeBundle (BitVec.ofNat 256 w) with
    | .error _ => none
    | .ok b =>
      match b.moves.find? fun i => decide (i ≠ .moveToRegister { inv := false, pred := 0 } (.reg { cls := .x, idx := 0 } false) { cls := .x, idx := 0 }) with
      | some i => some i
      | none => some b.ctl

/-! ## The encoder -/

/-- One bit as a number. -/
def b2n (b : Bool) : Nat := if b then 1 else 0

/-- The 14-bit source field (R37); a literal is 0x800 of the immediate kind. -/
def encodeSrc : Src → Nat
  | .reg r h => 2 ^ 9 * r.cls.num + 2 ^ 3 * r.idx.toNat + 2 ^ 2 * b2n h
  | .port s y h => 2 ^ 12 + 2 ^ 7 * s.toNat + 2 ^ 4 * y.toNat + 2 ^ 3 * b2n h
  | .imm v => 2 ^ 13 + v.toNat
  | .lit _ => 2 ^ 13 + 0x800
  | .stream f pk h => 3 * 2 ^ 12 + 2 ^ 6 * f.toNat + 2 ^ 5 * b2n pk + 2 ^ 4 * b2n h
  | .recvq q pk h => 3 * 2 ^ 12 + 2 ^ 10 + 2 ^ 6 * q.toNat + 2 ^ 5 * b2n pk + 2 ^ 4 * b2n h
  | .cq pk h => 3 * 2 ^ 12 + 2 * 2 ^ 10 + 2 ^ 5 * b2n pk + 2 ^ 4 * b2n h

/-- The 13-bit destination field (R38). -/
def encodeDest (i : Instr) : Nat :=
  match i with
  | .moveToRegister _ _ r => 2 ^ 8 * r.cls.num + 2 ^ 2 * r.idx.toNat
  | .moveToStream _ _ f => 2 ^ 11 + 2 ^ 7 * f.toNat
  | .moveToOperand _ _ s o => 2 ^ 12 + 2 ^ 7 * s.toNat + o.toNat
  | i =>
    match i.trigger with
    | some (s, code) => 2 ^ 12 + 2 ^ 7 * s + code
    | none => 0

/-- A move word (R35). -/
def encodeMove (i : Instr) : Option (BitVec 32) :=
  i.move.map fun (g, x) =>
    BitVec.ofNat 32 (2 ^ 31 * b2n g.inv + 2 ^ 27 * g.pred.toNat + 2 ^ 13 * encodeSrc x + encodeDest i)

/-- The op and operand of a control operation (R33). -/
def encodeOp : Instr → Nat
  | .ctlNop _ => 0
  | .ctlStall _ m => 1 * 2 ^ 21 + m.toNat
  | .ctlBra _ d => 2 * 2 ^ 21 + d.toNat
  | .ctlBrp _ p inv d => 3 * 2 ^ 21 + 2 ^ 17 * p.toNat + 2 ^ 16 * b2n inv + d.toNat
  | .ctlBri _ x => 4 * 2 ^ 21 + x.toNat
  | .ctlCall _ d => 5 * 2 ^ 21 + d.toNat
  | .ctlRet _ => 6 * 2 ^ 21
  | .ctlLoop _ body st t _ => 7 * 2 ^ 21 + 2 ^ 9 * body.toNat + 2 ^ 6 * st.toNat + t.toNat
  | .ctlLend _ b => 8 * 2 ^ 21 + b.toNat
  | .ctlLbrk _ => 9 * 2 ^ 21
  | .ctlWait _ idx sem => 10 * 2 ^ 21 + 2 ^ 15 * idx.toNat + 2 ^ 14 * b2n sem
  | .ctlTrap _ => 11 * 2 ^ 21
  | .ctlFmt _ f v => 12 * 2 ^ 21 + 2 ^ 16 * f.toNat + v.toNat
  | .ctlUiret _ => 13 * 2 ^ 21
  | .ctlStrokeend _ => 14 * 2 ^ 21
  | .ctlHalt _ => 15 * 2 ^ 21
  | .ctlSret _ => 16 * 2 ^ 21
  | _ => 0

/-- The number of a literal form (R30). -/
def Lit.num : Lit → Nat
  | .none => 0 | .w32 => 1 | .w64 => 2

/-- A control word (R30). -/
def encodeCtl (i : Instr) : Option (BitVec 32) :=
  i.head.map fun h =>
    BitVec.ofNat 32 (2 ^ 29 * h.xstall.toNat + 2 ^ 28 * b2n h.quiet + 2 ^ 26 * h.lit.num + encodeOp i)

/-- The literal value an instruction carries: a literal source's, or a loop's stride set (R32, R107). -/
def Instr.literal (i : Instr) : Option Word :=
  match i.move with
  | some (_, .lit v) => some v
  | _ => none

/-- The word of an instruction that has an encoding: a control slot or a move slot. -/
def encode (i : Instr) : Option (BitVec 32) :=
  match encodeCtl i with
  | some w => some w
  | none => encodeMove i

/-- The 32-bit words of a bundle's slots as one number, word 0 lowest (R29). -/
def encodeBundle (b : Bundle) (lit : Option Word) : BitVec 256 :=
  let form := (b.ctl.head.map CtlHead.lit).getD .none
  let ms := b.moves.map fun i => ((encodeMove i).getD 0).toNat
  let pad := ms ++ List.replicate (slotCount form - ms.length) 0
  let v := (lit.getD 0).toNat
  let tail := match form with
    | .none => []
    | .w32 => [v % 2 ^ 32]
    | .w64 => [v % 2 ^ 32, v / 2 ^ 32]
  BitVec.ofNat 256 (Machine.packNat 32 (((encodeCtl b.ctl).getD 0).toNat :: (pad ++ tail)))

end Sys2Proof
end

