-- ==== Sys2Proof/Machine/Lw.lean ====
section
/-!
DEFINITION. Machine/Lw.lean: handle accesses of lw0 and lw1, stream registers and their transfer units, and the service of the
banks of the well and the slice cycle by cycle (R16, R17, R211, R214, R224-R232, R416, R417).
-/
namespace Sys2Proof.Machine

/-! ## Accesses -/

/-- The level of a handle number (R212). -/
def handleLevel (h : Nat) : Nat := if h < 256 then 0 else if h < 768 then 1 else 2

/-- A handle address word (R224, R245). -/
def handleWord (h sz off : Nat) : Word := BitVec.ofNat 64 (h % 1024 + sz % 8 * 2 ^ 13 + off % 2 ^ 32 * 2 ^ 16)

/-- The entry that an access of n bytes at off reaches (R224). -/
def reachEntry (t : Tile) (h off n : Nat) : Option Entry :=
  match tfind t.table h with
  | some e => if off + n ≤ e.size then some e else none
  | none => none

/-- A refused handle access (R215): logged, and a late handle-state fault of the socket with the handle as detail. -/
def refuseHandle (s : State) (h kind off sock code slot : Nat) (addr : Word) : State :=
  let s := logHandle s (tfind s.cur.table h) h kind off
  onCur (fun t => addLate t { mkFault 15 sock code slot h with addr := addr }) s

/-- A poisoned word met by a load (R221, R310): logged. -/
def logPoison (s : State) (e : Entry) (off kind st : Nat) : State :=
  logRefusal s (storagePlace s e)
    { addr := storageWord e off, ctx := ctxNum s.cur, pos := logPos s.cur, kind := kind, time := tscOf s, st := st }

/-- A store performed at a handle's storage; one that R221 refuses is logged and noted in FSTAT and FADDR. -/
def storeNow (s : State) (e : Entry) (off : Nat) (bs : List Byte) (word : Word) : State :=
  match spaceWrite s e.space (e.off + off) bs with
  | some s' => s'
  | none => onCur (fun t => failStore t e.level false word) (logPoison s e off 2 4)

/-- A write of the comparator's list put before those that the tile issued after it (R311: issue order). -/
def insertChecked (w : CheckedWrite) : List CheckedWrite → List CheckedWrite
  | [] => [w]
  | c :: cs => if w.serial < c.serial then w :: c :: cs else c :: insertChecked w cs

/-- A store of the tile with the serial of its trigger: on a checked tile a write that leaves the tile waits for the partner's (R311). -/
def storeOut (s : State) (e : Entry) (off : Nat) (bs : List Byte) (word : Word) (serial : Nat) : State :=
  if bit s.cur.csr.status 7 && e.level ≠ 0 then
    onCur (fun t =>
      { t with checked := insertChecked { kind := 0, space := e.space, addr := e.off + off, data := bs, scope := e.level, word := word,
                                          serial := serial, age := 0 } t.checked }) s
  else storeNow s e off bs word

/-- The latency from the service of a load to its result (R211); at L2 the answer itself brings it. -/
def loadLatency (level : Nat) : Nat := match level with | 0 => 4 | 1 => 6 | _ => 0

/-- The lanes of a gath or scat that are not skipped: (lane, index) (R228). -/
def listLanes (size : Nat) (idx : Vec) : List (Nat × Nat) :=
  ((List.range (min 64 (128 / size))).map fun i => (i, lane 16 i idx)).filter fun q => decide (q.2 ≠ 0xFFFF)

/-- The access size of an access in flight. -/
def LwAcc.size (a : LwAcc) : Nat := sizeOf (fld a.word 13 3)
/-- Its handle. -/
def LwAcc.h (a : LwAcc) : Nat := fld a.word 0 10

/-- A load's value, or its poisoned fault (R221, R225). -/
def lwReadLanes (s : State) (e : Entry) (size : Nat) (offs : List (Nat × Nat)) : Option Vec :=
  if offs.any fun q => (spaceRead s e.space (e.off + q.2) size).2 then none
  else
    some (toVec (offs.foldl (fun v q => v + leNat (spaceRead s e.space (e.off + q.2) size).1 * 2 ^ (8 * size * q.1)) 0))

/-- A load finished: its result is due, or its fault is pending and the result is dropped. -/
def finishLoad (sock : Nat) (a : LwAcc) (e : Entry) (offs : List (Nat × Nat)) (s : State) : State :=
  match lwReadLanes s e a.size offs with
  | some v => onCur (fun t => answer t sock a.serial (loadLatency e.level) v) s
  | none =>
    let bad := ((offs.find? fun q => (spaceRead s e.space (e.off + q.2) a.size).2).map Prod.snd).getD a.off
    let s := logPoison s e bad 1 3
    onCur (fun t => addLate (dropResult t sock a.serial) { mkFault 17 sock a.code a.slot 0 with addr := handleWord a.h (fld a.word 13 3) bad }) s

/-- An access whose last row has been served takes effect at storage (R213-R215, R225, R227, R228). -/
def performLw (sock : Nat) (a : LwAcc) (s : State) : State :=
  let word := fun off => handleWord a.h (fld a.word 13 3) off
  let refuse := fun (kind off : Nat) (addr : Word) (s : State) =>
    refuseHandle (onCur (fun t => dropResult t sock a.serial) s) a.h kind off sock a.code a.slot addr
  if a.code = 14 ∨ a.code = 15 then
    match tfind s.cur.table a.h with
    | none => refuse (if a.code = 14 then 5 else 6) 0 (BitVec.ofNat 64 a.h) s
    | some e =>
      match handleEvent s e (if a.code = 14 then .seal else .release) with
      | some s' => s'
      | none => refuse (if a.code = 14 then 5 else 6) 0 (BitVec.ofNat 64 a.h) s
  else
    let load := a.code == 8 || a.code == 10 || a.code == 16
    let offs := if a.code = 16 ∨ a.code = 17 then (listLanes a.size a.idx).map fun q => (q.1, a.off + q.2 * a.size) else [(0, a.off)]
    let kind := if load then 1 else 2
    match offs.find? fun q => (reachEntry s.cur a.h q.2 a.size).isNone with
    | some q => refuse kind q.2 (word q.2) s
    | none =>
      match tfind s.cur.table a.h with
      | none => refuse kind a.off (word a.off) s
      | some e =>
        match handleEvent s e (if load then .read else .write) with
        | none => refuse kind a.off (word a.off) s
        | some s' =>
          if load then finishLoad sock a e offs s'
          else offs.foldl (fun s q => storeOut s e q.2 (leBytes a.size (fld a.data (8 * a.size * q.1) (8 * a.size))) (word q.2) a.serial) s'

/-! ## Triggers -/

/-- Accesses of a socket in flight (R226): those not served, and results served but not yet on the port. -/
def lwInFlight (t : Tile) (sock : Nat) : Nat :=
  (tget [] t.lw sock).length + ((portOf (sockOf t sock) 0).fifo.filter fun r => match r.due with | .cycles _ => true | _ => false).length

/-- The bank rows of n bytes at off (R211, R416). -/
def rowsOf (off n : Nat) : List Nat := (List.range ((off + n - 1) / 64 - off / 64 + 1)).map fun i => off / 64 + i

/-- An access joins its socket's queue (R226). -/
def lwQueue (sock : Nat) (result : Bool) (a : LwAcc) (t : Tile) : Res Tile :=
  if 8 ≤ lwInFlight t sock then .freeze
  else
    (accepts t sock a.code (if result then [0] else [])).bind fun _ =>
      let (k, t) := bumpSerial t
      let t := { t with lw := tset [] t.lw sock (tget [] t.lw sock ++ [{ a with serial := k, issue := t.perf.issue }]) }
      .ok (if result then awaitResult t sock k else t)

/-- The socket number of an lw operation. -/
def lwSock (n : Bool) : Nat := if n then 12 else 11

/-- An element access (R224, R225): `index` is added in units of the access size, modulo 2^64. -/
def fireElement (n : Bool) (code : Nat) (ports : List Nat) (dataAt indexAt : Option Nat) (result : Bool) : Fire := fun slot held b s =>
  (takeOperands s.cur (lwSock n) code slot held ports).bind fun q =>
    let w := vecWord b
    let size := sizeOf (fld w 13 3)
    let i := (indexAt.map fun k => (vecWord (opAt q.1 k)).toNat).getD 0
    let off := (fld w 16 32 + i * size) % 2 ^ 64
    if off % size ≠ 0 then
      .fault { mkFault 16 (lwSock n) code slot (off % 2 ^ 32) with addr := handleWord (fld w 0 10) (fld w 13 3) off }
    else
      let a : LwAcc :=
        { code := code, word := w, off := off, data := ((dataAt.map (opAt q.1)).getD 0), idx := 0,
          rows := rowsOf off size, serial := 0, slot := slot, issue := 0 }
      (lwQueue (lwSock n) result a q.2).bind fun t => .ok { s with cur := t }

/-- A state operation (R227). -/
def fireState (n : Bool) (code : Nat) : Fire := fun slot _ b s =>
  let a : LwAcc := { code := code, word := BitVec.ofNat 64 (fld b 0 10), off := 0, data := 0, idx := 0, rows := [], serial := 0, slot := slot, issue := 0 }
  (lwQueue (lwSock n) false a s.cur).bind fun t => .ok { s with cur := t }

/-- A list access (R228): one bank row for each distinct row of its lanes, in the order of each row's lowest lane. -/
def fireList (n : Bool) (code : Nat) (ports : List Nat) (dataAt : Option Nat) (indexAt : Nat) (result : Bool) : Fire := fun slot held b s =>
  (takeOperands s.cur (lwSock n) code slot held ports).bind fun q =>
    let w := vecWord b
    let size := sizeOf (fld w 13 3)
    let off := fld w 16 32
    let idx := opAt q.1 indexAt
    if 4 < fld w 13 3 then .fault (mkFault 1 (lwSock n) code slot 0)
    else if off % size ≠ 0 then
      .fault { mkFault 16 (lwSock n) code slot off with addr := handleWord (fld w 0 10) (fld w 13 3) off }
    else
      let rows := ((listLanes size idx).map fun q => (off + q.2 * size) / 64).foldl (fun rs r => if r ∈ rs then rs else rs ++ [r]) []
      let a : LwAcc :=
        { code := code, word := w, off := off, data := ((dataAt.map (opAt q.1)).getD 0), idx := idx,
          rows := if rows = [] then [off / 64] else rows, serial := 0, slot := slot, issue := 0 }
      (lwQueue (lwSock n) result a q.2).bind fun t => .ok { s with cur := t }

/-- bind (R229). -/
def fireBind (n : Bool) : Fire := fun slot held b s =>
  (takeOperands s.cur (lwSock n) 12 slot held [0, 1, 2]).bind fun q =>
    let w := vecWord b
    let f := fld w 0 4
    let dims := fld w 8 2 + 1
    let counts := (List.range dims).map fun k => fld (opAt q.1 0) (16 * k) 16
    let strides := (List.range dims).map fun k => sintOf 16 (fld (opAt q.1 1) (16 * k) 16)
    if counts.any fun c => c == 0 then .fault (mkFault 1 (lwSock n) 12 slot 0)
    else if streamHeld s.cur f || ttHolds s.cur (fld w 16 10) s.cur.serial then .freeze
    else if (tfind s.cur.streams f).isSome then .fault (streamFault (lwSock n) 12 slot f)
    else
      let st : Stream :=
        { h := fld w 16 10, write := bit w 4, esz := fld w 5 3, counts := counts, strides := strides, base := fld (opAt q.1 2) 0 32,
          buf := [], coming := [], rows := 0, moved := 0, unit := 0, stopped := false, fresh := true }
      .ok { s with cur := { q.2 with streams := tput q.2.streams f st } }

/-- unbind (R232). -/
def fireUnbind (n : Bool) : Fire := fun slot _ b s =>
  let f := fld b 0 4
  match tfind s.cur.streams f with
  | none => .fault (streamFault (lwSock n) 13 slot f)
  | some st =>
    if streamHeld s.cur f then .freeze
    else if st.write && !st.stopped && st.buf ≠ [] then .freeze
    else
      (accepts s.cur (lwSock n) 13 [0]).bind fun _ =>
        let t := { s.cur with streams := tdel s.cur.streams f, gm := s.cur.gm.map fun e =>
                    if e.isFence then { e with lanes := e.lanes.filter fun q => decide (q.1 ≠ f) } else e }
        .ok { s with cur := deliver t (lwSock n) 13 0 2 (toVec (if st.write then st.unit else st.moved)) none }

/-! ## Transfer units -/

/-- The element the unit of a stream works on next, if it may make an access now (R231, R417): its offset. A fence of LS that has not
completed holds the fetches of every stream (R243). -/
def streamWants (t : Tile) (f : Nat) (st : Stream) : Option Int :=
  if st.fresh then none
  else if st.write then
    (if st.buf = [] || st.stopped || (match fenceLimit t f with | some n => decide (n ≤ st.unit) | none => false) then none else some (elemOff st st.unit))
  else if st.buf.length + st.coming.length < 8 ∧ st.unit < walkLen st ∧ (t.gm.all fun e => !e.fences 0) then some (elemOff st st.unit)
  else none

/-- A fetched element on its way, in walk order (R417). -/
def fetched (st : Stream) (lat : Nat) (v : Vec) (cause : Nat) : Stream :=
  let last := ((st.coming.getLast?).map Prod.fst).getD 0
  { st with coming := st.coming ++ [(max lat last, v, cause)], unit := st.unit + 1, rows := 0 }

/-- The unit's access at storage for a stream bound for reading (R231). -/
def performFetch (f : Nat) (s : State) : State :=
  match tfind s.cur.streams f with
  | none => s
  | some st =>
    let put := fun (lat : Nat) (v : Vec) (c : Nat) (s : State) =>
      onCur (fun t => { t with streams := tput t.streams f (fetched st lat v c) }) s
    let off := elemOff st st.unit
    let lat := loadLatency (handleLevel st.h)
    match tfind s.cur.table st.h with
    | none => put (max 1 lat) 0 15 (logHandle s none st.h 1 off.toNat)
    | some e =>
      if !elemOk s.cur st st.unit then put 1 0 18 s
      else
        match handleEvent s e .read with
        | none => put (max 1 lat) 0 15 (logHandle s (some e) st.h 1 off.toNat)
        | some s' =>
          let r := spaceRead s' e.space (e.off + off.toNat) (sizeOf st.esz)
          if r.2 then put (max 1 lat) 0 17 (logPoison s' e off.toNat 1 3) else put (max 1 lat) (bytesVec r.1) 0 s'

/-- The unit's access at storage for a stream bound for writing (R231): a store that R213 refuses stops the stream. -/
def performStore (f : Nat) (s : State) : State :=
  match tfind s.cur.streams f with
  | none => s
  | some st =>
    match st.buf with
    | [] => s
    | (v, _) :: rest =>
      let off := (elemOff st st.unit).toNat
      let stop := fun (e : Option Entry) (s : State) =>
        let s := logHandle s e st.h 2 off
        onCur (fun t =>
          addLate { t with streams := tput t.streams f { st with buf := [], stopped := true, rows := 0 } }
            { mkFault 15 0 0 0 st.h with addr := handleWord st.h st.esz off }) s
      match reachEntry s.cur st.h off (sizeOf st.esz) with
      | none => stop (tfind s.cur.table st.h) s
      | some e =>
        match handleEvent s e .write with
        | none => stop (some e) s
        | some s' =>
          let s' := onCur (fun t => { t with streams := tput t.streams f { st with buf := rest, unit := st.unit + 1, rows := 0 } }) s'
          storeOut s' e off (leBytes (sizeOf st.esz) v.toNat) (handleWord st.h st.esz off) s'.cur.serial

/-- The unit's access, by direction. -/
def performStream (f : Nat) (s : State) : State :=
  match tfind s.cur.streams f with
  | some st => if st.write then performStore f s else performFetch f s
  | none => s

/-! ## Banks (R16, R17, R211, R416, R417) -/

/-- The bank of a row at a level. -/
def bankOf (level row : Nat) : Nat := if level = 0 then row % 8 else row % 16

/-- Whether the tile may use a bank in this cycle: any cycle in the well, its own slot in the slice (R16). -/
def slotOpen (t : Tile) (level bank : Nat) : Bool :=
  if level = 0 then true else (t.wheel + bank) % 20 == ringPos t.id

/-- One access takes its bank, if the bank is open and free. -/
def takeBank (t : Tile) (taken : List (Nat × Nat)) (level row : Nat) : Option (List (Nat × Nat)) :=
  let k := (level, bankOf level row)
  if slotOpen t level k.2 && decide (k ∉ taken) then some (k :: taken) else none

/-- Rows zeroed in storage (R355). Where the handle has been freed meanwhile its storage may be another's, and the rows only pass. -/
def zeroRows (z : Zeroing) (rows : List Nat) (s : State) : State :=
  let e := z.entry
  if tfind s.cur.table z.h ≠ some e then s
  else
    rows.foldl (fun s r => putSpace s e.space (mwrite (spaceMem s e.space) (e.off + 64 * r) (List.replicate 64 0))
      (poisonCleared (spacePoison s e.space) 8 (e.off + 64 * r) 64)) s

/-- The zeroing of halloc in one cycle: from the cycle after it takes effect, at L0 eight rows and every bank; at L1
the first row whose slot is now (R355). -/
def serveZero (s : State) : State × List (Nat × Nat) :=
  s.cur.zero.foldl (fun (r : State × List (Nat × Nat)) z =>
    let put := fun (left : List Nat) (s : State) =>
      onCur (fun t => { t with zero := t.zero.map fun y => if y.serial = z.serial then { y with left := left } else y }) s
    if z.fresh then r
    else if z.entry.level = 0 then
      (put (z.left.drop 8) (zeroRows z (z.left.take 8) r.1), (List.range 8).map (fun b => (0, b)) ++ r.2)
    else if z.entry.level = 1 then
      match z.left.find? fun row => (takeBank r.1.cur r.2 1 row).isSome with
      | none => r
      | some row => (put (z.left.erase row) (zeroRows z [row] r.1), (1, bankOf 1 row) :: r.2)
    else r) (s, [])

/-- The mark of the cycle in which a halloc took effect goes. -/
def ageZero (t : Tile) : Tile := { t with zero := t.zero.map fun z => { z with fresh := false } }

/-- Zeroings that are finished give their results, due 2 cycles later (R355). -/
def zeroDone (s : State) : State :=
  let done := s.cur.zero.filter fun z => z.left.isEmpty
  onCur (fun t =>
    done.foldl (fun t z => answer t 17 z.serial 2 (toVec z.h)) { t with zero := t.zero.filter fun z => !z.left.isEmpty }) s

/-- The bytes of a handle that an access touches, as pieces (offset, length). -/
def LwAcc.pieces (a : LwAcc) : List (Nat × Nat) :=
  if a.code = 14 ∨ a.code = 15 then []
  else if a.code = 16 ∨ a.code = 17 then (listLanes a.size a.idx).map fun q => (a.off + q.2 * a.size, a.size)
  else [(a.off, a.size)]

/-- Two accesses of the tile touch a common byte, through one handle or two entries of shared storage. -/
def lwMeets (t : Tile) (a b : LwAcc) : Bool :=
  match tfind t.table a.h, tfind t.table b.h with
  | some e, some f =>
    e.space == f.space && a.pieces.any fun p => b.pieces.any fun q => decide (e.off + p.1 < f.off + q.1 + q.2 ∧ f.off + q.1 < e.off + p.1 + p.2)
  | _, _ => false

/-- Access b of socket m comes before access a of socket n in program order (R259): trigger order; within one bundle lw0 before lw1. -/
def lwBefore (m : Nat) (b : LwAcc) (n : Nat) (a : LwAcc) : Bool :=
  if m ≠ n ∧ a.issue = b.issue then decide (m < n) else decide (b.serial < a.serial)

/-- An access of the other socket that comes before one and touches a byte of it has not been served (R259, R265). -/
def lwFollows (t : Tile) (sock : Nat) (a : LwAcc) : Bool :=
  t.lw.any fun e => e.1 != sock && e.2.any fun b => lwBefore e.1 b sock a && lwMeets t a b

/-- A fence, an acquire, a tt operation or an access to a common byte before an access holds it (R243, R259, R355). -/
def lwHeld (t : Tile) (sock : Nat) (a : LwAcc) : Bool :=
  fenceHolds t 0 a.serial || acquireHolds t a.serial || ttHolds t a.h a.serial || lwFollows t sock a

/-- The row of an access that is served next: of an element the first whose bank it can take in this cycle, of a list the first in order
(R226, R228). -/
def nextRow (t : Tile) (taken : List (Nat × Nat)) (level : Nat) (a : LwAcc) : Option (Nat × List (Nat × Nat)) :=
  let rows := if a.code = 16 ∨ a.code = 17 then a.rows.take 1 else a.rows
  rows.findSome? fun r => (takeBank t taken level r).map fun k => (r, k)

/-- The oldest access of a socket takes its bank (R226): the banks taken, and the access when its last row is served. -/
def serveLw (sock : Nat) (r : State × List (Nat × Nat)) : State × List (Nat × Nat) × Option LwAcc :=
  match tget [] r.1.cur.lw sock with
  | [] => (r.1, r.2, none)
  | a :: rest =>
    let level := handleLevel a.h
    let drop := onCur (fun t => { t with lw := tset [] t.lw sock rest }) r.1
    if level = 2 || lwHeld r.1.cur sock a then (r.1, r.2, none)
    else if a.rows = [] then (drop, r.2, some a)
    else
      match nextRow r.1.cur r.2 level a with
      | none => (r.1, r.2, none)
      | some (row, k) =>
        if a.rows = [row] then (drop, k, some a)
        else (onCur (fun t => { t with lw := tset [] t.lw sock ({ a with rows := a.rows.erase row } :: rest) }) r.1, k, none)

/-- The units of the streams take banks in ascending number (R417): the streams whose element's last row is served. -/
def serveStreams (r : State × List (Nat × Nat)) : State × List Nat :=
  let q := (List.range 16).foldl (fun (q : State × List (Nat × Nat) × List Nat) f =>
    match tfind q.1.cur.streams f with
    | none => q
    | some st =>
      match streamWants q.1.cur f st with
      | none => q
      | some off =>
        let level := handleLevel st.h
        if level = 2 then q
        else if !elemOk q.1.cur st st.unit then (q.1, q.2.1, q.2.2 ++ [f])
        else
          match takeBank q.1.cur q.2.1 level (off.toNat / 64 + st.rows) with
          | none => q
          | some k =>
            if 64 * (st.rows + 1) < sizeOf st.esz then
              (onCur (fun t => { t with streams := tput t.streams f { st with rows := st.rows + 1 } }) q.1, k, q.2.2)
            else (q.1, k, q.2.2 ++ [f])) (r.1, r.2, [])
  (q.1, q.2.2)

/-- Fetched elements arrive; the mark of the bind's own cycle goes (R417). -/
def tickStreams (t : Tile) : Tile :=
  { t with streams := t.streams.map fun e =>
      let st := e.2
      let cs := st.coming.map fun c => (c.1 - 1, c.2)
      (e.1, { st with fresh := false, buf := st.buf ++ (cs.filter fun c => decide (c.1 = 0)).map Prod.snd,
                      coming := cs.filter fun c => decide (c.1 ≠ 0) }) }

/-- The service of one cycle: banks are granted to zeroing, lw0, lw1 and the streams (R17); then the effects reach storage in the
order streams, lw0, lw1 (R214). -/
def serveBanks (s : State) : State :=
  if s.cur.zero = [] ∧ s.cur.lw = [] ∧ s.cur.streams = [] then s
  else
    let a := serveZero s
    let b := serveLw 11 a
    let c := serveLw 12 (b.1, b.2.1)
    let d := serveStreams (c.1, c.2.1)
    let s := d.2.foldl (fun s f => performStream f s) d.1
    let s := match b.2.2 with | some x => performLw 11 x s | none => s
    let s := match c.2.2 with | some x => performLw 12 x s | none => s
    onCur tickStreams (zeroDone s)

/-- ld (R225). -/
def fireLwLd (n : Bool) : Fire := fireElement n 8 [] none none true
/-- LW_LD (R225). -/
def execLwLd (g : Guard) (x : Src) (n : Bool) (s : State) : Host.Outcome State Fault Refusal :=
  runMove (.lwLd g x n) g x (fireLwLd n) s

/-- st (R225). -/
def fireLwSt (n : Bool) : Fire := fireElement n 9 [0] (some 0) none false
/-- LW_ST (R225). -/
def execLwSt (g : Guard) (x : Src) (n : Bool) (s : State) : Host.Outcome State Fault Refusal :=
  runMove (.lwSt g x n) g x (fireLwSt n) s

/-- ldx (R225). -/
def fireLwLdx (n : Bool) : Fire := fireElement n 10 [0] none (some 0) true
/-- LW_LDX (R225). -/
def execLwLdx (g : Guard) (x : Src) (n : Bool) (s : State) : Host.Outcome State Fault Refusal :=
  runMove (.lwLdx g x n) g x (fireLwLdx n) s

/-- stx (R225). -/
def fireLwStx (n : Bool) : Fire := fireElement n 11 [0, 1] (some 0) (some 1) false
/-- LW_STX (R225). -/
def execLwStx (g : Guard) (x : Src) (n : Bool) (s : State) : Host.Outcome State Fault Refusal :=
  runMove (.lwStx g x n) g x (fireLwStx n) s

/-- bind (R229). -/
def fireLwBind (n : Bool) : Fire := fireBind n
/-- LW_BIND (R229). -/
def execLwBind (g : Guard) (x : Src) (n : Bool) (s : State) : Host.Outcome State Fault Refusal :=
  runMove (.lwBind g x n) g x (fireLwBind n) s

/-- unbind (R232). -/
def fireLwUnbind (n : Bool) : Fire := fireUnbind n
/-- LW_UNBIND (R232). -/
def execLwUnbind (g : Guard) (x : Src) (n : Bool) (s : State) : Host.Outcome State Fault Refusal :=
  runMove (.lwUnbind g x n) g x (fireLwUnbind n) s

/-- seal (R227). -/
def fireLwSeal (n : Bool) : Fire := fireState n 14
/-- LW_SEAL (R227). -/
def execLwSeal (g : Guard) (x : Src) (n : Bool) (s : State) : Host.Outcome State Fault Refusal :=
  runMove (.lwSeal g x n) g x (fireLwSeal n) s

/-- release (R227). -/
def fireLwRelease (n : Bool) : Fire := fireState n 15
/-- LW_RELEASE (R227). -/
def execLwRelease (g : Guard) (x : Src) (n : Bool) (s : State) : Host.Outcome State Fault Refusal :=
  runMove (.lwRelease g x n) g x (fireLwRelease n) s

/-- gath (R228). -/
def fireLwGath (n : Bool) : Fire := fireList n 16 [0] none 0 true
/-- LW_GATH (R228). -/
def execLwGath (g : Guard) (x : Src) (n : Bool) (s : State) : Host.Outcome State Fault Refusal :=
  runMove (.lwGath g x n) g x (fireLwGath n) s

/-- scat (R228). -/
def fireLwScat (n : Bool) : Fire := fireList n 17 [0, 1] (some 0) 1 false
/-- LW_SCAT (R228). -/
def execLwScat (g : Guard) (x : Src) (n : Bool) (s : State) : Host.Outcome State Fault Refusal :=
  runMove (.lwScat g x n) g x (fireLwScat n) s

end Sys2Proof.Machine
end

