-- ==== Sys2Proof/Machine/Mesh.lean ====
section
/-!
DEFINITION. Machine/Mesh.lean: what carries traffic between tiles, dies and cisterns: links with the credits of their channels (R370), the
attachments and the aqueduct (R8, R9), the routing tables (R320) and the cycles that circuits reserve (R20, R319).

Links are numbered (log 19): fabric ports 0-17; mesh port p (0 north, 1 east, 2 south, 3 west) of router r of die d 64 + 64 d + 4 r + p,
outward; die-to-die 1024 + 8 a + b, from a to b; compute to cistern 2048 + 16 d + c; aqueduct 4096 + i, from ring position i to the next. A
link with one number has 8192 more for its other direction.
-/
namespace Sys2Proof.Machine

/-! ## Where links are (R7-R9) -/

/-- The cisterns attached to a die (R8): dies 0-3 stand at m0-m3, dies 4-7 at b0-b3. -/
def attached (s : State) (die : Nat) : List Nat :=
  let l := if die < 4 then [2 * die, 2 * die + 1, 8 + die]
    else [2 * (die - 4), 2 * (die - 4) + 1, (2 * (die - 4) + 2) % 8]
  l.filter fun c => decide (c ∈ s.dev.cisterns)

/-- The cisterns in the order of the aqueduct's ring (R9). -/
def ringOrder (s : State) : List Nat := if s.dev.variantH then [0, 1, 2, 3, 4, 5, 6, 7] else [0, 1, 8, 2, 3, 9, 4, 5, 10, 6, 7, 11]

/-- A compute die that the package has (R7). -/
def diePresent (s : State) (d : Nat) : Bool :=
  match s.dev.dies[d]? with | some x => !(s.dev.variantH && x.m) | none => false

/-- Mesh port p of router r of die d. -/
def meshLink (d r p : Nat) : Nat := 64 + 64 * d + 4 * r + p
/-- The link from die a to die b. -/
def dieLink (a b : Nat) : Nat := 1024 + 8 * a + b
/-- The link between a die and a cistern, toward the cistern. -/
def homeLink (d c : Nat) : Nat := 2048 + 16 * d + c
/-- The aqueduct's link from a ring position to the next. -/
def ringLink (i : Nat) : Nat := 4096 + i
/-- The other direction of a link that has one number. -/
def wayBack (k : Nat) : Nat := if 8192 ≤ k then k - 8192 else 8192 + k

/-- A link of a fabric port. -/
def isPort (k : Nat) : Bool := decide (k < 18)

/-- The router beside a router, over a port. -/
def neighbour (r p : Nat) : Option Nat :=
  match p with
  | 0 => if 4 ≤ r then some (r - 4) else none
  | 1 => if r % 4 < 3 then some (r + 1) else none
  | 2 => if r < 12 then some (r + 4) else none
  | 3 => if 0 < r % 4 then some (r - 1) else none
  | _ => none

/-- The router and the edge port that face the adapter of die d toward die x: where the adapters stand is not given (log 19). -/
def adapterAt (d x : Nat) : Nat × Nat :=
  let n := Config.adapterPlace d x % 16
  match n / 4 with
  | 0 => (n % 4, 0)
  | 1 => (4 * (n % 4) + 3, 1)
  | 2 => (12 + n % 4, 2)
  | _ => (4 * (n % 4), 3)

/-- The package has a link of this number: an edge port that faces no adapter is idle (01 The die mesh), and a die has links only to the
cisterns that it attaches to (R8). -/
def linkExists (s : State) (k : Nat) : Bool :=
  let b := k % 8192
  if b < 18 then true
  else if 64 ≤ b ∧ b < 576 then
    let d := (b - 64) / 64
    let r := (b - 64) / 4 % 16
    let p := (b - 64) % 4
    diePresent s d && if (neighbour r p).isSome then decide (k < 8192) else (List.range 8).any fun x => x != d && diePresent s x && adapterAt d x == (r, p)
  else if 1024 ≤ b ∧ b < 1088 then
    decide (k < 8192 ∧ (b - 1024) / 8 ≠ (b - 1024) % 8) && diePresent s ((b - 1024) / 8) && diePresent s ((b - 1024) % 8)
  else if 2048 ≤ b ∧ b < 2176 then diePresent s ((b - 2048) / 16) && decide ((b - 2048) % 16 ∈ attached s ((b - 2048) / 16))
  else decide (4096 ≤ b ∧ b < 4096 + (ringOrder s).length)

/-- The number of a link's other direction. -/
def reverseLink (k : Nat) : Nat :=
  if 64 ≤ k ∧ k < 576 then
    match neighbour ((k - 64) / 4 % 16) ((k - 64) % 4) with
    | some r => meshLink ((k - 64) / 64) r (((k - 64) % 4 + 2) % 4)
    | none => wayBack k
  else if 1024 ≤ k ∧ k < 1088 then dieLink ((k - 1024) % 8) ((k - 1024) / 8)
  else wayBack k

/-- The compute dies at a link's ends. An aqueduct link has cisterns at both (R9). -/
def linkDies (k : Nat) : List Nat :=
  let b := k % 8192
  if b < 64 then []
  else if b < 576 then [(b - 64) / 64]
  else if 1024 ≤ b ∧ b < 1088 then [(b - 1024) / 8, (b - 1024) % 8]
  else if 2048 ≤ b ∧ b < 2176 then [(b - 2048) / 16]
  else []

/-- The cisterns at a link's ends (R8, R9). -/
def linkCisterns (s : State) (k : Nat) : List Nat :=
  let b := k % 8192
  let ring := ringOrder s
  if 2048 ≤ b ∧ b < 2176 then [(b - 2048) % 16]
  else if 4096 ≤ b ∧ b < 4096 + ring.length then [ring.getD (b - 4096) 0, ring.getD ((b - 4096 + 1) % ring.length) 0]
  else []

/-! ## Credits (R370, R371) -/

/-- A link by number. -/
def linkOf (s : State) (k : Nat) : Link := tget Link.reset s.dev.links k
/-- A link written back. -/
def putLink (k : Nat) (l : Link) (s : State) : State := { s with dev := { s.dev with links := tset Link.reset s.dev.links k l } }
/-- A living link. -/
def Link.alive (l : Link) : Bool := l.trained && !l.dead
/-- A channel with a buffer depth, as training leaves it (R370). -/
def trainedChannel (d : BitVec 8) : Channel := { d := d, h := d, occ := 0, sc := 0, rc := 0, back := 0, audit := none, last := none }
/-- A channel of a link. -/
def chanOf (l : Link) (v : Nat) : Channel := tget (trainedChannel 0) l.chans v
/-- A channel written back. -/
def putChan (v : Nat) (c : Channel) (l : Link) : Link := { l with chans := tset (trainedChannel 0) l.chans v c }
/-- A channel of a trained link changed; an untrained link counts nothing. -/
def onChan (k v : Nat) (f : Channel → Channel) (s : State) : State :=
  let l := linkOf s k
  if l.trained then putLink k (putChan v (f (chanOf l v)) l) s else s

/-- The slots that a packet of so many flits holds of a channel's buffer. -/
def slotsFor (c : Channel) (n : Nat) : Nat := min n c.d.toNat
/-- Flits sent: the sender's credits fall, and they occupy the receiver's buffer. -/
def sendFlits (n : Nat) (c : Channel) : Channel :=
  { c with h := c.h - BitVec.ofNat 8 (slotsFor c n), occ := c.occ + BitVec.ofNat 8 (slotsFor c n) }
/-- The receiver frees their slots and returns the credits, which are on their way until the sender has them (R379). -/
def freeFlits (n : Nat) (c : Channel) : Channel :=
  let m := slotsFor c n
  { c with occ := c.occ - BitVec.ofNat 8 m, sc := c.sc + BitVec.ofNat 16 m, back := c.back + BitVec.ofNat 8 m }

/-- A link takes a packet of so many flits of a channel: it is not dead, and its sender holds the credits. -/
def linkTakes (s : State) (v n k : Nat) : Bool :=
  let l := linkOf s k
  !l.dead && (!l.trained || decide (slotsFor (chanOf l v) n ≤ (chanOf l v).h.toNat))

/-- A packet has gone over links one after the other: it holds the last one's buffer. -/
def goOver (v n : Nat) : List Nat → State → State
  | [], s => s
  | [k], s => onChan k v (sendFlits n) s
  | k :: ks, s => goOver v n ks (onChan k v (fun c => freeFlits n (sendFlits n c)) s)

/-- A packet leaves the buffer that it holds. -/
def leaveBuffer (v n : Nat) (k : Option Nat) (s : State) : State :=
  match k with | some k => onChan k v (freeFlits n) s | none => s

/-! ## The way to a home (R8, R9, R320) -/

/-- The aqueduct's links from a cistern to another in ascending ring position. -/
def ringUp (n i : Nat) : Nat → List Nat
  | 0 => []
  | k + 1 => ringLink i :: ringUp n ((i + 1) % n) k
/-- The aqueduct's links in descending ring position. -/
def ringDown (n i : Nat) : Nat → List Nat
  | 0 => []
  | k + 1 => wayBack (ringLink ((i + n - 1) % n)) :: ringDown n ((i + n - 1) % n) k

/-- The two ways round the ring between cisterns, the shorter first, and on a tie that of ascending ring position (R9). -/
def ringWays (s : State) (a b : Nat) : List (List Nat) :=
  let ring := ringOrder s
  let n := ring.length
  let i := ring.idxOf a
  let up := (ring.idxOf b + n - i) % n
  if up ≤ n - up then [ringUp n i up, ringDown n i (n - up)] else [ringDown n i (n - up), ringUp n i up]

/-- The first of the shortest lists. -/
def shortest : List (List Nat) → Option (List Nat)
  | [] => none
  | w :: ws => match shortest ws with | some x => if x.length < w.length then some x else some w | none => some w

/-- The links from a compute die to a cistern that are not dead: its own link, or an attached cistern's and the aqueduct from there (R9,
R322); which attached one it enters at, where several are as near, is not given (log 19). -/
def homePath (s : State) (d c : Nat) : Option (List Nat) :=
  let ways := (attached s d).flatMap fun a => (if a = c then [[]] else ringWays s a c).map fun w => homeLink d a :: w
  shortest (ways.filter fun w => w.all fun k => !(linkOf s k).dead)

/-- The same links on the way back. -/
def pathBack (ks : List Nat) : List Nat := (ks.map reverseLink).reverse

/-- The flits of a request or a reply with so many bytes of data (log 19). -/
def flitsOf (bytes : Nat) : Nat := 1 + (bytes + 63) / 64

/-- A die's traffic with a cistern can leave on a channel: there is a way, and its links have the credits. -/
def homeOpen (s : State) (d c v n : Nat) (back : Bool) : Bool :=
  match homePath s d c with
  | some ks => (if back then pathBack ks else ks).all (linkTakes s v n)
  | none => false

/-- Flits have gone all the way between a die and a cistern, and have left the last buffer. -/
def crossHome (d c v n : Nat) (back : Bool) (s : State) : State :=
  match homePath s d c with
  | some ks => let ks := if back then pathBack ks else ks; leaveBuffer v n ks.getLast? (goOver v n ks s)
  | none => s

/-! ## Routing tables (R294, R320) -/

/-- The router of a tile's cluster. -/
def routerOf (i : TileId) : Nat := i.row / 4 * 4 + i.col / 4

/-- The die over whose adapter a die's traffic for another goes, as its adapters' table says: the key is 512 and the die, the value the
die and 1. -/
def viaDie (s : State) (d y : Nat) : Nat :=
  match tget 0 (((s.dev.dies[d]?).map Die.routes).getD []) (512 + y) with
  | 0 => y
  | k + 1 => k

/-- The port toward a router along the row first and then along the column (R294); 4 is the cluster's side. -/
def rowFirst (r dest : Nat) : Nat :=
  if r % 4 < dest % 4 then 1 else if dest % 4 < r % 4 then 3 else if r / 4 < dest / 4 then 2 else if dest / 4 < r / 4 then 0 else 4

/-- The port that a router's table gives for a router of its die: row-first, where the firmware has written no other (R320). The key is 32
times the router and the destination, the value the port and 1. -/
def innerPort (s : State) (d r dest : Nat) : Nat :=
  match tget 0 (((s.dev.dies[d]?).map Die.routes).getD []) (32 * r + dest) with
  | k + 1 => k
  | 0 => rowFirst r dest

/-- The port that a router's table gives toward another die: that of the edge that faces the adapter, or the port toward that router (R320). -/
def outerPort (s : State) (d r y : Nat) : Nat :=
  let a := adapterAt d (viaDie s d y)
  if r = a.1 then a.2 else innerPort s d r a.1

/-- What stands between a packet and its destination: nothing, no way, or the links to the next router with its die. -/
inductive Hop where
  | here
  | stuck
  | across (links : List Nat) (die router : Nat)
  deriving DecidableEq, Repr

/-- The next hop of a packet at a router, as the tables say. An adapter's hop goes out at the edge, over the die-to-die link and in at the
other die's edge. -/
def hopFrom (s : State) (d r : Nat) (dst : TileId) : Hop :=
  if d = dst.die then
    if r = routerOf dst then .here
    else let p := innerPort s d r (routerOf dst); match neighbour r p with | some q => .across [meshLink d r p] d q | none => .stuck
  else
    let p := outerPort s d r dst.die
    let z := viaDie s d dst.die
    if adapterAt d z = (r, p) then
      let b := adapterAt z d
      .across [meshLink d r p, dieLink d z, wayBack (meshLink z b.1 b.2)] z b.1
    else match neighbour r p with | some q => .across [meshLink d r p] d q | none => .stuck

/-! ## Circuits' cycles (R20, R319) -/

/-- A router output that a route takes: router row, router column, and 0-3 for north, east, south, west or 4 toward the cluster. -/
abbrev Output := Nat × Nat × Nat

/-- The outputs of a route from a cluster to another, along its row and then along its column (R294, R319). -/
def routeFrom : Nat → Nat → Nat → Nat → Nat → List Output
  | 0, _, _, _, _ => []
  | k + 1, r, c, r', c' =>
    if c < c' then (r, c, 1) :: routeFrom k r (c + 1) r' c'
    else if c' < c then (r, c, 3) :: routeFrom k r (c - 1) r' c'
    else if r < r' then (r, c, 2) :: routeFrom k (r + 1) c r' c'
    else if r' < r then (r, c, 0) :: routeFrom k (r - 1) c r' c'
    else [(r, c, 4)]

/-- The route of a circuit's branch. -/
def routeTo (pos row col : Nat) : List Output := routeFrom 8 (pos / 16 / 4) (pos % 16 / 4) (row / 4) (col / 4)

/-- The destinations of a circuit. -/
def circuitDests (c : Circuit) : List (Nat × Nat) := block c.row c.col (2 ^ c.lh) (2 ^ c.lw)

/-- The routes of a circuit of the tile at a position, by destination: row-first, or as the last reroute left them (R319, R322). -/
def circuitRoutes (pos : Nat) (c : Circuit) : List (List Output) :=
  if c.route = [] then (circuitDests c).map fun d => routeTo pos d.1 d.2 else c.route

/-- The router outputs and mesh cycles of the revolution that a circuit occupies: a branch that shares an output shares the flit. -/
def occupied (rev : Nat) (q : Nat × Circuit) : List (Output × Nat) :=
  ((circuitRoutes q.1 q.2).flatMap fun w =>
    w.zipIdx.flatMap fun o => q.2.offs.map fun x => (o.1, (x + Config.routeLatency o.2) % max 1 rev)).eraseDups

/-- No two circuits occupy one output in one mesh cycle (R319). -/
def routesApart (rev : Nat) : List (Nat × Circuit) → List (Output × Nat) → Bool
  | [], _ => true
  | q :: qs, used => let o := occupied rev q; (o.all fun x => decide (x ∉ used)) && routesApart rev qs (o ++ used)

/-- Every declared transit covers its route (R319). -/
def transitsCover (cs : List (Nat × Circuit)) : Bool :=
  cs.all fun q => (circuitRoutes q.1 q.2).all fun w => decide (Config.routeLatency w.length ≤ q.2.transit)

/-- A circuit of a rectangle on its die: destinations by the die's rows and columns. -/
def onDie (row0 col0 : Nat) (c : Circuit) : Circuit := { c with row := row0 + c.row, col := col0 + c.col }

/-- The circuits of a tile on its die, with the tile's position there. -/
def circuitsAt (t : Tile) : List (Nat × Circuit) :=
  t.net.circuits.map fun c => (t.id.row * 16 + t.id.col, onDie t.place.origin.row t.place.origin.col c)

/-- A circuit of some tile reserves the output of a router of a die in the mesh cycle that it counts (R20). -/
def outputReserved (s : State) (d r p : Nat) : Bool :=
  (s.cur :: s.peers).any fun t =>
    decide (t.id.die = d) && (circuitsAt t).any fun q => decide (((r / 4, r % 4, p), t.net.revCount) ∈ occupied t.net.rev q)

/-- No circuit reserves a link in this mesh cycle. -/
def linkUnreserved (s : State) (k : Nat) : Bool :=
  !(decide (64 ≤ k ∧ k < 576) && outputReserved s ((k - 64) / 64) ((k - 64) / 4 % 16) ((k - 64) % 4))

end Sys2Proof.Machine
end

