-- ==== Sys2Proof/Machine/Views.lean ====
section
/-!
DEFINITION. Machine/Views.lean: which writes a read of cistern memory may return (R258, R265, R266): the writes of each byte in home order
(R264), what a tile knows of them by the edges of R259-R263, and how it learns (log 22).
-/
namespace Sys2Proof.Machine

/-! ## What is known -/

/-- The larger of two numbers at every key. -/
def tjoin (a b : Tab Nat) : Tab Nat := b.foldl (fun t e => if tget 0 t e.1 < e.2 then tput t e.1 e.2 else t) a

/-- The key of a byte on a path (R242: 0 LS, 1 CP) in what a tile knows. -/
def pathKey (path a : Nat) : Nat := path * 2 ^ 65 + a
/-- The key, in place of a byte, of a write that is known with every write before it. -/
def baseKey : Nat := 2 ^ 64

/-- What a table of a tile's knowledge holds on a path, by byte. -/
def viewOf (m : Tab Nat) (path : Nat) : Tab Nat := (m.filter fun e => e.1 / 2 ^ 65 == path).map fun e => (e.1 % 2 ^ 65, e.2)

/-- The writes that are ordered-before a release or a fence of the tile on a path: those it has learned of, and its own where the scope
covers them (R259, R261). -/
def knownBy (t : Tile) (path scope : Nat) : Tab Nat :=
  if 3 ≤ scope then tjoin (viewOf t.know.acq path) (viewOf t.know.own path) else viewOf t.know.acq path

/-- The tile learns of writes on a path: they are ordered-before its later accesses there. -/
def learn (path : Nat) (v : Tab Nat) (t : Tile) : Tile :=
  { t with know := { t.know with acq := tjoin t.know.acq (v.map fun e => (pathKey path e.1, e.2)) } }

/-- All writes made so far, as a view: of a node that starts, or of a child that has ended (R263). -/
def allWrites (s : State) : Tab Nat := if s.dev.writes = 0 then [] else [(baseKey, s.dev.writes)]

/-! ## The writes of a byte -/

/-- The writes of a byte in home order, the newest first; the last is the initial value (R256). -/
def byteHist (s : State) (a : Nat) : List Wr :=
  match tget [] s.dev.hist a with
  | [] => [{ stamp := 0, val := mget s.dev.mem a, floor := 0, rel := false, atom := false }]
  | h => h

/-- The number of the newest write of a byte. -/
def newest (s : State) (a : Nat) : Nat := ((byteHist s a).head?.map Wr.stamp).getD 0

/-- The writes of a byte that are ordered-before one of its writes, as far as that write's writer knew: down to the initial value. -/
def below (h : List Wr) : Nat → Nat → List Nat
  | 0, _ => []
  | fuel + 1, k =>
    if k = 0 then []
    else match h.find? fun w => w.stamp == k with | some w => w.floor :: below h fuel w.floor | none => []

/-- The newest write of a byte ordered-before an access of a tile on a path. -/
def floorAt (t : Tile) (path a : Nat) : Nat := max (tget 0 t.know.own (pathKey path a)) (tget 0 t.know.acq (pathKey path a))

/-- A read of the tile on LS may return a write of a byte (R258): no write between the two is ordered-before the read and after that write;
the tile has read no later one (R265), and an acquire at package scope none before the newest release at that scope (R266). -/
def mayReturn (s : State) (acquires : Bool) (a : Nat) (w : Wr) : Bool :=
  let t := s.cur
  let h := byteHist s a
  let dead := [tget 0 t.know.own (pathKey 0 a), tget 0 t.know.acq (pathKey 0 a)].flatMap (below h h.length)
  let later := h.filter fun x => decide (w.stamp < x.stamp)
  decide (w.stamp ∉ dead) && decide (tget 0 t.know.coh (pathKey 0 a) ≤ w.stamp) &&
    (later.all fun x => decide (tget 0 t.know.acq (pathKey 0 baseKey) < x.stamp)) && !(acquires && later.any Wr.rel)

/-! ## Writes recorded -/

/-- The bytes of this device among the lanes of an access. -/
def GmReq.bytes (s : State) (r : GmReq) : List Nat :=
  (r.lanes.flatMap fun q => (List.range (r.lenOf q)).map fun i => q.2 + i).filter (ownAddr s)

/-- Bytes just written by the focused tile take their place in home order (R264): `before` holds the writes up to then. -/
def stampBytes (path : Nat) (rel atom : Bool) (as : List Nat) (before s : State) : State :=
  let n := before.dev.writes + 1
  let hist := as.foldl (fun h a =>
    tput h a ({ stamp := n, val := mget s.dev.mem a, floor := floorAt before.cur path a, rel := rel, atom := atom } :: byteHist before a)) s.dev.hist
  let own := as.foldl (fun m a => tput m (pathKey path a) n) s.cur.know.own
  { s with dev := { s.dev with writes := n, hist := hist }, cur := { s.cur with know := { s.cur.know with own := own } } }

/-- Bytes read by the focused tile on LS, each with the number of the write returned (R265). -/
def seeBytes (bs : List (Nat × Nat)) (s : State) : State :=
  onCur (fun t => { t with know := { t.know with coh := tjoin t.know.coh (bs.map fun b => (pathKey 0 b.1, b.2)) } }) s

/-- Two tiles lie in one instance of a scope (R257). -/
def sameInstance (scope : Nat) (i j : TileId) : Bool :=
  match scope with
  | 0 => i == j
  | 1 => clusterOf i == clusterOf j
  | 2 => i.die == j.die
  | _ => true

/-- What an acquire of the focused tile learns from the write that it has returned: from that release, or from the releases that precede an
atomic (R260). -/
def acquired (s : State) (scope a stamp : Nat) : Tab Nat :=
  let atom := (byteHist s a).any fun w => w.stamp == stamp && w.atom
  (s.dev.rels.filter fun l => l.addr == a && (l.stamp == stamp || (atom && decide (l.stamp < stamp))) &&
      sameInstance (min scope l.scope) l.tile s.cur.id).foldl (fun v l => tjoin v (tput l.view a l.stamp)) []

/-- A performed access of gm of the focused tile recorded: what it has read and written, what a release carries, what an acquire learns. -/
def record (r : GmReq) (before s : State) : State :=
  let as := r.bytes before
  let base := as.headD 0
  let wrote := r.posted || r.code == 14 || (r.code == 15 && decide (leNat (memRead before base r.size) = fld r.a 0 (8 * r.size)))
  let s := if r.posted then s else seeBytes (as.map fun a => (a, newest before a)) s
  let s := if wrote && !as.isEmpty then stampBytes 0 (r.code == 11 && gmScope r.word == 3) (r.code == 14 || r.code == 15) as before s else s
  let s := if r.release && wrote && !as.isEmpty then
      { s with dev := { s.dev with rels := { addr := base, stamp := s.dev.writes, tile := s.cur.id, scope := gmScope r.word,
                                             view := knownBy before.cur 0 (gmScope r.word) } :: s.dev.rels } }
    else s
  if r.acquire && !as.isEmpty then onCur (learn 0 (acquired before (gmScope r.word) base (newest before base))) s else s

/-- A fence of the focused tile has completed: what it orders (R261), and with the fences sc before it (R262). -/
def recordFence (f : GmReq) (s : State) : State :=
  let ps := [0, 1].filter f.fences
  let scope := gmScope f.word
  if scope < 3 then s
  else
    let v := ps.foldl (fun v p => tjoin v (knownBy s.cur p scope)) []
    let sc := bit f.word 62
    let v := if sc then tjoin (tjoin v (if f.fences 0 then viewOf s.cur.know.coh 0 else [])) (tget [] s.dev.scView scope) else v
    let s := if sc then { s with dev := { s.dev with scView := tset [] s.dev.scView scope v } } else s
    onCur (fun t => ps.foldl (fun t p => learn p v t) t) s

/-! ## A read that returns an older write -/

/-- The write of a byte that stood when the write of a number had been applied. -/
def asOf (s : State) (n a : Nat) : Option Wr := (byteHist s a).find? fun w => decide (w.stamp ≤ n)

/-- A load may return, for every byte, the write that stood then (R258). -/
def oldAllowed (s : State) (r : GmReq) (n : Nat) : Bool :=
  (r.bytes s).all fun a => match asOf s n a with | some w => mayReturn s (r.code == 10 && gmScope r.word == 3) a w | none => false

/-- The memory as a load then finds it. -/
def oldMem (s : State) (r : GmReq) (n : Nat) : Memory :=
  (r.bytes s).foldl (fun m a => match asOf s n a with | some w => mset m a w.val | none => m) s.dev.mem

/-- The numbers of the writes that it returns. -/
def oldStamps (s : State) (r : GmReq) (n : Nat) : List (Nat × Nat) := (r.bytes s).map fun a => (a, ((asOf s n a).map Wr.stamp).getD 0)

end Sys2Proof.Machine
end

