-- ==== Sys2Proof/Machine/Gm.lean ====
section
/-!
DEFINITION. Machine/Gm.lean: the gm socket (R233-R245): its triggers, the order in which its accesses may be performed
(R259-R261), what their home does (R68, R69, R221, R235-R241, R373), their answers and the fences.
-/
namespace Sys2Proof.Machine

/-! ## Order (R259-R261, R243) -/

/-- An earlier access e that has not been performed precedes g in program order (R259). -/
def GmReq.before (s : State) (e g : GmReq) : Bool :=
  !e.isFence && !e.performed && decide (e.serial < g.serial) && e.path == g.path &&
    (e.meets g || (g.release && decide (e.scope s ≤ gmScope g.word)) || e.acquire)

/-- Elements that a fence of LS must see stored (R243): stream and the elements written by moves before the fence. -/
def streamsDrained (t : Tile) (marks : List (Nat × Nat)) (scope : Nat) : Bool :=
  marks.all fun q =>
    match tfind t.streams q.1 with
    | none => true
    | some st => !st.write || st.stopped || decide (q.2 ≤ st.unit) || decide (scope < handleLevel st.h)

/-- Accesses of lw issued before, not yet served, at a scope of at most `scope`. -/
def lwWaits (t : Tile) (serial scope : Nat) : Bool :=
  t.lw.any fun e => e.2.any fun a => decide (a.serial < serial ∧ handleLevel a.h ≤ scope)

/-- A gm access may be performed at its home. -/
def gmReady (s : State) (g : GmReq) : Bool :=
  !g.performed && !g.isFence && !fenceHolds s.cur g.path g.serial && !(s.cur.gm.any fun e => e.before s g) &&
    !(g.release && (lwWaits s.cur g.serial (gmScope g.word) ||
        s.cur.checked.any fun c => c.kind == 0 && decide (c.serial < g.serial ∧ c.scope ≤ gmScope g.word)))

/-- Everything that a fence covers has been performed, and the failures recorded (R243). -/
def fenceCovered (s : State) (f : GmReq) : Bool :=
  let t := s.cur
  let sc := gmScope f.word
  let gmOk := fun (path : Nat) => t.gm.all fun e =>
    e.isFence || decide (f.serial ≤ e.serial) || e.path != path || decide (sc < e.scope s) || (e.performed && (e.st == 0 || !e.posted))
  (!f.fences 0 || (gmOk 0 && !lwWaits t f.serial sc && streamsDrained t f.lanes sc &&
      t.checked.all fun c => c.kind != 0 || decide (sc < c.scope))) &&
    (!f.fences 2 || gmOk 2) &&
    (!f.fences 1 || t.copies.all fun c => decide (f.serial ≤ c.serial)) &&
    (!f.fences 3 || (t.net.out.all fun e => decide (f.serial ≤ e.serial)) &&
      !(s.dev.vc2.any fun v => v.src == t.id && decide (v.elem.serial < f.serial)))

/-- A fence sc at domain scope needs the grant of device 0 (R380). -/
def needsGrant (f : GmReq) : Bool := bit f.word 62 && gmScope f.word == 4

/-- A fence completes: FSTAT is its result (R243). -/
def fenceDone (s : State) (f : GmReq) : Bool := f.isFence && fenceCovered s f && (!needsGrant f || f.performed)

/-! ## Translation at the trigger (R218-R220, R234) -/

/-- What a translation-cache entry answers: the page's address and its permissions. -/
def cachedAnswer (v va : Nat) (r w : Bool) : Trans :=
  if (r && bitsOf v 0 1 = 0) || (w && bitsOf v 1 1 = 0) then .fault 21 else .done (v / 4 * 65536 + va % 65536)

/-- A page's leaf as a cache holds it: its address and its permissions. -/
def leafWord (s : State) (ctx va pa : Nat) : Nat :=
  let can := fun r w => match translate s ctx va r w with | .done _ => 1 | _ => 0
  pa / 65536 * 4 + can true false + 2 * can false true

/-- The gm cache with a page's leaf added, 32 entries, and the walk unit with the entries of the walk (R220). -/
def cacheLeaf (s : State) (va pa : Nat) : State :=
  let v := leafWord s (ctxNum s.cur) va pa
  let old := s.cur.walk.cached.filter fun e => decide (e.1 ≠ va / 65536)
  onCur (fun t => { t with walk := { t.walk with cached := ((va / 65536, v) :: old).take 32 } }) (fillUnit s.cur.id.die (ctxNum s.cur) va s)

/-- A translation by gm: an entry of its cache or of the die's walk unit that the page tables no longer give may be used or not, until it is
invalidated (R220). -/
def gmTranslate (s : State) (va : Nat) (r w : Bool) : Trans × State :=
  let now := translate s (ctxNum s.cur) va r w
  let cached := (s.cur.walk.cached.find? fun e => decide (e.1 = va / 65536)).map fun e => cachedAnswer e.2 va r w
  let held := cached.toList ++ [translateOld s s.cur.id.die (ctxNum s.cur) va r w]
  let t := chooseTrans now held s
  let s1 := match now with | .done pa => if t = now ∧ cached ≠ some now then cacheLeaf s va pa else s | _ => s
  (t, if (oldAnswers now held).isEmpty then s1 else { s1 with fresh := s1.fresh + 1 })

/-- Every lane translated (R234): a walk that meets a page under migration freezes the bundle (R219). -/
def gmLanes (code slot : Nat) (r w : Bool) : List (Nat × Nat) → State → Res (List (Nat × Nat) × State)
  | [], s => .ok ([], s)
  | q :: qs, s =>
    match gmTranslate s q.2 r w with
    | (.done pa, s) => (gmLanes code slot r w qs s).bind fun x => .ok ((q.1, pa) :: x.1, x.2)
    | (.migrating, _) => .freeze
    | (.fault c, _) => .fault { mkFault c 13 code slot 0 with addr := BitVec.ofNat 64 q.2 }

/-! ## Triggers -/

/-- A reserved value in a field that the operation uses (R223, R233, R237, R238, R240, R241, R243). -/
def gmIllegal (code : Nat) (w : Word) : Bool :=
  bit w 51 ||
    match code with
    | 8 | 9 => decide (4 < gmSz w)
    | 10 | 11 => decide (4 < gmSz w ∨ 4 < gmScope w)
    | 14 => decide ((gmSz w ≠ 2 ∧ gmSz w ≠ 3) ∨ 4 < gmScope w ∨ 8 < gmFx w)
    | 15 => decide (gmSz w < 2 ∨ 4 < gmSz w ∨ 4 < gmScope w)
    | 16 | 17 | 18 => decide (2 < gmSz w) || decide ((if gmSz w = 0 then 32 else 64) < gmFx w + 1)
    | 19 => decide (gmFx w % 16 = 0 ∨ 32 ≤ gmFx w ∨ 4 < gmScope w)
    | 20 | 21 => decide (3 < gmSz w)
    | _ => false

/-- The pieces of a plain access of n bytes: it is cut at each 32-byte sector boundary (R235). -/
def sectorPieces (va n : Nat) : List (Nat × Nat) :=
  ((List.range n).filter fun i => decide (i = 0 ∨ (va + i) % 32 = 0)).map fun i => (i, va + i)

/-- The virtual lanes of an access, in lane order: a skipped lane is left out (R240). -/
def gmTargets (code : Nat) (w : Word) (idx : Vec) : List (Nat × Nat) :=
  let va := gmVa w
  match code with
  | 16 | 17 | 18 => (List.range (gmFx w + 1)).map fun l => (l, va + l * redBytes w)
  | 20 | 21 =>
    let size := sizeOf (gmSz w)
    ((List.range (min 32 (128 / size))).filter fun i => decide (lane 32 i idx ≠ 0xFFFFFFFF)).map fun i => (i, va + lane 32 i idx * size)
  | 19 => []
  | _ => sectorPieces va (if code = 12 ∨ code = 13 then 128 else sizeOf (gmSz w))

/-- The first address that breaks the alignment its operation requires (R239-R241). -/
def gmMisaligned (code : Nat) (w : Word) (targets : List (Nat × Nat)) : Option Nat :=
  match code with
  | 10 | 11 | 14 | 15 => if gmVa w % sizeOf (gmSz w) ≠ 0 then some (gmVa w) else none
  | 16 | 17 | 18 =>
    if gmVa w % redBytes w ≠ 0 ∨ gmVa w / 4096 ≠ (gmVa w + (gmFx w + 1) * redBytes w - 1) / 4096 then some (gmVa w) else none
  | 20 | 21 => (targets.find? fun q => decide (q.2 % sizeOf (gmSz w) ≠ 0)).map Prod.snd
  | _ => none

/-- What a write of a checked tile shows to the comparator (R311): the operation, each address and its data. -/
def gmShown (r : GmReq) : List Byte :=
  leBytes 1 r.code ++ leBytes 8 r.word.toNat ++
    (r.lanes.flatMap fun q => leBytes 8 q.2 ++ (vecBytes r.a |>.drop (r.posOf q)).take (r.lenOf q)) ++
    if r.code = 15 then (vecBytes r.c).take r.size else []

/-- The accesses of an operation: each lane of a gath or scat is one of its own, in lane order (R240). -/
def laneGroups (code : Nat) (lanes : List (Nat × Nat)) : List (List (Nat × Nat)) :=
  if (code = 20 ∨ code = 21) ∧ lanes ≠ [] then lanes.map fun q => [q] else [lanes]

/-- A tile's accesses in flight with one more; on a checked tile a write shows itself to the comparator (R311). -/
def pushGm (s : State) (t : Tile) (r : GmReq) : Tile :=
  let t := { t with gm := t.gm ++ [r], serial := r.serial + 1 }
  if bit t.csr.status 7 && r.writes then
    { t with checked := t.checked ++ [{ kind := 1, space := 0, addr := gmVa r.word, data := gmShown r, scope := r.scope s,
                                        word := BitVec.ofNat 64 (gmVa r.word), serial := r.serial, age := 0 }] }
  else t

/-- A gm operation (R233-R241, R243): the checks, the translation of every lane, and the place of its accesses among the 64 in flight
(R234). -/
def fireAccess (code : Nat) (ports : List Nat) (idxAt : Nat) : Fire := fun slot held b s =>
  (takeOperands s.cur 13 code slot held ports).bind fun q =>
    let w := vecWord b
    let targets := gmTargets code w (opAt q.1 idxAt)
    let posted := code == 9 || code == 11 || code == 13 || code == 16 || code == 21
    let needR := !(code == 9 || code == 11 || code == 13 || code == 21)
    let needW := !(code == 8 || code == 10 || code == 12 || code == 20)
    if gmIllegal code w then .fault (mkFault 1 13 code slot 0)
    else
      match gmMisaligned code w targets with
      | some a => .fault { mkFault 16 13 code slot (a % 2 ^ 32) with addr := BitVec.ofNat 64 a }
      | none =>
        if code ≠ 19 ∧ 64 < (s.cur.gm.filter fun e => !e.isFence).length + (laneGroups code targets).length then .freeze
        else
          (accepts s.cur 13 code (if posted then [] else [0])).bind fun _ =>
            (gmLanes code slot needR needW targets { s with cur := q.2 }).bind fun x =>
              let marks := (s.cur.streams.filter fun e => e.2.write).map fun e => (e.1, e.2.moved)
              let k := x.2.cur.serial
              let mk := fun (lanes : List (Nat × Nat)) (serial : Nat) =>
                ({ code := code, word := w, a := opAt q.1 0, c := opAt q.1 1, lanes := lanes, serial := serial, slot := slot, performed := false,
                   reply := 0, st := 0, replyTs := 0, part := 0, group := k } : GmReq)
              let t := (laneGroups code (if code = 19 then marks else x.1)).foldl (fun t lanes => pushGm s t (mk lanes t.serial)) x.2.cur
              .ok { x.2 with cur := if posted then t else awaitResult t 13 k }

/-! ## At the home -/

/-- The place whose ring logs a tile's refused access to an address of this device (R310): its cistern, the command window's, or, where it
names a cistern that is not there, the die's (log 20). -/
def homePlace (s : State) (a : Nat) : Nat :=
  if inWindow a then windowPlace s else if cisField a ∈ s.dev.cisterns then 16 + cisField a else s.cur.id.die

/-- A refusal of the focused tile's access at an address logged; one that no device holds is logged on none (R310). -/
def logAccess (s : State) (a kind st : Nat) : State :=
  if !ownAddr s a then s
  else
    logRefusal s (homePlace s a)
      { addr := BitVec.ofNat 64 a, ctx := ctxNum s.cur, pos := logPos s.cur, kind := if inWindow a && kind == 2 then 10 else kind,
        time := tscOf s, st := st }

/-- n bytes read at the home: status and bytes (R11, R221). -/
def homeRead (s : State) (a n : Nat) : Nat × List Byte :=
  let st := addrStatus s a
  if st ≠ 0 then (if st = 5 then 7 else st, []) else if memPoisoned s a n then (3, []) else (0, memRead s a n)

/-- The status a write of n bytes would get: none of them is written where it is not 0 (R11, R221). -/
def homeRefuses (s : State) (a n : Nat) : Nat :=
  let st := addrStatus s a
  if st ≠ 0 then st else if poisonPart s.dev.poison 32 a n then 4 else 0

/-- f(old, a) of amo on s bytes (R237). -/
def amoValue (f s old a : Nat) : Nat :=
  let w := 8 * s
  let o := old % 2 ^ w
  let x := a % 2 ^ w
  match f with
  | 0 => (o + x) % 2 ^ w
  | 1 => Nat.land o x
  | 2 => Nat.lor o x
  | 3 => Nat.xor o x
  | 4 => if sintOf w o ≤ sintOf w x then o else x
  | 5 => if sintOf w x ≤ sintOf w o then o else x
  | 6 => min o x
  | 7 => max o x
  | _ => x

/-- A cell by context and address (R241). -/
def cellOf (s : State) (ctx a : Nat) : Option Cell := s.dev.cells.find? fun c => decide (c.ctx = ctx ∧ c.addr = a)
/-- The cells of a place without one. -/
def dropCell (s : State) (ctx a : Nat) : State :=
  { s with dev := { s.dev with cells := s.dev.cells.filter fun c => !decide (c.ctx = ctx ∧ c.addr = a) } }
/-- A cell put in place of the one bound there, if any. -/
def putCell (s : State) (c : Cell) : State :=
  let s := dropCell s c.ctx c.addr
  { s with dev := { s.dev with cells := s.dev.cells ++ [c] } }
/-- A cell cleared (R68). -/
def freshCell (ctx a : Nat) : Cell := { ctx := ctx, addr := a, val := 0, nan := false, pinf := false, ninf := false, count := 0, parity := false }
/-- The cells of a cistern that are in use. -/
def cellsUsed (s : State) (a : Nat) : Nat := (s.dev.cells.filter fun c => decide (c.addr / 2 ^ 48 = a / 2 ^ 48)).length

/-- An addend added to a cell; none where R68 refuses it. -/
def cellAdd (c : Cell) (x : Num) : Option Cell :=
  if c.count.toNat = 2 ^ 40 - 1 then none
  else
    match x with
    | .nan => some { c with nan := true }
    | .inf false => some { c with pinf := true }
    | .inf true => some { c with ninf := true }
    | .fin n m e => some { c with val := c.val + BitVec.ofInt 320 (scaledInt n m e (-149)), count := c.count + 1 }

/-- The read of a cell in a format (R69); the canonical NaN where a parity error stands in it (R221). -/
def cellRead (f : Nat) (c : Cell) : Nat :=
  if c.parity || c.nan || (c.pinf && c.ninf) then nanBits f
  else if c.pinf then infBits f
  else if c.ninf then signBit f true + infBits f
  else
    let z := c.val.toInt
    encodePlain f 0 (.fin (decide (z < 0)) z.natAbs (-149))

/-- What a home answers: status, reply, the refusals to be logged (address, access kind, status), and the state after. -/
abbrev Performed := Nat × Vec × List (Nat × Nat × Nat) × State

/-- fred, fredrd and fredclr at their home for a context (R241): the status, the lanes read. -/
def performRed (s : State) (code ctx : Nat) (w : Word) (a : Vec) (lanes : List (Nat × Nat)) : Performed :=
  let f := gmSz w
  let bad := lanes.find? fun q => decide (addrStatus s q.2 ≠ 0)
  match bad with
  | some q => (addrStatus s q.2, 0, [(q.2, 4, addrStatus s q.2)], s)
  | none =>
    if code = 18 then
      let fresh := lanes.filter fun q => (cellOf s ctx q.2).isNone
      let base := ((lanes.head?).map Prod.snd).getD 0
      if 2 ^ 18 < cellsUsed s base + fresh.length then (4, 0, [(base, 4, 4)], s)
      else (0, 0, [], lanes.foldl (fun s q => putCell s (freshCell ctx q.2)) s)
    else if code = 17 then
      match lanes.find? fun q => (cellOf s ctx q.2).isNone with
      | some q => (4, 0, [(q.2, 4, 4)], s)
      | none =>
        let v := packLanes (floatBits f) (lanes.map fun q => ((cellOf s ctx q.2).map (cellRead f)).getD 0)
        let errors := lanes.filter fun q => ((cellOf s ctx q.2).map Cell.parity).getD false
        let read := fun (s : State) (q : Nat × Nat) =>
          match cellOf s ctx q.2 with | some c => if c.parity then putCell s { c with parity := false } else s | none => s
        (0, v, errors.map fun q => (q.2, 4, 3), if bit w 55 then lanes.foldl (fun s q => dropCell s ctx q.2) s else errors.foldl read s)
    else
      lanes.foldl (fun (r : Performed) q =>
        match (cellOf r.2.2.2 ctx q.2).bind fun c => cellAdd c (decodeFloat f (lane (floatBits f) q.1 a)) with
        | some c => (r.1, r.2.1, r.2.2.1, putCell r.2.2.2 c)
        | none => (4, r.2.1, r.2.2.1 ++ [(q.2, 4, 4)], r.2.2.2)) (0, 0, [], s)

/-- A gm access performed at its home for a context (R235-R241). Lanes that another device holds are left out here. -/
def performAt (s : State) (ctx : Nat) (r : GmReq) : Performed :=
  let own := r.lanes.filter fun q => ownAddr s q.2 || decide (addrStatus s q.2 ≠ 0)
  if r.isRed then performRed s r.code ctx r.word r.a own
  else if r.posted then
    match own.find? fun q => decide (homeRefuses s q.2 (r.lenOf q) ≠ 0) with
    | some q => let st := homeRefuses s q.2 (r.lenOf q); (st, 0, [(q.2, 2, st)], s)
    | none =>
      (0, 0, [], own.foldl (fun s q => memStore s q.2 (leBytes (r.lenOf q) (fld r.a (8 * r.posOf q) (8 * r.lenOf q)))) s)
  else
    match own.find? fun q => decide ((homeRead s q.2 (r.lenOf q)).1 ≠ 0) with
    | some q =>
      let st := (homeRead s q.2 (r.lenOf q)).1
      (st, 0, [(q.2, if r.code = 14 ∨ r.code = 15 then 3 else 1, st)], s)
    | none =>
      let old := own.foldl (fun n q => n + leNat (homeRead s q.2 (r.lenOf q)).2 * 2 ^ (8 * r.posOf q)) 0
      let w := 8 * r.size
      let base := ((own.head?).map Prod.snd).getD 0
      if r.code = 14 then
        (0, toVec old, [], if own = [] then s else memStore s base (leBytes r.size (amoValue (gmFx r.word) r.size old (fld r.a 0 w))))
      else if r.code = 15 then
        (0, toVec old, [], if old = fld r.a 0 w ∧ own ≠ [] then memStore s base (leBytes r.size (fld r.c 0 w)) else s)
      else (0, toVec old, [], s)

/-- What is left of an access: the lanes, or their ends, that no earlier piece has performed (R268). -/
def GmReq.rest (r : GmReq) : GmReq :=
  if r.part = 0 then r
  else
    { r with lanes := r.lanes.filterMap fun q =>
        if q.1 + r.lenOf q ≤ r.part then none else if r.part ≤ q.1 then some q else some (r.part, q.2 + (r.part - q.1)) }

/-- A gm access of the focused tile, or what is left of it, performed at its home, its refusals logged, its reads and writes recorded
(R264). -/
def performHere (s : State) (r : GmReq) : Nat × Vec × State :=
  let x := performAt s (ctxNum s.cur) r.rest
  let s1 := x.2.2.1.foldl (fun s e => logAccess s e.1 e.2.1 e.2.2) x.2.2.2
  (x.1, r.reply + x.2.1, if x.1 = 0 && !r.isRed then record r.rest s s1 else s1)

/-- The home's timebase after an access (R373): an applied release raises it. -/
def homeTime (s : State) (r : GmReq) (st : Nat) : State :=
  match r.lanes.head? with
  | none => s
  | some q =>
    if r.release && st == 0 then
      let c := cisField q.2
      let new := max (cisternTsc s c).toNat ((tscOf s).toNat + 1)
      { s with dev := { s.dev with cisternTsc := tset 0 s.dev.cisternTsc c (BitVec.ofNat 64 new) } }
    else s

/-- The timebase a reply carries. -/
def replyTime (s : State) (r : GmReq) : Word :=
  match r.lanes.head? with
  | none => 0
  | some q => cisternTsc s (cisField q.2)

/-- An access of a tile of another device's memory, whose answer comes through the fabric. -/
def GmReq.remote (s : State) (r : GmReq) : Bool := !r.isFence && r.lanes.any fun q => !ownAddr s q.2 && decide (addrStatus s q.2 = 0)

/-- The access of a serial changed. -/
def putGm (serial : Nat) (f : GmReq → GmReq) (t : Tile) : Tile :=
  { t with gm := t.gm.map fun e => if e.serial = serial then f e else e }

/-- The partner of a tile (R128). -/
def partnerOf (i : TileId) : TileId := tileAtRing i (Nat.xor (ringPos i) 1)

/-- The two writes at the heads of a checked pair agree (R311). -/
def pairMatch (s : State) : Option (CheckedWrite × CheckedWrite) :=
  match s.cur.checked, (tileAt s (partnerOf s.cur.id)).checked with
  | a :: _, b :: _ =>
    if a.kind = b.kind ∧ a.space = b.space ∧ a.addr = b.addr ∧ a.data = b.data then some (a, b) else none
  | _, _ => none

/-- The checked write of a serial, where it still waits. -/
def checkedOf (t : Tile) (serial : Nat) : Option CheckedWrite := t.checked.find? fun c => c.kind == 1 && c.serial == serial

/-- Both heads of a matching pair leave. -/
def popPair (s : State) : State :=
  let p := partnerOf s.cur.id
  let drop := onCur fun t => { t with checked := t.checked.drop 1 }
  onTile p drop (drop s)

/-- The comparator lets an access leave: it is no checked write, or its pair stands at both heads (R311). -/
def pairLets (s : State) (serial : Nat) : Bool :=
  (checkedOf s.cur serial).isNone || match pairMatch s with | some (a, _) => a.serial == serial && a.kind == 1 | none => false

/-- The cistern of this device that an access goes to over the links; none for a fence, and for an address that it does not reach. -/
def GmReq.home (s : State) (r : GmReq) : Option Nat :=
  match r.lanes with
  | q :: _ => if !r.isFence && ownAddr s q.2 && addrStatus s q.2 == 0 then some (cisField q.2) else none
  | [] => none

/-- The data bytes of an access. -/
def GmReq.bytesOf (r : GmReq) : Nat := (r.lanes.map r.lenOf).sum
/-- The flits of its request, on VC0 (R20). -/
def GmReq.asks (r : GmReq) : Nat := flitsOf (if r.posted || r.code == 14 || r.code == 15 then r.bytesOf else 0)
/-- The flits of its reply, on VC1 (R20). -/
def GmReq.answers (r : GmReq) : Nat := flitsOf (if r.posted then 0 else r.bytesOf)

/-- The links let the request of an access of the focused tile go. -/
def askOpen (s : State) (r : GmReq) : Bool := match r.home s with | some c => homeOpen s s.cur.id.die c 0 r.asks false | none => true
/-- Its request has gone over the links. -/
def askOver (r : GmReq) (s : State) : State := match r.home s with | some c => crossHome s.cur.id.die c 0 r.asks false s | none => s
/-- The links let the reply come. -/
def replyOpen (s : State) (r : GmReq) : Bool := match r.home s with | some c => homeOpen s s.cur.id.die c 1 r.answers true | none => true
/-- Its reply has come over the links. -/
def replyOver (r : GmReq) (s : State) : State := match r.home s with | some c => crossHome s.cur.id.die c 1 r.answers true s | none => s
/-- No way is left to an access's home. -/
def noWay (s : State) (r : GmReq) : Bool := match r.home s with | some c => (homePath s s.cur.id.die c).isNone | none => false

/-- A posted access of the focused tile lost on its way: its addresses are logged, and it is answered as unreachable (R323, R244). -/
def loseAccess (r : GmReq) (s : State) : State :=
  let s := r.lanes.foldl (fun s q => logRefusal s s.cur.id.die
    { addr := BitVec.ofNat 64 q.2, ctx := ctxNum s.cur, pos := logPos s.cur, kind := 11, time := tscOf s, st := 6 }) s
  onCur (putGm r.serial fun e => { e with performed := true, st := 6, reply := 0 }) s

/-- The access of a serial of the focused tile performed at its home, when the order of R259-R261 and the links let it; a posted one to which
no way is left is lost (R323). -/
def performGm (serial : Nat) (s : State) : State :=
  match s.cur.gm.find? fun e => decide (e.serial = serial) with
  | none => s
  | some r =>
    if !gmReady s r || r.remote s || !pairLets s serial then s
    else if noWay s r && r.posted && (checkedOf s.cur serial).isNone then loseAccess r s
    else if !askOpen s r then s
    else
      let x := performHere (askOver r s) r
      let s1 := homeTime x.2.2 r x.1
      let note := putGm
      let done := fun (e : GmReq) => { e with performed := true, st := x.1, reply := x.2.1, replyTs := replyTime s1 r }
      let s2 := onCur (note serial done) s1
      if (checkedOf s.cur serial).isNone then s2
      else
        match pairMatch s with
        | some (_, b) => onTile (partnerOf s.cur.id) (onCur fun t => { note b.serial done t with know := s2.cur.know }) (popPair s2)
        | none => s2

/-- A load of the focused tile performed so that it returns the writes that stood at the write of a number, where R258 lets it; else
nothing happens. -/
def performOld (serial n : Nat) (s : State) : State :=
  match s.cur.gm.find? fun e => decide (e.serial = serial) with
  | none => s
  | some r =>
    if !gmReady s r || r.remote s || r.part ≠ 0 || !(r.code == 8 || r.code == 10 || r.code == 12 || r.code == 20) || !oldAllowed s r n then s
    else
      let x := performAt { s with dev := { s.dev with mem := oldMem s r n } } (ctxNum s.cur) r
      if x.1 ≠ 0 then s
      else
        let bs := oldStamps s r n
        let base := (bs.headD (0, 0)).1
        let s1 := seeBytes bs s
        let s1 := if r.acquire && !bs.isEmpty then onCur (learn 0 (acquired s (gmScope r.word) base (bs.headD (0, 0)).2)) s1 else s1
        onCur (putGm serial fun e => { e with performed := true, st := 0, reply := x.2.1, replyTs := replyTime s1 r }) s1

/-- The length of the next atomic piece of a plain access (R268): of 1 to 16 bytes aligned the whole, of 128 bytes aligned 16 bytes, else a
whole aligned word or one byte; `left` bytes remain before the next sector. -/
def pieceLength (r : GmReq) (a left : Nat) : Nat :=
  let va := gmVa r.word
  if r.size ≤ 16 ∧ va % r.size = 0 then left
  else if r.size = 128 ∧ va % 128 = 0 then 16
  else if a % 4 = 0 ∧ 4 ≤ left then 4 else 1

/-- The next piece of a plain load performed alone. -/
def loadPiece (r : GmReq) (a n : Nat) (s : State) : State :=
  let x := homeRead s a n
  if x.1 ≠ 0 then s
  else
    let as := (List.range n).map fun i => a + i
    seeBytes (as.map fun b => (b, newest s b))
      (onCur (putGm r.serial fun e => { e with part := e.part + n, reply := e.reply + toVec (leNat x.2 * 2 ^ (8 * e.part)) }) s)

/-- The next piece of a plain store performed alone; the store covers `len` bytes from it in its sector, and poison of a word that it covers
whole is cleared (R221). -/
def storePiece (r : GmReq) (a n len : Nat) (s : State) : State :=
  if r.rest.lanes.any fun q => homeRefuses s q.2 (r.lenOf q) != 0 then s
  else
    let s1 := memStore s a (leBytes n (fld r.a (8 * r.part) (8 * n)))
    let s1 := { s1 with dev := { s1.dev with poison := poisonCleared s1.dev.poison 32 a len } }
    onCur (putGm r.serial fun e => { e with part := e.part + n }) (stampBytes 0 false false ((List.range n).map fun i => a + i) s s1)

/-- The next atomic piece of a plain access of the focused tile performed alone (R268); its last piece, and one that is refused, come with
the access itself. -/
def performPiece (serial : Nat) (s : State) : State :=
  match s.cur.gm.find? fun e => decide (e.serial = serial) with
  | none => s
  | some r =>
    match r.rest.lanes with
    | [] => s
    | q :: more =>
      let left := r.lenOf q
      let n := min left (pieceLength r q.2 left)
      if !gmReady s r || r.remote s || bit s.cur.csr.status 7 || !(r.code == 8 || r.code == 9 || r.code == 12 || r.code == 13) ||
          (more.isEmpty && n == left) then s
      else if r.code = 8 ∨ r.code = 12 then loadPiece r q.2 n s
      else storePiece r q.2 n left s

/-! ## Answers -/

/-- The value that a load brings to y0 (R235, R236: sx). -/
def gmResult (r : GmReq) : Vec :=
  if (r.code = 8 ∨ r.code = 10) ∧ bit r.word 55 ∧ r.size ≤ 8 then toVec (wrapInt 64 (sintOf (8 * r.size) r.reply.toNat)) else r.reply

/-- The virtual address of a lane of an access, by its position. -/
def GmReq.vaOf (r : GmReq) (pos : Nat) : Nat :=
  (((gmTargets r.code r.word (if r.code = 21 then r.c else r.a)).find? fun q => q.1 == pos).map Prod.snd).getD (gmVa r.word)

/-- The fault that an error response raises (R11, R221, R241), at the address of the first lane or piece that was refused (R306). -/
def gmFault (s : State) (r : GmReq) : FaultInfo :=
  let cause := if r.st = 3 then 17 else if (r.code = 17 ∨ r.code = 18) ∧ r.st = 4 then 22 else 26
  let bad := r.lanes.find? fun q => if r.st = 3 then memPoisoned s q.2 (r.lenOf q) else addrStatus s q.2 != 0
  { mkFault cause 13 r.code r.slot 0 with addr := BitVec.ofNat 64 (r.vaOf ((bad.map Prod.fst).getD ((r.lanes.head?.map Prod.fst).getD 0))) }

/-- The result of an operation still waits on its port. -/
def awaited (t : Tile) (serial : Nat) : Bool := (portOf (sockOf t 13) 0).fifo.any fun r => decide (r.due = .waits serial)

/-- A gath's result with the value of one lane added (R240); it is ready when no lane is left. -/
def answerLane (r : GmReq) (t : Tile) : Tile :=
  let k := sockOf t 13
  let p := portOf k 0
  let last := t.gm.all fun e => e.group != r.group
  let f := p.fifo.map fun x =>
    if x.due = .waits r.group then { x with due := if last then .ready else x.due, val := x.val + gmResult r } else x
  putSock t 13 (putPort k 0 { p with fifo := f })

/-- The answer to a performed access reaches the focused tile (R234, R244, R373). An operation whose lane fails raises one fault. -/
def replyGm (serial : Nat) (s : State) : State :=
  match s.cur.gm.find? fun e => decide (e.serial = serial) with
  | none => s
  | some r =>
    if !r.performed || r.isFence || (r.st != 6 && !replyOpen s r) then s
    else
      let s := if r.st = 6 then s else replyOver r s
      let s := onCur (fun t => { t with gm := t.gm.filter fun e => decide (e.serial ≠ serial) }) s
      let s := if r.acquire && r.st == 0 then raiseTsc s r.replyTs else s
      if r.posted then
        if r.st = 0 then s else onCur (fun t => failStore t (r.scope s) (r.st == 6) (BitVec.ofNat 64 (gmVa r.word))) s
      else if r.st = 0 then onCur (if r.code = 20 then answerLane r else fun t => answer t 13 serial 0 (gmResult r)) s
      else if awaited s.cur r.group then onCur (fun t => addLate (dropResult t 13 r.group) (gmFault s r)) s
      else s

/-- A fence completes (R243). -/
def finishFence (serial : Nat) (s : State) : State :=
  match s.cur.gm.find? fun e => decide (e.serial = serial) with
  | none => s
  | some r =>
    if fenceDone s r then
      onCur (fun t => answer { t with gm := t.gm.filter fun e => decide (e.serial ≠ serial) } 13 serial 0 (wordVec t.csr.fstat)) (recordFence r s)
    else s

/-! ## The operations -/

/-- ld (R235). -/
def fireGmLd : Fire := fireAccess 8 [] 0
/-- GM_LD (R235). -/
def execGmLd (g : Guard) (x : Src) (s : State) : Host.Outcome State Fault Refusal :=
  runMove (.gmLd g x) g x fireGmLd s

/-- st (R235). -/
def fireGmSt : Fire := fireAccess 9 [0] 0
/-- GM_ST (R235). -/
def execGmSt (g : Guard) (x : Src) (s : State) : Host.Outcome State Fault Refusal :=
  runMove (.gmSt g x) g x fireGmSt s

/-- ldacq (R236). -/
def fireGmLdacq : Fire := fireAccess 10 [] 0
/-- GM_LDACQ (R236). -/
def execGmLdacq (g : Guard) (x : Src) (s : State) : Host.Outcome State Fault Refusal :=
  runMove (.gmLdacq g x) g x fireGmLdacq s

/-- strel (R236). -/
def fireGmStrel : Fire := fireAccess 11 [0] 0
/-- GM_STREL (R236). -/
def execGmStrel (g : Guard) (x : Src) (s : State) : Host.Outcome State Fault Refusal :=
  runMove (.gmStrel g x) g x fireGmStrel s

/-- ldv (R235). -/
def fireGmLdv : Fire := fireAccess 12 [] 0
/-- GM_LDV (R235). -/
def execGmLdv (g : Guard) (x : Src) (s : State) : Host.Outcome State Fault Refusal :=
  runMove (.gmLdv g x) g x fireGmLdv s

/-- stv (R235). -/
def fireGmStv : Fire := fireAccess 13 [0] 0
/-- GM_STV (R235). -/
def execGmStv (g : Guard) (x : Src) (s : State) : Host.Outcome State Fault Refusal :=
  runMove (.gmStv g x) g x fireGmStv s

/-- amo (R237). -/
def fireGmAmo : Fire := fireAccess 14 [0] 0
/-- GM_AMO (R237). -/
def execGmAmo (g : Guard) (x : Src) (s : State) : Host.Outcome State Fault Refusal :=
  runMove (.gmAmo g x) g x fireGmAmo s

/-- cas (R238). -/
def fireGmCas : Fire := fireAccess 15 [0, 1] 0
/-- GM_CAS (R238). -/
def execGmCas (g : Guard) (x : Src) (s : State) : Host.Outcome State Fault Refusal :=
  runMove (.gmCas g x) g x fireGmCas s

/-- fred (R241). -/
def fireGmFred : Fire := fireAccess 16 [0] 0
/-- GM_FRED (R241). -/
def execGmFred (g : Guard) (x : Src) (s : State) : Host.Outcome State Fault Refusal :=
  runMove (.gmFred g x) g x fireGmFred s

/-- fredrd (R241). -/
def fireGmFredrd : Fire := fireAccess 17 [] 0
/-- GM_FREDRD (R241). -/
def execGmFredrd (g : Guard) (x : Src) (s : State) : Host.Outcome State Fault Refusal :=
  runMove (.gmFredrd g x) g x fireGmFredrd s

/-- fredclr (R241). -/
def fireGmFredclr : Fire := fireAccess 18 [] 0
/-- GM_FREDCLR (R241). -/
def execGmFredclr (g : Guard) (x : Src) (s : State) : Host.Outcome State Fault Refusal :=
  runMove (.gmFredclr g x) g x fireGmFredclr s

/-- fence (R243). -/
def fireGmFence : Fire := fireAccess 19 [] 0
/-- GM_FENCE (R243). -/
def execGmFence (g : Guard) (x : Src) (s : State) : Host.Outcome State Fault Refusal :=
  runMove (.gmFence g x) g x fireGmFence s

/-- gath (R240). -/
def fireGmGath : Fire := fireAccess 20 [0] 0
/-- GM_GATH (R240). -/
def execGmGath (g : Guard) (x : Src) (s : State) : Host.Outcome State Fault Refusal :=
  runMove (.gmGath g x) g x fireGmGath s

/-- scat (R240). -/
def fireGmScat : Fire := fireAccess 21 [0, 1] 1
/-- GM_SCAT (R240). -/
def execGmScat (g : Guard) (x : Src) (s : State) : Host.Outcome State Fault Refusal :=
  runMove (.gmScat g x) g x fireGmScat s

end Sys2Proof.Machine
end

