-- ==== Sys2Proof/Machine/Slu.lean ====
section
/-!
DEFINITION. Machine/Slu.lean: sluices and semaphores (R359-R369): groups, arrivals and additions, the completion check, the
consumers, and the slu operations.
-/
namespace Sys2Proof.Machine

/-- A sluice of a tile. -/
def sluiceOf (t : Tile) (i : Nat) : Sluice := tget Sluice.reset t.sluices i
/-- A sluice written back. -/
def putSluice (t : Tile) (i : Nat) (x : Sluice) : Tile := { t with sluices := tset Sluice.reset t.sluices i x }
/-- A semaphore of a tile. -/
def semOf (t : Tile) (i : Nat) : Sem := tget Sem.reset t.sems i
/-- A semaphore written back. -/
def putSem (t : Tile) (i : Nat) (x : Sem) : Tile := { t with sems := tset Sem.reset t.sems i x }

/-- The completion check of R363. -/
def complete (x : Sluice) : Sluice :=
  if x.t = 0 then x
  else
    let k := min (x.c / x.t) (255 - x.p)
    { x with c := x.c - k * x.t, p := x.p + k }

/-- An arrival of u units (R362), with the least timebase it brings its observer (R373: carried + 1; 0 none). The completion check of the
cycle comes after the tile's own operation (R363). -/
def arrived (x : Sluice) (u ts : Nat) (remote : Bool) : Sluice :=
  let n := x.c + u
  { x with c := min n (2 ^ 40 - 1), ovf := x.ovf || decide (2 ^ 40 - 1 < n), ts := BitVec.ofNat 64 (max x.ts.toNat ts),
           remote := x.remote || remote }

/-- An addition of u units (R365). -/
def added (x : Sem) (u ts : Nat) (remote : Bool) : Sem :=
  let n := x.val + u
  { x with val := min n (2 ^ 32 - 1), ovf := x.ovf || decide (2 ^ 32 - 1 < n), ts := BitVec.ofNat 64 (max x.ts.toNat ts),
           remote := x.remote || remote }

/-- A counter of a tile counted up. -/
def countUp (sem : Bool) (i u ts : Nat) (remote : Bool) (t : Tile) : Tile :=
  if sem then putSem t i (added (semOf t i) u ts remote) else putSluice t i (arrived (sluiceOf t i) u ts remote)

/-- A counter of a tile carries on the writes ordered-before an arrival or an addition (R263). -/
def carryView (sem : Bool) (i : Nat) (v : Tab Nat) (t : Tile) : Tile :=
  if v = [] then t
  else if sem then putSem t i { semOf t i with view := tjoin (semOf t i).view v }
  else putSluice t i { sluiceOf t i with view := tjoin (sluiceOf t i).view v }

/-- The completion check of every sluice of a tile, as each cycle makes it. -/
def completeAll (t : Tile) : Tile := { t with sluices := t.sluices.map fun e => (e.1, complete e.2) }

/-- A counter is satisfied (R364). -/
def satisfied (t : Tile) (sem : Bool) (i : Nat) : Bool :=
  if sem then decide (1 ≤ (semOf t i).val) else decide (1 ≤ (sluiceOf t i).p)

/-- Satisfying a counter takes one completion or unit, raises the timebase of the tile's die and orders what the counter carries before
the tile's later accesses (R364, R366, R373, R263). -/
def consume (sem : Bool) (i : Nat) (s : State) : State :=
  let t := s.cur
  if sem then
    let x := semOf t i
    onCur (learn 0 x.view) (raiseTsc { s with cur := putSem t i { x with val := x.val - 1 } } x.ts)
  else
    let x := sluiceOf t i
    onCur (learn 0 x.view) (raiseTsc { s with cur := putSluice t i { x with p := x.p - 1 } } x.ts)

/-! ## Groups (R21, R361) -/

/-- An h by w block at a position inside the tile's rectangle that obeys R21. -/
def groupLegal (p : Place) (row col lh lw : Nat) : Bool :=
  row % 2 ^ lh == 0 && col % 2 ^ lw == 0 && decide (row + 2 ^ lh ≤ rectRows p ∧ col + 2 ^ lw ≤ rectCols p)

/-- The members of the group of a sluice of the focused tile (R361). -/
def groupOf (s : State) (x : Sluice) : List TileId :=
  if x.row = 16 then [s.cur.id]
  else
    let parts := if x.span then List.range s.cur.place.span else [s.cur.place.part]
    parts.flatMap fun p => (block x.row x.col (2 ^ x.lh) (2 ^ x.lw)).map fun q => memberTile s p q.1 q.2

/-- The smallest scope that holds all of these tiles (R257). -/
def scopeOf (i : TileId) (ts : List TileId) : Nat :=
  if ts.all fun j => decide (j = i) then 0
  else if ts.all fun j => clusterOf j == clusterOf i then 1
  else if ts.all fun j => j.die == i.die then 2
  else 3

/-! ## Releases (R366) -/

/-- Every LS access before a release, of at most its scope, has been performed (R366, R261, R259). -/
def lsDone (s : State) (serial scope : Nat) : Bool :=
  let t := s.cur
  (t.gm.all fun e => e.isFence || e.path != 0 || decide (serial ≤ e.serial) || decide (scope < e.scope s) || e.performed) &&
    !lwWaits t serial scope && !fenceHolds t 0 serial && !acquireHolds t serial &&
    t.checked.all fun c => c.kind != 0 || decide (scope < c.scope)

/-- When an arrival that takes effect in the cycle of wheel number `now` is applied at a target: one more than the wheel number of that
cycle, 2 + h cycles later on the ring of the cluster; 0 marks a packet, which has no fixed latency (R362). -/
def ringDue (now : Nat) (i j : TileId) : Nat :=
  if clusterOf i = clusterOf j then (now + 2 + ringDist (ringPos i) (ringPos j)) % 60 + 1 else 0

/-- A held release of the focused tile that may take effect, and does (R366, R373). -/
def releaseArrive (serial : Nat) (s : State) : State :=
  onCur (fun t => { t with arrives := t.arrives.map fun a =>
    if a.serial = serial ∧ a.held then
      { a with held := false, ts := BitVec.ofNat 64 ((tscOf s).toNat + 1), view := knownBy s.cur 0 a.scope,
               targets := a.targets.map fun q => (q.1, ringDue s.cur.wheel s.cur.id q.1) }
    else a }) s

/-- The oldest held release that may take effect: releases to one counter, and of no narrower scope, keep their order. -/
def releasable (s : State) : Option Arrive :=
  s.cur.arrives.find? fun a =>
    a.held && lsDone s a.serial a.scope &&
      !(s.cur.arrives.any fun b => b.held && decide (b.serial < a.serial) &&
          ((b.sem == a.sem && b.idx == a.idx) || decide (b.scope ≤ a.scope)))

/-- An arrival or addition applied at one target. -/
def applyArrive (a : Arrive) (j : TileId) (s : State) : State :=
  let i := s.cur.id
  onTile j (onCur fun t => carryView a.sem a.idx a.view (countUp a.sem a.idx a.units a.ts.toNat (decide (i ≠ j)) t)) s

/-- A target struck off; an arrive that has reached every member is over. -/
def strike (serial : Nat) (q : TileId × Nat) (t : Tile) : Tile :=
  let as := t.arrives.map fun a => if a.serial = serial then { a with targets := a.targets.erase q } else a
  { t with arrives := as.filter fun a => a.held || !a.targets.isEmpty }

/-- The arrivals from one sender that are due at the focused tile in its cycle, in issue order. -/
def ringFrom (i : TileId) (s : State) : State :=
  let j := s.cur.id
  let due := (j, s.cur.wheel % 60 + 1)
  ((tileAt s i).arrives.filter fun a => !a.held && decide (due ∈ a.targets)).foldl (fun s a =>
    onTile i (onCur (strike a.serial due)) (onCur (fun t => carryView a.sem a.idx a.view (countUp a.sem a.idx a.units a.ts.toNat (decide (i ≠ j)) t)) s)) s

/-- The arrivals from the ring that the focused tile applies in its cycle, in ascending sender ring position (R362, R363, R365). -/
def ringArrivals (s : State) : State :=
  if (s.cur :: s.peers).all fun t => t.arrives.isEmpty then s
  else (List.range 16).foldl (fun s r => ringFrom (tileAtRing s.cur.id r) s) s

/-- The packet targets of an arrive that its earlier arrivals have not still to reach (R362: issue order). -/
def packetTarget (t : Tile) (a : Arrive) : Option (TileId × Nat) :=
  a.targets.find? fun q => decide (q.2 = 0) &&
    !(t.arrives.any fun b => decide (b.serial < a.serial) && b.sem == a.sem && b.idx == a.idx && b.targets.any fun p => decide (p.1 = q.1))

/-- One packet arrival or addition of the focused tile applied (R362, R365). -/
def arrivePacket (sem : Bool) (serial : Nat) (s : State) : State :=
  match s.cur.arrives.find? fun a => decide (a.serial = serial) with
  | none => s
  | some a =>
    if a.held || a.sem != sem then s
    else
      match packetTarget s.cur a with
      | none => s
      | some q => onCur (strike serial q) (applyArrive a q.1 s)

/-! ## The operations (R367-R369) -/

/-- The reserved values of b that an operation uses (R367). -/
def sluIllegal (code : Nat) (b : Word) : Bool :=
  let sem := code == 13 || code == 14 || ((code == 11 || code == 12) && bit b 6)
  (sem && decide (16 ≤ fld b 0 6)) || (code == 8 && (decide (4 < fld b 20 3) || decide (4 < fld b 23 3)))

/-- The generic slu operation: its operands, the reserved values, its group, then its effect. -/
def fireSlu (code : Nat) (ports : List Nat) (result : Bool) (units : Bool)
    (group : State → Word → Bool) (effect : Nat → Nat → Word → State → Res State) : Fire := fun slot held b s =>
  (takeOperands s.cur 16 code slot held ports).bind fun q =>
    let w := vecWord b
    let a := fld (opAt q.1 0) 0 64
    if sluIllegal code w || (units && decide (a % 2 ^ 32 = 0)) then .fault (mkFault 1 16 code slot 0)
    else if !group s w then .fault (mkFault 12 16 code slot 0)
    else (accepts s.cur 16 code (if result then [0] else [])).bind fun _ => effect slot a w { s with cur := q.2 }

/-- A release joins the socket and takes effect at once when it may (R366). -/
def queueRelease (sem : Bool) (idx units scope : Nat) (targets : List TileId) (s : State) : Res State :=
  if 8 ≤ (s.cur.arrives.filter fun a => a.held).length then .freeze
  else
    let (k, t) := bumpSerial s.cur
    let a : Arrive :=
      { serial := k, sem := sem, idx := idx, units := units, scope := scope, held := true, targets := targets.map fun i => (i, 0), ts := 0,
        view := [] }
    let s := { s with cur := { t with arrives := t.arrives ++ [a] } }
    .ok (if (releasable s).map Arrive.serial = some k then releaseArrive k s else s)

/-- sinit (R368). -/
def fireSluSinit : Fire :=
  fireSlu 8 [0] false false
    (fun s w => groupLegal s.cur.place (fld w 12 4) (fld w 16 4) (fld w 20 3) (fld w 23 3) &&
      decide (fld w 12 4 ≤ relRow s.cur ∧ relRow s.cur < fld w 12 4 + 2 ^ fld w 20 3 ∧
        fld w 16 4 ≤ relCol s.cur ∧ relCol s.cur < fld w 16 4 + 2 ^ fld w 23 3))
    fun _ a w s =>
      let i := fld w 0 6
      let x := sluiceOf s.cur i
      .ok { s with cur := putSluice s.cur i (complete
        { x with t := a % 2 ^ 40, row := fld w 12 4, col := fld w 16 4, lh := fld w 20 3, lw := fld w 23 3, span := bit w 26 }) }

/-- arrive and arrivb (R368). -/
def arriveEffect (units : Nat) (w : Word) (s : State) : Res State :=
  let g := groupOf s (sluiceOf s.cur (fld w 0 6))
  queueRelease false (fld w 0 6) units (scopeOf s.cur.id g) g s

/-- arrive (R368). -/
def fireSluArrive : Fire := fireSlu 9 [] false false (fun _ _ => true) fun _ _ w s => arriveEffect 1 w s
/-- arrivb (R368). -/
def fireSluArrivb : Fire := fireSlu 10 [0] false true (fun _ _ => true) fun _ a w s => arriveEffect (a % 2 ^ 32) w s

/-- stest (R369): the completion check of the cycle, the take, then the report. -/
def stestEffect (w : Word) (s : State) : Vec × State :=
  let i := fld w 0 6
  let sem := bit w 6
  let cfg := bit w 8 && !sem
  let s := onCur completeAll s
  let take := bit w 7 && !cfg && satisfied s.cur sem i
  let s := if take then consume sem i s else s
  let got := if take then 1 else 0
  if sem then
    let x := semOf s.cur i
    (toVec (x.val * 2 ^ 32 + (if x.ovf then 2 else 0) + got), s)
  else
    let x := sluiceOf s.cur i
    if cfg then
      let (row, col) := if x.row = 16 then (relRow s.cur, relCol s.cur) else (x.row, x.col)
      let g := row % 16 + col % 16 * 16 + x.lh * 256 + x.lw * 2048 + if x.span then 16384 else 0
      (toVec (g * 2 ^ 40 + x.t), s)
    else (toVec (x.c * 2 ^ 24 + x.p * 2 ^ 16 + (if x.ovf then 2 else 0) + got), s)

/-- stest (R369). -/
def fireSluStest : Fire :=
  fireSlu 11 [] true false (fun _ _ => true) fun _ _ w s =>
    let r := stestEffect w s
    .ok (onCur (fun t => deliver t 16 11 0 2 r.1 none) r.2)

/-- sreset (R368). -/
def fireSluSreset : Fire :=
  fireSlu 12 [] false false (fun _ _ => true) fun _ _ w s =>
    .ok (onCur (fun t => if bit w 6 then putSem t (fld w 0 6) Sem.reset else putSluice t (fld w 0 6) Sluice.reset) s)

/-- semadd (R368). -/
def fireSluSemadd : Fire :=
  fireSlu 13 [0] false true
    (fun s w => !bit w 9 ||
      decide (fld w 12 4 < rectRows s.cur.place ∧ fld w 16 4 < rectCols s.cur.place ∧ fld w 10 2 < s.cur.place.span))
    fun _ a w s =>
      let j := if bit w 9 then memberTile s (fld w 10 2) (fld w 12 4) (fld w 16 4) else s.cur.id
      queueRelease true (fld w 0 6) (a % 2 ^ 32) (scopeOf s.cur.id [j]) [j] s

/-- semsub (R368): one that succeeds is an acquire (R366). -/
def fireSluSemsub : Fire :=
  fireSlu 14 [0] true true (fun _ _ => true) fun _ a w s =>
    let i := fld w 0 6
    let x := semOf s.cur i
    let n := a % 2 ^ 32
    let ok := decide (n ≤ x.val)
    let s := if ok then onCur (learn 0 x.view) (raiseTsc { s with cur := putSem s.cur i { x with val := x.val - n } } x.ts) else s
    .ok (onCur (fun t => deliver t 16 14 0 2 (if ok then 1 else 0) none) s)

/-- SLU_SINIT (R368). -/
def execSluSinit (g : Guard) (x : Src) (s : State) : Host.Outcome State Fault Refusal :=
  runMove (.sluSinit g x) g x fireSluSinit s
/-- SLU_ARRIVE (R368). -/
def execSluArrive (g : Guard) (x : Src) (s : State) : Host.Outcome State Fault Refusal :=
  runMove (.sluArrive g x) g x fireSluArrive s
/-- SLU_ARRIVB (R368). -/
def execSluArrivb (g : Guard) (x : Src) (s : State) : Host.Outcome State Fault Refusal :=
  runMove (.sluArrivb g x) g x fireSluArrivb s
/-- SLU_STEST (R368). -/
def execSluStest (g : Guard) (x : Src) (s : State) : Host.Outcome State Fault Refusal :=
  runMove (.sluStest g x) g x fireSluStest s
/-- SLU_SRESET (R368). -/
def execSluSreset (g : Guard) (x : Src) (s : State) : Host.Outcome State Fault Refusal :=
  runMove (.sluSreset g x) g x fireSluSreset s
/-- SLU_SEMADD (R368). -/
def execSluSemadd (g : Guard) (x : Src) (s : State) : Host.Outcome State Fault Refusal :=
  runMove (.sluSemadd g x) g x fireSluSemadd s
/-- SLU_SEMSUB (R368). -/
def execSluSemsub (g : Guard) (x : Src) (s : State) : Host.Outcome State Fault Refusal :=
  runMove (.sluSemsub g x) g x fireSluSemsub s

/-! ## Events -/

/-- An event of the table as the machine's next state. -/
def event (s : State) : Host.Outcome State Fault Refusal := .next s

/-- SLUICE_ARRIVAL (R362): a packet arrival of an arrive of tile t. Ring arrivals come with the cycles. -/
def execSluiceArrival (t : TileId) (serial : Nat) (s : State) : Host.Outcome State Fault Refusal :=
  event (onTile t (arrivePacket false serial) s)
/-- SEMAPHORE_ADDITION (R365): a packet addition of a semadd of tile t. -/
def execSemaphoreAddition (t : TileId) (serial : Nat) (s : State) : Host.Outcome State Fault Refusal :=
  event (onTile t (arrivePacket true serial) s)
/-- SLU_RELEASE_EFFECT (R366). -/
def execSluReleaseEffect (t : TileId) (s : State) : Host.Outcome State Fault Refusal :=
  event (onTile t (fun s => match releasable s with | some a => releaseArrive a.serial s | none => s) s)

end Sys2Proof.Machine
end

