-- ==== Sys2Proof/Machine/Copy.lean ====
section
/-!
DEFINITION. Machine/Copy.lean: copies (R246-R254): the descriptor, one element read and written, completion, parking,
cancellation, the status report and prefetch.
-/
namespace Sys2Proof.Machine

/-! ## The descriptor (R246, R247) -/

/-- The source address word. -/
def copySrc (d : Vec) : Word := BitVec.ofNat 64 (fld d 0 64)
/-- The destination address word. -/
def copyDst (d : Vec) : Word := BitVec.ofNat 64 (fld d 64 64)
/-- The control word. -/
def copyCtl (d : Vec) : Word := BitVec.ofNat 64 (fld d 128 64)
/-- The tag. -/
def copyTag (d : Vec) : Nat := fld (copyCtl d) 16 16
/-- The element size in bytes. -/
def copyElem (d : Vec) : Nat := sizeOf (fld (copyCtl d) 4 3)
/-- The dimensions. -/
def copyDims (d : Vec) : Nat := fld (copyCtl d) 0 4 + 1
/-- The counts. -/
def copyCounts (d : Vec) : List Nat := (List.range (copyDims d)).map fun k => fld d (192 + 16 * k) 16
/-- The strides of one end, from a bit position. -/
def copyStrides (d : Vec) (lo : Nat) : List Int := (List.range (copyDims d)).map fun k => sintOf 32 (fld d (lo + 32 * k) 32)
/-- The number of elements. -/
def copyTotal (d : Vec) : Nat := (copyCounts d).foldl (· * ·) 1
/-- The byte offset of element i at an end: dimension 0 innermost (R248). -/
def copyOff (d : Vec) (dst : Bool) (i : Nat) : Int := walkOff 1 (copyCounts d) (copyStrides d (if dst then 672 else 352)) i

/-- A reserved value in the descriptor (R246, R247). -/
def copyIllegal (d : Vec) : Bool :=
  let bad := fun w : Word => !bit w 63 && decide (fld w 48 15 ≠ 0)
  bad (copySrc d) || bad (copyDst d) || decide (10 < copyDims d) || (copyCounts d).any (fun n => n == 0) ||
    decide (2 ^ 40 < copyTotal d * copyElem d)

/-- An address word with an element's offset added (R245). -/
def copyWord (w : Word) (off : Int) : Word :=
  if bit w 63 then
    (w &&& ~~~(BitVec.ofNat 64 ((2 ^ 32 - 1) * 2 ^ 16))) ||| BitVec.ofNat 64 (wrapInt 32 (fld w 16 32 + off) * 2 ^ 16)
  else BitVec.ofNat 64 (wrapInt 48 (fld w 0 48 + off))

/-! ## One element (R248) -/

/-- Where the bytes of an end lie: pieces of cistern memory (byte, address), or a place in storage. -/
inductive Spot where
  | pieces (ps : List (Nat × Nat))
  | storage (e : Entry) (off : Nat)
  deriving DecidableEq, Repr

/-- What an access of a copy comes to: it can be made, it waits (R219, or another device must answer), or it stops the copy with a
cause (R251). -/
inductive CopyStep (α : Type) where
  | ok (x : α)
  | wait
  | stop (cause : Nat) (atDst : Bool)

/-- The key of a pump's translations: its cluster and port. -/
def pumpKey (cluster pump : Nat) : Nat := cluster * 4 + pump

/-- A translation by a pump: its cache of 256 entries, or the die's walk unit, may give an old entry until it is invalidated (R220). -/
def pumpTranslate (s : State) (cluster pump ctx va : Nat) (r w : Bool) : Trans :=
  let cached := (tget [] s.dev.pumpCache (pumpKey cluster pump)).find? fun e => decide (e.1 = ctx ∧ e.2.1 = va / 65536)
  chooseTrans (translate s ctx va r w)
    ((cached.map fun e => cachedAnswer e.2.2 va r w).toList ++ [translateOld s (cluster / 16) ctx va r w]) s

/-- The caches after a pump's access at an address: the page's leaf is in both, and the next choice of an old entry is another one. -/
def pumpWalked (cluster pump ctx va : Nat) (s : State) : State :=
  let s := { s with fresh := s.fresh + 1 }
  match translate s ctx va false false with
  | .done pa =>
    let old := (tget [] s.dev.pumpCache (pumpKey cluster pump)).filter fun e => !decide (e.1 = ctx ∧ e.2.1 = va / 65536)
    let new := ((ctx, va / 65536, leafWord s ctx va pa) :: old).take 256
    fillUnit (cluster / 16) ctx va { s with dev := { s.dev with pumpCache := tset [] s.dev.pumpCache (pumpKey cluster pump) new } }
  | _ => s

/-- The pieces translated, or what stops them. -/
def copyPieces (s : State) (pump : Nat) (w : Bool) : List (Nat × Nat) → CopyStep (List (Nat × Nat))
  | [] => .ok []
  | q :: qs =>
    match pumpTranslate s (clusterOf s.cur.id) pump (ctxNum s.cur) q.2 (!w) w with
    | .migrating => .wait
    | .fault c => .stop c w
    | .done pa =>
      if addrStatus s pa ≠ 0 then .stop 26 w
      else
        match copyPieces s pump w qs with
        | .ok ps => .ok ((q.1, pa) :: ps)
        | r => r

/-- The place of element i at an end. -/
def copySpot (s : State) (c : Copy) (dst : Bool) (i : Nat) : CopyStep Spot :=
  let w := if dst then copyDst c.desc else copySrc c.desc
  let e := copyElem c.desc
  if bit w 63 then
    let off := (fld w 16 32 : Int) + copyOff c.desc dst i
    match if dst then c.dst else c.src with
    | none => .stop 15 dst
    | some h => if off < 0 ∨ h.size < off.toNat + e then .stop 15 dst else .ok (.storage h off.toNat)
  else
    let va := (fld w 0 48 : Int) + copyOff c.desc dst i
    if va < 0 then .stop 19 dst
    else
      match copyPieces s c.pump dst (sectorPieces va.toNat e) with
      | .ok ps => .ok (.pieces ps)
      | .wait => .wait
      | .stop x d => .stop x d

/-- The length of a piece of an element. -/
def pieceLen (e : Nat) (q : Nat × Nat) : Nat := min (e - q.1) (32 - q.2 % 32)

/-- The bytes of the source with a mark at each byte of a poisoned word; `far` holds the bytes another device has answered, marked in the
same way. -/
def copyRead (s : State) (e : Nat) (far : List (Byte × Bool)) : Spot → List (Byte × Bool)
  | .storage h off =>
    (List.range e).map fun i => (mget (spaceMem s h.space) (h.off + off + i), poisonHit (spacePoison s h.space) 8 (h.off + off + i) 1)
  | .pieces ps => ps.flatMap fun q => (List.range (pieceLen e q)).map fun i =>
      if ownAddr s q.2 then (mget s.dev.mem (q.2 + i), memPoisoned s (q.2 + i) 1) else (far[q.1 + i]?).getD (0, false)

/-- Words of size g that marked bytes from an address fall into. -/
def markedWords (g a : Nat) (bs : List (Byte × Bool)) : List Nat :=
  (((List.range bs.length).zip bs).filter fun x => x.2.2).map (fun x => (a + x.1) / g) |>.eraseDups

/-- The destination write: none where R221 refuses it; else the state and the words written poisoned. -/
def copyWrite (s : State) (e : Nat) (bs : List (Byte × Bool)) : Spot → Option (State × Nat)
  | .storage h off =>
    let a := h.off + off
    (spaceWrite s h.space a (bs.map Prod.fst)).map fun s =>
      let ws := markedWords 8 a bs
      (putSpace s h.space (spaceMem s h.space) (ws ++ (spacePoison s h.space).filter fun x => decide (x ∉ ws)), ws.length)
  | .pieces ps =>
    let own := ps.filter fun q => ownAddr s q.2
    if own.any fun q => poisonPart s.dev.poison 32 q.2 (pieceLen e q) then none
    else
      some (own.foldl (fun (r : State × Nat) q =>
        let part := (bs.drop q.1).take (pieceLen e q)
        let s := memStore r.1 q.2 (part.map Prod.fst)
        let ws := markedWords 32 q.2 part
        ({ s with dev := { s.dev with poison := ws ++ s.dev.poison.filter fun x => decide (x ∉ ws) } }, r.2 + ws.length)) (s, 0))

/-- Whether a place lies in another device. -/
def Spot.far (s : State) : Spot → Bool
  | .storage .. => false
  | .pieces ps => ps.any fun q => !ownAddr s q.2

/-- The translations of an end used: the pump's cache takes the pages (R220). -/
def spotWalked (c : Copy) (dst : Bool) (s : State) : State :=
  let w := if dst then copyDst c.desc else copySrc c.desc
  if bit w 63 then s
  else
    let va := wrapInt 48 (fld w 0 48 + copyOff c.desc dst c.done)
    let last := va + copyElem c.desc - 1
    let s := pumpWalked (clusterOf s.cur.id) c.pump (ctxNum s.cur) va s
    if last / 65536 = va / 65536 then s else pumpWalked (clusterOf s.cur.id) c.pump (ctxNum s.cur) last s

/-- A handle event of a copy at its storage. -/
def spotEvent (s : State) (ev : HEvent) : Spot → Option State
  | .storage h _ => handleEvent s h ev
  | .pieces _ => some s

/-- The read of the element at the cursor, as far as it can be made now: its place and the state after the read event, or why not. `far`:
another device has answered with its bytes. -/
def copyReadNext (s : State) (c : Copy) (far : Bool) : CopyStep (Spot × State) :=
  match copySpot s c false c.done with
  | .wait => .wait
  | .stop x d => .stop x d
  | .ok a =>
    if !far && a.far s then .wait
    else match spotEvent s .read a with | none => .stop 15 false | some s1 => .ok (a, s1)

/-- The write of the element at the cursor, likewise. `far`: another device has answered that it has written it. -/
def copyWriteNext (s : State) (c : Copy) (far : Bool) : CopyStep (Spot × State) :=
  match copySpot s c true c.done with
  | .wait => .wait
  | .stop x d => .stop x d
  | .ok b =>
    if !far && b.far s then .wait
    else match spotEvent s .write b with | none => .stop 15 true | some s1 => .ok (b, s1)

/-- A copy of the focused tile changed. -/
def putCopy (serial : Nat) (f : Copy → Copy) (t : Tile) : Tile :=
  { t with copies := t.copies.map fun c => if c.serial = serial then f c else c }

/-- The cursor moves past an element: its bytes are counted, on the sluice too (R248). -/
def countElement (c : Copy) (poi : Nat) (t : Tile) : Tile :=
  let e := copyElem c.desc
  let ctl := copyCtl c.desc
  let last := decide (copyTotal c.desc ≤ c.done + 1)
  let next := fun (c : Copy) =>
    { c with done := c.done + 1, bytes := c.bytes + e, poi := c.poi + poi, finished := last, buf := [], put := 0, rows := none }
  let t := putCopy c.serial next t
  if bit ctl 14 then countUp false (fld ctl 8 6) e 0 false t else t

/-- The place that logs a copy's refusal, and the address it logs (R310). -/
def spotLog (s : State) (kind st : Nat) : Spot → State
  | .storage h off => logRefusal s (storagePlace s h)
      { addr := storageWord h off, ctx := ctxNum s.cur, pos := logPos s.cur, kind := kind, time := tscOf s, st := st }
  | .pieces ps => logAccess s (((ps.head?).map Prod.snd).getD 0) kind st

/-- The scope of a copy's destination (R242). -/
def spotScope (s : State) : Spot → Nat
  | .storage h _ => h.level
  | .pieces ps => ps.foldl (fun m q => max m (scopeOfAddr s q.2)) 3

/-! ### The pump's slots (R16, R19) -/

/-- The key of a pump's slot in a cycle of the bank wheel. -/
def slotKey (cluster pump wheel : Nat) : Nat := (cluster * 4 + pump) * 60 + wheel

/-- The pump of a port of the focused tile's cluster may use a bank of the slice now: the slot is its own, and it has not used it (R16). -/
def pumpOpen (s : State) (pump bank : Nat) : Bool :=
  (s.cur.wheel + bank) % 20 == 16 + pump && tget 0 s.dev.pumpSlots (slotKey (clusterOf s.cur.id) pump s.cur.wheel) == 0

/-- The pump has used its slot of this cycle. -/
def useSlot (pump : Nat) (s : State) : State :=
  { s with dev := { s.dev with pumpSlots := tset 0 s.dev.pumpSlots (slotKey (clusterOf s.cur.id) pump s.cur.wheel) 1 } }

/-- The slice rows that an access of a copy has still to reach: none outside the slice. -/
def slotRows (c : Copy) : Spot → List Nat
  | .storage h off => if h.level = 1 then c.rows.getD (rowsOf off (copyElem c.desc)) else []
  | .pieces _ => []

/-- One of the rows reached in the pump's slot of this cycle, where one of them is open: whether none is left then, and the state. -/
def takeSlot (c : Copy) (a : Spot) (s : State) : Bool × State :=
  let rows := slotRows c a
  match rows.find? fun r => pumpOpen s c.pump (bankOf 1 r) with
  | none => (rows.isEmpty, s)
  | some r =>
    let left := rows.erase r
    (left.isEmpty, onCur (putCopy c.serial fun c => { c with rows := if left.isEmpty then none else some left }) (useSlot c.pump s))

/-! ### The element at the cursor (R248, R221) -/

/-- Every byte of the element at the cursor has been read. -/
def Copy.isRead (c : Copy) : Bool := decide (copyElem c.desc ≤ c.buf.length)

/-- The bytes of cistern memory of this device that a place holds. -/
def spotBytes (s : State) (e : Nat) : Spot → List Nat
  | .storage .. => []
  | .pieces ps => (ps.filter fun q => ownAddr s q.2).flatMap fun q => (List.range (pieceLen e q)).map fun i => q.2 + i

/-- A write of a copy recorded in home order (R264); with a sluice, its bytes are ordered before the observer of their count (R263). -/
def recordCopy (c : Copy) (as : List Nat) (before s : State) : State :=
  if as.isEmpty then s
  else
    let s := stampBytes 1 false false as before s
    let n := s.dev.writes
    if bit (copyCtl c.desc) 14 then onCur (carryView false (fld (copyCtl c.desc) 8 6) (as.foldl (fun v a => tput v a n) [])) s else s

/-- The element read, once its last row is reached: its bytes wait in the pump. `far`: bytes another device has answered. -/
def elementRead (c : Copy) (far : Option (List (Byte × Bool))) (s : State) : State :=
  match copyReadNext s c far.isSome with
  | .ok (a, _) =>
    let r := takeSlot c a s
    if !r.1 then r.2
    else
      let s1 := spotWalked c false ((spotEvent r.2 .read a).getD r.2)
      onCur (putCopy c.serial fun c => { c with buf := c.buf ++ (copyRead s1 (copyElem c.desc) (far.getD []) a).drop c.buf.length, rows := none }) s1
  | _ => s

/-- The bytes written and counted; a write that R221 refuses is noted and the copy goes on. Bytes that earlier pieces have written are not
written again (R268). -/
def moveElement (c : Copy) (bs : List (Byte × Bool)) (b : Spot) (s : State) : State :=
  let rest := fun (x : Spot) => match x with
    | .pieces ps => Spot.pieces (ps.filterMap fun q =>
        if q.1 + pieceLen (copyElem c.desc) q ≤ c.put then none else if c.put ≤ q.1 then some q else some (c.put, q.2 + (c.put - q.1)))
    | x => x
  let b' := if c.put = 0 then b else rest b
  match copyWrite s (copyElem c.desc) bs b' with
  | some (s1, n) => onCur (countElement c n) (recordCopy c (spotBytes s (copyElem c.desc) b') s s1)
  | none =>
    let s := spotLog s 9 4 b
    onCur (fun t => countElement c 0 (failStore t (spotScope s b) false (copyWord (copyDst c.desc) (copyOff c.desc true c.done)))) s

/-- The destination write of a checked tile as the comparator sees it (R311). -/
def copyShown (c : Copy) (bs : List (Byte × Bool)) : CheckedWrite :=
  { kind := 3, space := 0, addr := (copyWord (copyDst c.desc) (copyOff c.desc true c.done)).toNat, data := bs.map Prod.fst, scope := 3,
    word := copyDst c.desc, serial := c.serial, age := 0 }

/-- The element's bytes written, once the last row of the destination is reached. `far`: another device has written it. -/
def elementPut (c : Copy) (bs : List (Byte × Bool)) (far : Bool) (s : State) : State :=
  match copyWriteNext s c far with
  | .ok (b, _) =>
    let r := takeSlot c b s
    if r.1 then moveElement c bs b (spotWalked c true ((spotEvent r.2 .write b).getD r.2)) else r.2
  | _ => s

/-- The write of an element of a checked tile: it is shown to the comparator, and leaves with the partner's when both stand at the heads
(R311). -/
def elementPair (c : Copy) (bs : List (Byte × Bool)) (far : Bool) (s : State) : State :=
  if s.cur.checked.all fun w => !(w.kind == 3 && w.serial == c.serial) then
    onCur (fun t => { t with checked := t.checked ++ [copyShown c bs] }) s
  else
    match pairMatch s with
    | some (x, y) =>
      if x.kind = 3 ∧ x.serial = c.serial then
        let r := elementPut c bs far s
        let moved := (r.cur.copies.any fun d => d.serial == c.serial && decide (c.done < d.done))
        let mirror := fun (t : Tile) => match t.copies.find? fun c => decide (c.serial = y.serial) with
          | some d => countElement d 0 t
          | none => t
        if moved then onTile (partnerOf s.cur.id) (onCur mirror) (popPair r) else r
      else s
    | none => s

/-- A copy of the focused tile may act: it is neither parked nor finished, and no fence holds it (R243, R251). -/
def copyGoes (t : Tile) (c : Copy) : Bool := c.parked.isNone && !c.finished && !fenceHolds t 1 c.serial

/-- The write of the element that a copy of the focused tile has read (R248, R311). -/
def writeRead (serial : Nat) (far : Bool) (s : State) : State :=
  match s.cur.copies.find? fun c => decide (c.serial = serial) with
  | none => s
  | some c =>
    if !copyGoes s.cur c || !c.isRead then s else if bit s.cur.csr.status 7 then elementPair c c.buf far s else elementPut c c.buf far s

/-- The read of the element at the cursor, unless it has been read. -/
def readOnly (serial : Nat) (far : Option (List (Byte × Bool))) (s : State) : State :=
  match s.cur.copies.find? fun c => decide (c.serial = serial) with
  | none => s
  | some c => if copyGoes s.cur c && !c.isRead then elementRead c far s else s

/-- One element of a copy of the focused tile as far as it can go now: its read, unless it has been read, then its write (R248). The two
are separate accesses, and other accesses may come between them (R268; log 22). -/
def elementWrite (serial : Nat) (far : Option (List (Byte × Bool))) (s : State) : State := writeRead serial false (readOnly serial far s)

/-- The next atomic piece of an element at an address of cistern memory (R268): of an element aligned to its size, at most 16, that
many bytes; else a whole aligned word or one byte. -/
def copyPiece (c : Copy) (va a left : Nat) : Nat :=
  let m := min (copyElem c.desc) 16
  min left (if va % m = 0 then m else if a % 4 = 0 ∧ 4 ≤ left then 4 else 1)

/-- The place of the byte at a position of an element: the piece of cistern memory that holds it, from that byte on. -/
def spotAt (e pos : Nat) : Spot → Option (Nat × Nat)
  | .storage .. => none
  | .pieces ps => (ps.find? fun q => decide (q.1 ≤ pos ∧ pos < q.1 + pieceLen e q)).map fun q => (q.2 + (pos - q.1), pieceLen e q - (pos - q.1))

/-- One atomic piece of a copy's element alone (R268): read, or written where the element has been read. The last piece, and one that is
refused, come with the element itself; so do elements that lie in storage, and those of checked tiles. -/
def elementPiece (serial : Nat) (s : State) : State :=
  match s.cur.copies.find? fun c => decide (c.serial = serial) with
  | none => s
  | some c =>
    let e := copyElem c.desc
    let va := fun (dst : Bool) => wrapInt 48 (fld (if dst then copyDst c.desc else copySrc c.desc) 0 48 + copyOff c.desc dst c.done)
    if !copyGoes s.cur c || bit s.cur.csr.status 7 then s
    else if !c.isRead then
      match copyReadNext s c false with
      | .ok (a, _) =>
        match spotAt e c.buf.length a with
        | some (x, left) =>
          let n := copyPiece c (va false) x left
          let bs := ((copyRead s e [] a).drop c.buf.length).take n
          if e ≤ c.buf.length + n then s else onCur (putCopy serial fun c => { c with buf := c.buf ++ bs }) s
        | none => s
      | _ => s
    else
      match copyWriteNext s c false with
      | .ok (b, _) =>
        match spotAt e c.put b with
        | some (x, left) =>
          let n := copyPiece c (va true) x left
          let part := (c.buf.drop c.put).take n
          if e ≤ c.put + n ∨ part.any Prod.snd ∨ memPoisoned s x n then s
          else
            onCur (putCopy serial fun c => { c with put := c.put + n })
              (recordCopy c ((List.range n).map fun i => x + i) s (memStore s x (part.map Prod.fst)))
        | none => s
      | _ => s

/-! ## Completion and parking -/

/-- A copy over: it counts its received message (R287). -/
def endCopy (serial : Nat) (t : Tile) : Tile :=
  { t with copies := t.copies.filter fun c => decide (c.serial ≠ serial),
           checked := t.checked.filter fun w => !(w.kind == 3 && w.serial == serial),
           net := { t.net with received := t.net.received + 1 } }

/-- The completion of a copy (R248): the handle's declared count, then the interrupt. -/
def completeCopy (serial : Nat) (s : State) : State :=
  match s.cur.copies.find? fun c => decide (c.serial = serial) with
  | none => s
  | some c =>
    if !c.finished then s
    else
      let s := match c.dst with | some e => countCompletion s e | none => s
      onCur (fun t => endCopy serial (if bit (copyCtl c.desc) 15 then addEvent t 1 (copyTag c.desc) else t)) s

/-- The address word of the access that stops a copy, with the element's offset (R308). -/
def stopWord (c : Copy) (atDst : Bool) : Word :=
  copyWord (if atDst then copyDst c.desc else copySrc c.desc) (copyOff c.desc atDst c.done)

/-- A copy parks at its cursor with a record (R251, R308); a handle refusal, a bad address and a lost element are logged (R310). -/
def parkCopy (c : Copy) (cause : Nat) (atDst : Bool) (s : State) : State :=
  let word := stopWord c atDst
  let kind := if atDst then 9 else 8
  let s := if cause = 15 then logHandle s (if atDst then c.dst else c.src) (fld word 0 10) kind (fld word 16 32)
    else if cause = 26 then
      match pumpTranslate s (clusterOf s.cur.id) c.pump (ctxNum s.cur) (fld word 0 48) (!atDst) atDst with
      | .done pa => logAccess s pa kind (addrStatus s pa)
      | _ => s
    else if cause = 0 then
      let addr : Word := match copySpot s c atDst c.done with
        | .ok (.storage h off) => storageWord h off
        | .ok (.pieces ps) => BitVec.ofNat 64 ((ps.head?.map Prod.snd).getD 0)
        | _ => 0
      logRefusal s s.cur.id.die { addr := addr, ctx := ctxNum s.cur, pos := logPos s.cur, kind := 11, time := tscOf s, st := 6 }
    else s
  let s := onCur (putCopy c.serial fun c => { c with parked := some cause, atDst := atDst }) s
  match curNode s with
  | none => s
  | some n =>
    let t := s.cur
    eventRecord n.ref.ctx
      (faultRecord 2 cause 0 (entryWord n.ref) (queueByte n) t.place.part (relRow t % 16 * 16 + relCol t % 16) t.csr.cause.toNat
        t.csr.epc.toNat word.toNat (tscOf s).toNat (copyTag c.desc + if atDst then 65536 else 0)) s

/-- The condition that stops the element at the cursor, at the access that comes next (R251). -/
def copyStop (s : State) (c : Copy) : Option (Nat × Bool) :=
  if !c.isRead then match copyReadNext s c false with | .stop x d => some (x, d) | _ => none
  else match copyWriteNext s c false with | .stop x d => some (x, d) | _ => none

/-- The next access of a copy can be made now: it is not stopped, waits for no other device, and a slot of its pump is open where it needs
one. -/
def copyReady (s : State) (c : Copy) : Bool :=
  let open' := fun (a : Spot) => (slotRows c a).isEmpty || (slotRows c a).any fun r => pumpOpen s c.pump (bankOf 1 r)
  if !c.isRead then match copyReadNext s c false with | .ok (a, _) => open' a | _ => false
  else match copyWriteNext s c false with | .ok (b, _) => open' b | _ => false

/-- COPY_PARK's effect: the condition that stops the element at the cursor; an element that could be made parks only where a dead
link leaves it no route (cause 0). -/
def parkNow (serial : Nat) (s : State) : State :=
  match s.cur.copies.find? fun c => decide (c.serial = serial) with
  | none => s
  | some c =>
    if c.parked.isSome || c.finished then s
    else
      match copyStop s c with
      | some (cause, d) => parkCopy c cause d s
      | none => if s.dev.links.any fun l => l.2.dead then parkCopy c 0 false s else s

/-! ## The operations -/

/-- The entry an address word of the descriptor names (R246: resolved when the descriptor is staged). -/
def resolveWord (t : Tile) (w : Word) : Option Entry := if bit w 63 then tfind t.table (fld w 0 10) else none

/-- The permit counter of a pump and a main slot: cluster, mesh port, slot (R303). -/
def permitKey (cluster pump slot : Nat) : Nat := (cluster * 4 + pump) * 16 + slot

/-- A copy still stands in its pump's command queue: the pump has not begun it (log 15). -/
def Copy.queued (c : Copy) : Bool := c.done == 0 && c.buf.isEmpty && c.rows.isNone && c.parked.isNone && !c.finished

/-- The commands in a pump's queue (R269): copies of the cluster's tiles that it has not begun, and the roles that hold permits (log 15). -/
def pumpQueue (s : State) (cluster pump : Nat) : Nat :=
  ((s.cur :: s.peers).map fun t =>
    if clusterOf t.id = cluster then (t.copies.filter fun c => c.pump == pump && c.queued).length else 0).sum +
    ((List.range 16).filter fun i => tget 0 s.dev.permits (permitKey cluster pump i) != 0).length

/-- The pump that a new copy goes to: the one with the fewest commands, the lowest port on a tie; none where every queue holds 64 (R269;
log 15). -/
def choosePump (s : State) : Option Nat :=
  let q := pumpQueue s (clusterOf s.cur.id)
  let best := [1, 2, 3].foldl (fun b p => if q p < q b then p else b) 0
  if q best < 64 then some best else none

/-- copy (R246-R249, R269). -/
def fireCpCopy : Fire := fun slot _ b s =>
  if copyIllegal b then .fault (mkFault 1 14 8 slot 0)
  else if 1024 ≤ s.cur.copies.length then .freeze
  else if [copySrc b, copyDst b].any fun w => bit w 63 && ttHolds s.cur (fld w 0 10) s.cur.serial then .freeze
  else
    match choosePump s with
    | none => .freeze
    | some p =>
      let (k, t) := bumpSerial s.cur
      let c : Copy :=
        { desc := b, serial := k, done := 0, bytes := 0, poi := 0, parked := none, atDst := false, src := resolveWord t (copySrc b),
          dst := resolveWord t (copyDst b), finished := false, pump := p, buf := [], put := 0, rows := none }
      .ok { s with cur := { t with copies := t.copies ++ [c], net := { t.net with sent := t.net.sent + 1 } } }

/-- The report of cstat (R252). -/
def cstatValue (t : Tile) (b : Word) : Vec :=
  if bit b 16 then toVec t.copies.length
  else
    match t.copies.find? fun c => decide (copyTag c.desc = fld b 0 16) with
    | none => 0
    | some c => toVec (c.bytes % 2 ^ 40 * 2 ^ 24 + min c.poi 255 * 2 ^ 16 + if c.parked.isSome then 2 else 1)

/-- cstat (R252). -/
def fireCpCstat : Fire := fun _ _ b s =>
  (accepts s.cur 14 9 [0]).bind fun _ => .ok (onCur (fun t => deliver t 14 9 0 2 (cstatValue t (vecWord b)) none) s)

/-- ccancel (R253). -/
def fireCpCcancel : Fire := fun _ _ b s =>
  (accepts s.cur 14 10 [0]).bind fun _ =>
    let hit := s.cur.copies.filter fun c => decide (copyTag c.desc = fld b 0 16)
    .ok (onCur (fun t => deliver (hit.foldl (fun t c => endCopy c.serial t) t) 14 10 0 2 (toVec hit.length) none) s)

/-- prefetch (R254): translations of the range enter the cache; nothing else changes. -/
def fireCpPrefetch : Fire := fun slot held b s =>
  (takeOperands s.cur 14 11 slot held [0]).bind fun q =>
    let n := fld (opAt q.1 0) 0 64
    if n < 1 ∨ 2 ^ 20 < n then .fault (mkFault 1 14 11 slot 0)
    else
      let va := fld b 0 48
      let s := { s with cur := q.2 }
      .ok ((List.range ((va + n - 1) / 65536 - va / 65536 + 1)).foldl (fun s i =>
        let a := (va / 65536 + i) * 65536
        match translate s (ctxNum s.cur) a false false with
        | .done pa => if s.cur.walk.cached.any fun e => e.1 == a / 65536 then s else cacheLeaf s a pa
        | _ => s) s)

/-- CP_COPY (R246). -/
def execCpCopy (g : Guard) (x : Src) (s : State) : Host.Outcome State Fault Refusal :=
  runMove (.cpCopy g x) g x fireCpCopy s
/-- CP_CSTAT (R252). -/
def execCpCstat (g : Guard) (x : Src) (s : State) : Host.Outcome State Fault Refusal :=
  runMove (.cpCstat g x) g x fireCpCstat s
/-- CP_CCANCEL (R253). -/
def execCpCcancel (g : Guard) (x : Src) (s : State) : Host.Outcome State Fault Refusal :=
  runMove (.cpCcancel g x) g x fireCpCcancel s
/-- CP_PREFETCH (R254). -/
def execCpPrefetch (g : Guard) (x : Src) (s : State) : Host.Outcome State Fault Refusal :=
  runMove (.cpPrefetch g x) g x fireCpPrefetch s

/-! ## Events -/

/-- COPY_ELEMENT_WRITE (R248). -/
def execCopyElementWrite (t : TileId) (serial : Nat) (s : State) : Host.Outcome State Fault Refusal :=
  event (onTile t (elementWrite serial none) s)
/-- COPY_COMPLETION (R248). -/
def execCopyCompletion (t : TileId) (serial : Nat) (s : State) : Host.Outcome State Fault Refusal :=
  event (onTile t (completeCopy serial) s)
/-- COPY_PARK (R251). -/
def execCopyPark (t : TileId) (serial : Nat) (s : State) : Host.Outcome State Fault Refusal :=
  event (onTile t (parkNow serial) s)

end Sys2Proof.Machine
end

