-- ==== Sys2Proof/Machine/Net.lean ====
section
/-!
DEFINITION. Machine/Net.lean: the network operations and events (R290-R299): circuits with their slots and transit, packets,
multicast packets, arrivals at queues and the spillway, and the checked pair's comparator (R311).
-/
namespace Sys2Proof.Machine

/-! ## Arrivals (R296, R297) -/

/-- An element enters a receive queue or the spillway; none where both are full (R297). -/
def enterQueue (q : Nat) (v : Vec) (ui : Bool) (t : Tile) : Option Tile :=
  let cur := tget [] t.net.q q
  let counted := fun (t : Tile) =>
    let t := { t with net := { t.net with received := t.net.received + 1 } }
    if ui then addEvent t 2 q else t
  if spillCount t q = 0 ∧ cur.length < 16 then
    some (counted { t with net := { t.net with q := tset [] t.net.q q (cur ++ [v]) } })
  else if t.net.spill.length < 512 then some (counted (spillIn q v t))
  else none

/-- An element offered to a tile: whether it was accepted. -/
def offer (e : Elem) (j : TileId) (s : State) : Bool × State :=
  match enterQueue e.q e.val e.ui (tileAt s j) with
  | some t => (true, onTile j (fun s => { s with cur := t }) s)
  | none => (false, s)

/-- An element offered to its destinations in order: those that refuse it are left. -/
def offerAll (e : Elem) (s : State) : List TileId × State :=
  e.dsts.foldl (fun (r : List TileId × State) j =>
    let o := offer e j r.2
    (if o.1 then r.1 else r.1 ++ [j], o.2)) ([], s)

/-- An element of the tile that has not been accepted everywhere, changed; without destinations it is gone. -/
def putElem (serial : Nat) (f : Elem → Elem) (t : Tile) : Tile :=
  let out := t.net.out.map fun e => if e.serial = serial then f e else e
  { t with net := { t.net with out := out.filter fun e => !e.dsts.isEmpty } }

/-- A send that waits in the comparator (R311). -/
def sendBlocked (t : Tile) (serial : Nat) : Bool := t.checked.any fun c => c.kind == 2 && c.serial == serial

/-! ## Circuits (R290-R292) -/

/-- The element of a circuit that leaves next: none while the die's injection is paused (R322), a fence holds it (R243), or it has entered the
send buffer in this mesh cycle (R292). -/
def nextElem (s : State) (c : Nat) : Option Elem :=
  match s.cur.net.out.find? fun e => decide (e.circuit = some c) && !e.sent with
  | none => none
  | some e =>
    if (dieOf s s.cur.id).paused || sendBlocked s.cur e.serial || fenceHolds s.cur 3 e.serial || e.fresh then none else some e

/-- An element's flit may use slot i of its circuit: the first flit a slot of even index, that of its pair where it was refused, the second
the next one (R292, R318). -/
def slotFits (e : Elem) (i : Nat) : Bool :=
  if e.age = 0 then i % 2 == 0 && decide (e.pair = none ∨ e.pair = some (i / 2)) else i % 2 == 1 && decide (e.pair = some (i / 2))

/-- One slot of a circuit, at its offset of the revolution: the first or the second flit of its next element leaves; after the second the
transit begins (R292). -/
def circuitSlot (c : Nat) (s : State) : State :=
  match nextElem s c, s.cur.net.circuits.find? fun k => k.id == c with
  | some e, some k =>
    let i := k.offs.idxOf s.cur.net.revCount
    if c ∈ s.cur.net.slotDone ∨ k.offs.length ≤ i ∨ !slotFits e i then s
    else
      let t := putElem e.serial (fun e =>
        if e.age = 0 then { e with age := 1, pair := some (i / 2) } else { e with sent := true, age := k.transit }) s.cur
      { s with cur := { t with net := { t.net with slotDone := c :: t.net.slotDone } } }
  | _, _ => s

/-- An element of a circuit whose transit is over arrives (R292): behind an element that was refused it is refused too, so the order stays. -/
def circuitArrive (serial : Nat) (s : State) : State :=
  match s.cur.net.out.find? fun e => decide (e.serial = serial) with
  | none => s
  | some e =>
    if !e.sent || e.circuit.isNone || e.age != 0 then s
    else if s.cur.net.out.any fun d => decide (d.circuit = e.circuit ∧ d.serial < serial) then
      onCur (putElem serial fun e => { e with sent := false, age := 0 }) s
    else
      let r := offerAll e s
      onCur (putElem serial fun e => { e with dsts := r.1, sent := false, age := 0 }) r.2

/-! ## Packets (R293-R297) -/

/-- A packet of the tile to a destination that has not been accepted, changed; once it is accepted it is gone. -/
def putPacket (serial : Nat) (j : TileId) (f : Elem → Elem) (t : Tile) : Tile :=
  let out := t.net.out.map fun e => if e.serial = serial ∧ e.dsts = [j] then f e else e
  { t with net := { t.net with out := out.filter fun e => !e.dsts.isEmpty } }

/-- An earlier unicast packet of the tile to the same queue of the same destination is still on its way (R294, R297). -/
def packetBehind (t : Tile) (e : Elem) : Bool :=
  !e.multi && t.net.out.any fun d => d.circuit.isNone && !d.multi && decide (d.serial < e.serial) && d.q == e.q && d.dsts.any fun j => decide (j ∈ e.dsts)

/-- The router at which a packet of a tile stands, with its die. -/
def Elem.router (i : TileId) (e : Elem) : Nat × Nat :=
  match e.place with | some x => (x / 16, x % 16) | none => (i.die, routerOf i)

/-- The next hop of a unicast packet of the focused tile. -/
def packetHop (s : State) (e : Elem) : Hop :=
  match e.dsts with
  | j :: _ => let r := e.router s.cur.id; hopFrom s r.1 r.2 j
  | [] => .stuck

/-- An element of a packet is two flits (R290). -/
def packetFlits : Nat := 2

/-- A router can forward a packet on a channel over a hop: the links have credit, and no circuit reserves the outputs in this mesh cycle
(R20). -/
def hopOpen (s : State) (v d r : Nat) : Hop → Bool
  | .here => !outputReserved s d r 4
  | .stuck => false
  | .across ks _ _ => ks.all fun k => linkTakes s v packetFlits k && linkUnreserved s k

/-- The multicast packets in one input buffer of a router. -/
def vc2At (s : State) (place : Nat) (buf : Option Nat) : List Vc2 := s.dev.vc2.filter fun v => decide (v.place = place ∧ v.buf = buf)
/-- One of the 4 buffers that a router input reserves for multicast packets is free (R295). -/
def vc2Room (s : State) (place : Nat) (buf : Option Nat) : Bool := decide ((vc2At s place buf).length < 4)

/-- A packet of the focused tile may go on: into the network, unless injection is paused (R322), or from router to router. -/
def packetGoes (s : State) (e : Elem) : Bool :=
  e.circuit.isNone && !e.refused && !packetBehind s.cur e && (e.place.isSome || !(dieOf s s.cur.id).paused) && !sendBlocked s.cur e.serial &&
    !fenceHolds s.cur 3 e.serial &&
    (if e.multi then vc2Room s (s.cur.id.die * 16 + routerOf s.cur.id) none
     else let r := e.router s.cur.id; hopOpen s 0 r.1 r.2 (packetHop s e))

/-- A multicast packet enters the network: a VC2 packet with every destination in its residual mask (R294, R295). -/
def injectMulticast (e : Elem) (s : State) : State :=
  let s := onCur (fun t => { t with net := { t.net with out := t.net.out.filter fun d => decide (d.serial ≠ e.serial) } }) s
  let v : Vc2 := { serial := s.dev.hw.serial, place := s.cur.id.die * 16 + routerOf s.cur.id, buf := none, src := s.cur.id, elem := e, left := e.dsts }
  { s with dev := { s.dev with vc2 := s.dev.vc2 ++ [v], hw := { s.dev.hw with serial := s.dev.hw.serial + 1 } } }

/-- A refused packet returns on VC1 to its sender over the hops from a router (R297); the fuel bounds the hops. -/
def returnPacket (src : TileId) : Nat → Nat → Nat → State → State
  | 0, _, _, s => s
  | k + 1, d, r, s =>
    match hopFrom s d r src with
    | .across ks d' r' => returnPacket src k d' r' (leaveBuffer 1 packetFlits ks.getLast? (goOver 1 packetFlits ks s))
    | _ => s

/-- One hop of a unicast packet of the focused tile (R294), or its arrival where it stands at its destination's router: refused where the
spillway is full, it goes back, to be injected again 256 mesh cycles later (R297). -/
def packetStep (e : Elem) (s : State) : State :=
  match e.dsts, packetHop s e with
  | j :: _, .across ks d r =>
    onCur (putPacket e.serial j fun e => { e with place := some (d * 16 + r), buf := ks.getLast? }) (leaveBuffer 0 packetFlits e.buf (goOver 0 packetFlits ks s))
  | j :: _, .here =>
    let o := offer e j (leaveBuffer 0 packetFlits e.buf s)
    if o.1 then onCur (putPacket e.serial j fun e => { e with dsts := [] }) o.2
    else
      let r := e.router s.cur.id
      onCur (putPacket e.serial j fun e => { e with refused := true, age := 0, place := none, buf := none }) (returnPacket s.cur.id 32 r.1 r.2 o.2)
  | _, _ => s

/-- The first packet of a serial that may go on. -/
def packetOf (s : State) (serial : Nat) : Option Elem := s.cur.net.out.find? fun e => decide (e.serial = serial) && packetGoes s e

/-- A packet of the focused tile goes on as far as it can, to its arrival (R294, R297); the fuel bounds the hops. -/
def packetRun (serial : Nat) : Nat → State → State
  | 0, s => s
  | k + 1, s => match packetOf s serial with | some e => if e.multi then injectMulticast e s else packetRun serial k (packetStep e s) | none => s

/-- A packet of the focused tile makes its way to its arrival. -/
def packetArrive (serial : Nat) (s : State) : State := packetRun serial 32 s

/-- A packet of the focused tile makes one hop. -/
def packetOnce (serial : Nat) (s : State) : State := packetRun serial 1 s

/-- A refused packet is injected again 256 mesh cycles later (R297). -/
def packetAgain (serial : Nat) (s : State) : State :=
  onCur (putElem serial fun e => if e.refused && decide (256 ≤ e.age) then { e with refused := false, age := 0 } else e) s

/-- The tiles of a multicast packet's branch, the branch over which a router forwards toward one of them. -/
def branchOf (s : State) (v : Vc2) (h : Hop) : List TileId := v.left.filter fun j => decide (hopFrom s (v.place / 16) (v.place % 16) j = h)

/-- A branch has a free downstream buffer (R295). -/
def branchOpen (s : State) (v : Vc2) (h : Hop) : Bool :=
  hopOpen s 2 (v.place / 16) (v.place % 16) h && match h with | .across ks d r => vc2Room s (d * 16 + r) ks.getLast? | _ => true

/-- The packet of an input buffer that goes next: those behind it wait (R295). -/
def vc2First (s : State) (v : Vc2) : Bool :=
  match vc2At s v.place v.buf with | w :: _ => w.serial == v.serial | [] => false

/-- A destination that refuses a multicast packet gets it again as a unicast packet (R297). -/
def resend (v : Vc2) (s : State) (j : TileId) : State :=
  onTile v.src (onCur fun t =>
    let again : Elem := { v.elem with dsts := [j], multi := false, refused := true, age := 0, place := none, buf := none }
    { t with net := { t.net with out := t.net.out ++ [again] } }) (returnPacket v.src 32 (v.place / 16) (v.place % 16) s)

/-- A branch of a multicast packet forwarded: its destination mask there is cleared. -/
def forwardBranch (serial : Nat) (s : State) (h : Hop) : State :=
  match s.dev.vc2.find? fun v => decide (v.serial = serial) with
  | none => s
  | some v =>
    let go := branchOf s v h
    let left := v.left.filter fun j => decide (j ∉ go)
    let cleared := fun (s : State) =>
      { s with dev := { s.dev with vc2 := s.dev.vc2.map fun x => if x.serial = serial then { x with left := left } else x } }
    match h with
    | .here => let r := offerAll { v.elem with dsts := go } (cleared s); r.1.foldl (resend v) r.2
    | .across ks d r =>
      let s := goOver 2 packetFlits ks (cleared s)
      let w : Vc2 := { v with serial := s.dev.hw.serial, place := d * 16 + r, buf := ks.getLast?, left := go }
      { s with dev := { s.dev with vc2 := s.dev.vc2 ++ [w], hw := { s.dev.hw with serial := s.dev.hw.serial + 1 } } }
    | .stuck => s

/-- A router forwards the multicast packet at the head of an input buffer on every branch that has a free downstream buffer and leads to one
of the named tiles; without branches left it leaves the buffer (R295). -/
def vc2Deliver (packet : Nat) (credit : List TileId) (s : State) : State :=
  match s.dev.vc2.find? fun v => decide (v.serial = packet) with
  | none => s
  | some v =>
    if !vc2First s v then s
    else
      let hops := ((v.left.filter fun j => decide (j ∈ credit)).map fun j => hopFrom s (v.place / 16) (v.place % 16) j).eraseDups
      let s := (hops.filter (branchOpen s v)).foldl (forwardBranch packet) s
      match s.dev.vc2.find? fun v => decide (v.serial = packet) with
      | some x =>
        if x.left.isEmpty then
          leaveBuffer 2 packetFlits x.buf { s with dev := { s.dev with vc2 := s.dev.vc2.filter fun y => y.serial != packet } }
        else s
      | none => s

/-- A multicast packet at the head of its buffer has a branch that can go. -/
def vc2Ready (s : State) (v : Vc2) : Bool :=
  vc2First s v && v.left.any fun j => branchOpen s v (hopFrom s (v.place / 16) (v.place % 16) j)

/-! ## Mesh cycles (R20, R290-R292) -/

/-- Insert by a numeric key, behind the entries of the same key. -/
def insertKey {α : Type} (x : Nat × α) : List (Nat × α) → List (Nat × α)
  | [] => [x]
  | y :: ys => if x.1 < y.1 then x :: y :: ys else y :: insertKey x ys

/-- Sorted by a numeric key. -/
def sortKey {α : Type} (xs : List (Nat × α)) : List α := (xs.foldl (fun l x => insertKey x l) []).map Prod.snd

/-- The tiles with circuits or elements, in ascending part, row and column. -/
def senders (s : State) : List TileId :=
  sortKey (((s.cur :: s.peers).filter fun t => !(t.net.out.isEmpty && t.net.circuits.isEmpty)).map fun t =>
    (t.place.part * 256 + relRow t * 16 + relCol t, t.id))

/-- The circuit elements of a tile that arrive in this mesh cycle, by ascending circuit number (R292). -/
def dueElems (t : Tile) : List Nat :=
  sortKey ((t.net.out.filter fun e => e.sent && e.age == 0 && e.circuit.isSome).map fun e => (e.circuit.getD 0, e.serial))

/-- A mesh cycle ends: the revolution count advances, transits and the waits of refused packets go on (R290, R292, R297). -/
def advanceMesh (t : Tile) : Tile :=
  { t with net := { t.net with revCount := (t.net.revCount + 1) % max 1 t.net.rev, slotDone := [], out := t.net.out.map fun e =>
      let e := { e with fresh := false }
      if e.sent then { e with age := e.age - 1 } else if e.refused then { e with age := e.age + 1 } else e } }

/-- One mesh cycle of every tile (R290, R292, R297): circuit elements arrive in the order of R292, the circuits whose offset it is use their
slots, refused packets whose time has come are injected again, and the cycle ends. -/
def meshCycle (s : State) : State :=
  let ts := senders s
  let s := ts.foldl (fun s i => (dueElems (tileAt s i)).foldl (fun s k => onTile i (circuitArrive k) s) s) s
  let s := ts.foldl (fun s i => onTile i (fun s => (s.cur.net.circuits.map Circuit.id).foldl (fun s c => circuitSlot c s) s) s) s
  ts.foldl (fun s i => onTile i (fun s => onCur advanceMesh ((s.cur.net.out.map Elem.serial).foldl (fun s k => packetAgain k s) s)) s) s

/-! ## The comparator (R311) -/

/-- The compared writes of a matching pair that the port itself lets out: a storage write is made once; a send or launch leaves from
this tile, and its partner's copy counts as received. -/
def matchPair (s : State) : State :=
  match pairMatch s with
  | none => s
  | some (a, b) =>
    let p := partnerOf s.cur.id
    if a.kind = 0 then
      let s := popPair s
      match spaceWrite s a.space a.addr a.data with
      | some s => s
      | none =>
        let fail := onCur fun t => failStore t a.scope false a.word
        let place := if 2000 ≤ a.space then 16 + (a.space - 2000) else s.cur.id.die
        let s := logRefusal s place
          { addr := if 2000 ≤ a.space then BitVec.ofNat 64 ((a.space - 2000) * 2 ^ 44 + a.addr) else BitVec.ofNat 64 a.addr,
            ctx := ctxNum s.cur, pos := logPos s.cur, kind := 2, time := tscOf s, st := 4 }
        onTile p fail (fail s)
    else if a.kind = 2 then
      onTile p (onCur fun t =>
        let gone := t.net.out.filter fun e => decide (e.serial = b.serial)
        let n := (gone.map fun e => e.dsts.length).sum
        let lnk := t.lnk.map fun o => if o.serial = b.serial then { o with code := 0, arg := toVec a.serial } else o
        let net := { t.net with out := t.net.out.filter fun e => decide (e.serial ≠ b.serial), received := t.net.received + BitVec.ofNat 48 n }
        { t with net := net, lnk := lnk }) (popPair s)
    else s

/-- The comparator still compares: the node of the tile has not faulted. -/
def comparing (s : State) : Bool := nodeStands s

/-- The oldest write of each side differ (R311). -/
def pairDiffers (s : State) : Bool :=
  bit s.cur.csr.status 7 && comparing s &&
    match s.cur.checked, (tileAt s (partnerOf s.cur.id)).checked with
    | _ :: _, _ :: _ => (pairMatch s).isNone
    | _, _ => false

/-- The compared writes of a tile given up: no part of them leaves (R311). -/
def dropChecked (t : Tile) : Tile :=
  let held := fun (kind serial : Nat) => t.checked.any fun c => c.kind == kind && c.serial == serial
  { t with checked := [], gm := t.gm.filter (fun r => r.performed || !held 1 r.serial), lnk := t.lnk.filter (fun o => !held 2 o.serial),
           net := { t.net with out := t.net.out.filter fun e => !held 2 e.serial } }

/-- The writes of a checked tile age while the partner's corresponding ones, its first `k` in issue order, have not come (R311). -/
def ageChecked (k : Nat) (t : Tile) : Tile :=
  { t with checked := t.checked.take k ++ (t.checked.drop k).map fun c => { c with age := c.age + 1 } }

/-- A write of the focused tile has waited 1,024 cycles without its partner's (R311). -/
def waitsTooLong (s : State) : Bool :=
  comparing s && (s.cur.checked.drop (tileAt s (partnerOf s.cur.id)).checked.length).any fun c => decide (1024 ≤ c.age)

/-! ## The operations -/

/-- An element joins the tile's sends; it counts one sent message for each destination (R296). -/
def queueElem (e : Elem) (t : Tile) : Tile :=
  let (k, t) := bumpSerial t
  let e := { e with serial := k }
  let t := { t with net := { t.net with out := t.net.out ++ [e], sent := t.net.sent + BitVec.ofNat 48 e.dsts.length } }
  if bit t.csr.status 7 then
    let shown := vecBytes e.val ++ e.dsts.flatMap fun j => leBytes 3 (tileIndex j)
    let w : CheckedWrite :=
      { kind := 2, space := e.q, addr := (e.circuit.map Nat.succ).getD 0, data := shown, scope := 2, word := 0, serial := k, age := 0 }
    { t with checked := t.checked ++ [w] }
  else t

/-- send and sendm (R291). -/
def fireCircuit (code : Nat) (multi : Bool) : Fire := fun slot held b s =>
  (takeOperands s.cur 15 code slot held [0]).bind fun q =>
    let n := fld b 0 6
    match s.cur.net.circuits.find? fun k => k.id == n with
    | none => .fault (mkFault 23 15 code slot n)
    | some k =>
      if k.multi != multi then .fault (mkFault 23 15 code slot n)
      else if 4 ≤ (s.cur.net.out.filter fun e => decide (e.circuit = some n) && !e.sent).length then .freeze
      else
        let dsts := (if multi then block k.row k.col (2 ^ k.lh) (2 ^ k.lw) else [(k.row, k.col)]).map fun x =>
          memberTile s s.cur.place.part x.1 x.2
        let e : Elem :=
          { serial := 0, val := opAt q.1 0, q := k.q, ui := k.ui, circuit := some n, dsts := dsts, sent := false, age := 0,
            multi := multi, refused := false, fresh := true, pair := none, place := none, buf := none }
        .ok { s with cur := queueElem e q.2 }

/-- A group or destination of psend that R294 refuses. -/
def packetIllegal (t : Tile) (w : Word) : Bool :=
  let p := t.place
  let mc := bit w 28
  decide (p.span ≤ fld w 30 2) || decide (rectRows p ≤ fld w 20 4 ∨ rectCols p ≤ fld w 16 4) ||
    (mc && (fld w 30 2 != p.part || !groupLegal p (fld w 20 4) (fld w 16 4) (fld w 13 3) (fld w 10 3)))

/-- psend (R293, R294). -/
def fireNetPsend : Fire := fun slot held b s =>
  (takeOperands s.cur 15 10 slot held [0]).bind fun q =>
    let w := vecWord b
    let mc := bit w 28
    if mc && (decide (4 < fld w 13 3) || decide (4 < fld w 10 3)) then .fault (mkFault 1 15 10 slot 0)
    else if packetIllegal s.cur w then .fault (mkFault 12 15 10 slot 0)
    else if 8 ≤ (s.cur.net.out.filter fun e => e.circuit.isNone && e.place.isNone).length then .freeze
    else
      let at' := if mc then block (fld w 20 4) (fld w 16 4) (2 ^ fld w 13 3) (2 ^ fld w 10 3) else [(fld w 20 4, fld w 16 4)]
      let e : Elem :=
        { serial := 0, val := opAt q.1 0, q := fld w 26 2, ui := bit w 29, circuit := none,
          dsts := at'.map fun x => memberTile s (fld w 30 2) x.1 x.2, sent := false, age := 0, multi := mc, refused := false,
          fresh := false, pair := none, place := none, buf := none }
      .ok { s with cur := queueElem e q.2 }

/-- qcnt (R299). -/
def fireNetQcnt : Fire := fun _ _ b s =>
  (accepts s.cur 15 11 [0]).bind fun _ =>
    let t := s.cur
    let q := fld b 0 2
    let v := if bit b 2 then t.net.cq.length else (tget [] t.net.q q).length + spillCount t q * 2 ^ 16
    .ok { s with cur := deliver t 15 11 0 2 (toVec v) none }

/-- send (R291). -/
def fireNetSend : Fire := fireCircuit 8 false
/-- sendm (R291). -/
def fireNetSendm : Fire := fireCircuit 9 true

/-- NET_SEND (R291). -/
def execNetSend (g : Guard) (x : Src) (s : State) : Host.Outcome State Fault Refusal :=
  runMove (.netSend g x) g x fireNetSend s
/-- NET_SENDM (R291). -/
def execNetSendm (g : Guard) (x : Src) (s : State) : Host.Outcome State Fault Refusal :=
  runMove (.netSendm g x) g x fireNetSendm s
/-- NET_PSEND (R293). -/
def execNetPsend (g : Guard) (x : Src) (s : State) : Host.Outcome State Fault Refusal :=
  runMove (.netPsend g x) g x fireNetPsend s
/-- NET_QCNT (R299). -/
def execNetQcnt (g : Guard) (x : Src) (s : State) : Host.Outcome State Fault Refusal :=
  runMove (.netQcnt g x) g x fireNetQcnt s

/-! ## Events -/

/-- CIRCUIT_SLOT (R292). -/
def execCircuitSlot (t : TileId) (c : BitVec 6) (s : State) : Host.Outcome State Fault Refusal :=
  event (onTile t (circuitSlot c.toNat) s)
/-- CIRCUIT_ARRIVAL (R292). -/
def execCircuitArrival (t : TileId) (serial : Nat) (s : State) : Host.Outcome State Fault Refusal :=
  event (onTile t (circuitArrive serial) s)
/-- PACKET_ARRIVAL (R297). -/
def execPacketArrival (t : TileId) (serial : Nat) (s : State) : Host.Outcome State Fault Refusal :=
  event (onTile t (packetArrive serial) s)
/-- PACKET_REINJECT (R297). -/
def execPacketReinject (t : TileId) (serial : Nat) (s : State) : Host.Outcome State Fault Refusal :=
  event (onTile t (packetAgain serial) s)
/-- VC2_FORWARD (R295). -/
def execVc2Forward (packet : Nat) (credit : List TileId) (s : State) : Host.Outcome State Fault Refusal :=
  event (vc2Deliver packet credit s)

end Sys2Proof.Machine
end

