-- ==== Sys2Proof/Machine/Lnk.lean ====
section
/-!
DEFINITION. Machine/Lnk.lean: the lnk operations at the tile (R300-R303, R339, R342, R348, R349): the checks at the trigger and
their place in trigger order. What the headworks and a group's home answer stands in Machine/Headworks.lean and Machine/Siphon.lean.
-/
namespace Sys2Proof.Machine

/-- A launch record with a nonzero reserved bit (R300). -/
def launchIllegal (a : Vec) : Bool := decide (fld a 19 5 ≠ 0 ∨ fld a 25 7 ≠ 0 ∨ fld a 54 2 ≠ 0 ∨ fld a 56 8 ≠ 0)

/-- A main descriptor with a nonzero field that R339 marks zero. -/
def mainIllegal (d : Vec) : Bool :=
  decide (fld d 20 4 ≠ 0 ∨ fld d 25 7 ≠ 0 ∨ fld d 32 96 ≠ 0) || (List.range 4).any fun j => decide (fld d (8 * (31 + 16 * j)) 8 ≠ 0)

/-- An operation joins the lnk socket in trigger order; its result waits for the answer. -/
def queueLnk (code : Nat) (arg : Vec) (t : Tile) : Tile :=
  let (k, t) := bumpSerial t
  awaitResult { t with lnk := t.lnk ++ [{ code := code, arg := arg, serial := k }] } 18 k

/-- launch (R300, R301): at most 4 await an answer. On a checked tile the record goes to the comparator first (R311). -/
def fireLnkLaunch : Fire := fun slot held _ s =>
  (takeOperands s.cur 18 8 slot held [0]).bind fun q =>
    let a := opAt q.1 0
    if launchIllegal a then .fault (mkFault 1 18 8 slot 0)
    else if 4 ≤ (s.cur.lnk.filter fun o => o.code == 8 || o.code == 0).length then .freeze
    else
      (accepts s.cur 18 8 [0]).bind fun _ =>
        let k := q.2.serial
        let t := queueLnk 8 (toVec (a.toNat % 2 ^ 512)) q.2
        let w : CheckedWrite :=
          { kind := 2, space := 18, addr := 0, data := (vecBytes a).take 64, scope := 3, word := 0, serial := k, age := 0 }
        .ok { s with cur := if bit t.csr.status 7 then { t with checked := t.checked ++ [w] } else t }

/-- mbind and munbind (R339, R342, R349): at most 4 binds or detaches await an answer. -/
def fireMain (code : Nat) : Fire := fun slot _ b s =>
  if code = 9 ∧ mainIllegal b then .fault (mkFault 1 18 code slot 0)
  else if 4 ≤ (s.cur.lnk.filter fun o => o.code == 9 || o.code == 10).length then .freeze
  else (accepts s.cur 18 code [0]).bind fun _ => .ok (onCur (queueLnk code b) s)

/-- mbind (R342). -/
def fireLnkMbind : Fire := fireMain 9
/-- munbind (R349). -/
def fireLnkMunbind : Fire := fireMain 10
/-- mpos (R348). -/
def fireLnkMpos : Fire := fun _ _ b s => (accepts s.cur 18 11 [0]).bind fun _ => .ok (onCur (queueLnk 11 b) s)

/-- The clusters of a node's tiles. -/
def nodeClusters (n : Node) : List Nat := ((nodeTiles n).map clusterOf).eraseDups

/-- A main, bound or a held prefix (R350), runs in a slot of the pumps of one of these clusters (R339). -/
def slotRuns (s : State) (cs : List Nat) (slot : Nat) : Bool :=
  s.dev.mains.any fun m => m.slot == slot &&
    match nodeOf s m.node with
    | some n => (nodeClusters n).any fun c => decide (c ∈ cs)
    | none => false

/-- permit (R303): a role's command needs room in the pump's queue (R269). -/
def fireLnkPermit : Fire := fun slot _ b s =>
  let n := fld b 16 16
  if n = 0 then .fault (mkFault 1 18 12 slot 0)
  else
    (accepts s.cur 18 12 [0]).bind fun _ =>
      let cl := clusterOf s.cur.id
      let key := permitKey (clusterOf s.cur.id) (fld b 0 2) (fld b 4 4)
      let now := tget 0 s.dev.permits key
      let st := if !slotRuns s [clusterOf s.cur.id] (fld b 4 4) then 2 else if 2 ^ 20 - 1 < now + n then 1 else 0
      let s := onCur (fun t => deliver t 18 12 0 4 (toVec st) none) s
      let own := tileIndex s.cur.id * 16 + fld b 4 4
      if st = 0 ∧ now = 0 ∧ 64 ≤ pumpQueue s cl (fld b 0 2) then .freeze
      else
        .ok (if st = 0 then { s with dev := { s.dev with permits := tset 0 s.dev.permits key (now + n),
                                                         granted := tset 0 s.dev.granted own (fld b 0 2 + 1) } } else s)

/-- LNK_LAUNCH (R301). -/
def execLnkLaunch (g : Guard) (x : Src) (s : State) : Host.Outcome State Fault Refusal :=
  runMove (.lnkLaunch g x) g x fireLnkLaunch s
/-- LNK_MBIND (R342). -/
def execLnkMbind (g : Guard) (x : Src) (s : State) : Host.Outcome State Fault Refusal :=
  runMove (.lnkMbind g x) g x fireLnkMbind s
/-- LNK_MUNBIND (R349). -/
def execLnkMunbind (g : Guard) (x : Src) (s : State) : Host.Outcome State Fault Refusal :=
  runMove (.lnkMunbind g x) g x fireLnkMunbind s
/-- LNK_MPOS (R348). -/
def execLnkMpos (g : Guard) (x : Src) (s : State) : Host.Outcome State Fault Refusal :=
  runMove (.lnkMpos g x) g x fireLnkMpos s
/-- LNK_PERMIT (R303). -/
def execLnkPermit (g : Guard) (x : Src) (s : State) : Host.Outcome State Fault Refusal :=
  runMove (.lnkPermit g x) g x fireLnkPermit s

end Sys2Proof.Machine
end

