-- ==== Sys2Proof/Machine/Sys.lean ====
section
/-!
DEFINITION. Machine/Sys.lean: the CSRs by number (R86, R5, R87, R94) and the operations of sys (R125-R128).
-/
namespace Sys2Proof.Machine

/-! ## CSRs -/

/-- Who may use a CSR (R86). -/
inductive CsrAccess where
  | user | systemWrite | readOnly | system
  deriving DecidableEq, Repr

/-- The CSRs by number; none where R86 lists nothing. -/
def csrAccess (n : Nat) : Option CsrAccess :=
  if n ∈ [0x000, 0x001, 0x002, 0x005, 0x006, 0x007, 0x010, 0x020, 0x022] then some .user
  else if n = 0x003 then some .systemWrite
  else if n ∈ [0x004, 0x011, 0x021, 0x030, 0x040, 0x050] ∨ (0x058 ≤ n ∧ n ≤ 0x05F) then some .readOnly
  else if n ∈ [0x100, 0x101, 0x102] then some .system
  else none

/-- FEAT as a tile of a die reads it (R389): va1 tells whether the tile's va1 has an instance of its own (R155, R316). -/
def featOf (s : State) (i : TileId) : Word :=
  let d := dieOf s i
  let serving := fun (m : Bool) => (s.dev.dies.filter fun x => x.m == m && x.service).length
  let mask := fun (lo n : Nat) => ((List.range n).map fun i => if lo + i ∈ s.dev.cisterns then 2 ^ i else 0).sum
  BitVec.ofNat 64 (d.stepping * 2 ^ 40 + 2 ^ 32 + (if d.reduced then 2 ^ 24 else 0) + mask 8 4 * 2 ^ 20 + mask 0 8 * 2 ^ 12 +
    serving false * 2 ^ 9 + serving true * 2 ^ 6 + (if s.dev.variantH then 0 else 8) + (if engineOf s i 5 = 5 then 4 else 0) +
    if s.dev.variantH then 1 else 0)
/-- FEAT of the focused tile. -/
def featWord (s : State) : Word := featOf s s.cur.id

/-- A CSR as it reads (R86). -/
def csrRead (s : State) (n : Nat) : Word :=
  let c := s.cur.csr
  match n with
  | 0x000 => c.fmt | 0x001 => c.sockmode | 0x002 => c.stc | 0x003 => c.qib | 0x004 => c.cutn | 0x005 => c.npt | 0x006 => c.npf
  | 0x007 => c.est | 0x010 => c.fstat | 0x011 => c.faddr | 0x020 => c.uivec | 0x021 => c.uicause | 0x022 => c.uiepc
  | 0x030 => tscOf s | 0x040 => featWord s | 0x050 => c.npos
  | 0x100 => statusWord s.cur | 0x101 => c.cause | 0x102 => c.epc
  | n => tget 0 c.param (n - 0x058)

/-- The bits of a CSR that a write changes: neither reserved nor read-only (R5, R114). -/
def csrMask (n : Nat) : Word :=
  match n with
  | 0x001 => modeMask
  | 0x002 => 3
  | 0x003 => 0x1FFFFFFFF
  | 0x005 => 0x3F
  | 0x006 => 1
  | 0x007 => 0xFFFFFFFFFF
  | 0x010 => 0xFF1F1F
  | 0x020 => 0x8000000000001FFF
  | 0x022 => 0x11FFF
  | 0x100 => 0x43
  | 0x101 => 0xFFFFFFFF00FFFFFF
  | 0x102 => 0x11FFF
  | _ => 0

/-- A CSR written with a value whose reserved bits are gone; FMT and SOCKMODE have their own times (R72, R94). -/
def csrPut (t : Tile) (n : Nat) (v : Word) : Tile :=
  let c := t.csr
  let new := fun (old : Word) => (old &&& ~~~csrMask n) ||| (v &&& csrMask n)
  match n with
  | 0x000 => writeFmt t v
  | 0x001 => { t with ctl := { t.ctl with mode := some (v &&& modeMask) } }
  | 0x002 => { t with csr := { c with stc := new c.stc } }
  | 0x003 => { t with csr := { c with qib := new c.qib } }
  | 0x005 => { t with csr := { c with npt := new c.npt } }
  | 0x006 => { t with csr := { c with npf := new c.npf } }
  | 0x007 => { t with csr := { c with est := new c.est } }
  | 0x010 => { t with csr := { c with fstat := new c.fstat } }
  | 0x020 => { t with csr := { c with uivec := new c.uivec } }
  | 0x022 => { t with csr := { c with uiepc := new c.uiepc } }
  | 0x100 => { t with csr := { c with status := new c.status } }
  | 0x101 => { t with csr := { c with cause := new c.cause } }
  | 0x102 => { t with csr := { c with epc := new c.epc } }
  | _ => t

/-- The value a write combines with (R72: FMT chains on its pending writes). -/
def csrBase (s : State) (n : Nat) : Word := if n = 0 then fmtFinal s.cur else csrRead s n

/-- A SOCKMODE write waits until no operation is in flight in a socket whose bit changes (R94). -/
def modeWaits (t : Tile) (v : Word) : Bool :=
  t.socks.any fun e => bit modeMask e.1 && bit t.csr.sockmode e.1 != bit (v &&& modeMask) e.1 && (anyFlight e.2 || anyPending e.2)

/-- A CSR operation (R125): `value` is the written value from the base and a; none for a read. The number is looked up before the
privilege is checked (R50, R86). -/
def fireCsr (code : Nat) (ports : List Nat) (value : Option (Word → Word → Word)) : Fire := fun slot held b s =>
  (takeOperands s.cur 19 code slot held ports).bind fun q =>
    let n := b.toNat
    let a := vecWord (opAt q.1 0)
    let writes := value.isSome && !((code == 10 || code == 11) && a == 0)
    match csrAccess n with
    | none => .fault (mkFault 1 19 code slot 0)
    | some acc =>
      if writes && acc == .readOnly then .fault (mkFault 1 19 code slot 0)
      else if !isSystem s.cur && (acc == .system || (writes && acc == .systemWrite)) then .fault (mkFault 2 19 code slot 0)
      else
        (accepts s.cur 19 code [0]).bind fun _ =>
          let old := csrRead s n
          let v := ((value.map fun f => f (csrBase s n) a).getD 0)
          if writes && n == 1 && modeWaits s.cur v then .drain
          else .ok { s with cur := deliver (if writes then csrPut q.2 n v else q.2) 19 code 0 2 (wordVec old) none }

/-! ## Operations -/

/-- csrr (R125). -/
def fireSysCsrr : Fire := fireCsr 8 [] none
/-- csrw (R125). -/
def fireSysCsrw : Fire := fireCsr 9 [0] (some fun _ a => a)
/-- csrs (R125). -/
def fireSysCsrs : Fire := fireCsr 10 [0] (some fun c a => c ||| a)
/-- csrc (R125). -/
def fireSysCsrc : Fire := fireCsr 11 [0] (some fun c a => c &&& ~~~a)

/-- tsc (R126). -/
def fireSysTsc : Fire := fun _ _ _ s =>
  (accepts s.cur 19 12 [0]).bind fun _ => .ok { s with cur := deliver s.cur 19 12 0 2 (wordVec (tscOf s)) none }

/-- An operation of sys that another agent answers. -/
def queueSys (code : Nat) (arg : Vec) (t : Tile) : Tile :=
  let (k, t) := bumpSerial t
  awaitResult { t with lnk := t.lnk ++ [{ code := code + 100, arg := arg, serial := k }] } 19 k

/-- est (R126): the value is on its way to the headworks until it is acknowledged. -/
def fireSysEst : Fire := fun _ _ b s =>
  (accepts s.cur 19 13 [0]).bind fun _ =>
    let t := csrPut s.cur 7 (vecWord b)
    .ok { s with cur := queueSys 13 (wordVec t.csr.est) t }

/-- ecall (R127): the trap is taken at the end of the bundle; CAUSE names the move. -/
def fireSysEcall : Fire := fun slot _ b s =>
  .ok (onCur (fun t => { t with ctl := { t.ctl with traps := t.ctl.traps ++ [mkFault 33 19 14 slot (fld b 0 16)] } }) s)

/-- The partner belongs to the same node (R128). -/
def partnerInNode (s : State) : Bool :=
  s.cur.place.node.isSome && decide ((tileAt s (partnerOf s.cur.id)).place.node = s.cur.place.node)

/-- couple and decouple (R128): an answer given at once, or a wait for the partner's matching operation. -/
def firePair (code : Nat) (now : State → Option Nat) : Fire := fun slot _ b s =>
  if b ≠ 0 then .fault (mkFault 1 19 code slot 0)
  else if !isSystem s.cur then .fault (mkFault 2 19 code slot 0)
  else
    (accepts s.cur 19 code [0]).bind fun _ =>
      match now s with
      | some v => .ok { s with cur := deliver s.cur 19 code 0 2 (toVec v) none }
      | none => .ok (onCur (queueSys code 0) s)

/-- couple (R128). -/
def fireSysCouple : Fire :=
  firePair 15 fun s => if s.dev.variantH then some 1 else if !partnerInNode s then some 2 else none
/-- decouple (R128). -/
def fireSysDecouple : Fire := firePair 16 fun s => if bit s.cur.csr.status 7 then none else some 0

/-- A tile that waits for its partner at couple or decouple issues nothing (R128). -/
def pairing (t : Tile) : Option LnkOp := t.lnk.find? fun o => o.code == 115 || o.code == 116

/-- A tile has taken its turn of the cycle that the focused tile is about to take. -/
def tookTurn (s : State) (t : Tile) : Bool := t.wheel == (s.cur.wheel + 1) % 60

/-- The partners' matching operations have met in the cycle before (R128): STATUS.chk changes on both, both are free to issue, and both
receive 0 two cycles after the meeting. -/
def meetPartner (s : State) : State :=
  let p := tileAt s (partnerOf s.cur.id)
  match pairing s.cur, pairing p with
  | some a, some b =>
    if a.code = b.code ∧ !tookTurn s p then
      let done := fun (o : LnkOp) (t : Tile) =>
        let t := putStatus { t with lnk := t.lnk.filter fun x => decide (x.serial ≠ o.serial) } 7 (a.code == 115)
        answer t 19 o.serial 1 0
      onTile (partnerOf s.cur.id) (onCur (done b)) (onCur (done a) s)
    else s
  | _, _ => s

/-- SYS_CSRR (R125). -/
def execSysCsrr (g : Guard) (x : Src) (s : State) : Host.Outcome State Fault Refusal :=
  runMove (.sysCsrr g x) g x fireSysCsrr s
/-- SYS_CSRW (R125). -/
def execSysCsrw (g : Guard) (x : Src) (s : State) : Host.Outcome State Fault Refusal :=
  runMove (.sysCsrw g x) g x fireSysCsrw s
/-- SYS_CSRS (R125). -/
def execSysCsrs (g : Guard) (x : Src) (s : State) : Host.Outcome State Fault Refusal :=
  runMove (.sysCsrs g x) g x fireSysCsrs s
/-- SYS_CSRC (R125). -/
def execSysCsrc (g : Guard) (x : Src) (s : State) : Host.Outcome State Fault Refusal :=
  runMove (.sysCsrc g x) g x fireSysCsrc s
/-- SYS_TSC (R126). -/
def execSysTsc (g : Guard) (x : Src) (s : State) : Host.Outcome State Fault Refusal :=
  runMove (.sysTsc g x) g x fireSysTsc s
/-- SYS_EST (R126). -/
def execSysEst (g : Guard) (x : Src) (s : State) : Host.Outcome State Fault Refusal :=
  runMove (.sysEst g x) g x fireSysEst s
/-- SYS_ECALL (R127). -/
def execSysEcall (g : Guard) (x : Src) (s : State) : Host.Outcome State Fault Refusal :=
  runMove (.sysEcall g x) g x fireSysEcall s
/-- SYS_COUPLE (R128). -/
def execSysCouple (g : Guard) (x : Src) (s : State) : Host.Outcome State Fault Refusal :=
  runMove (.sysCouple g x) g x fireSysCouple s
/-- SYS_DECOUPLE (R128). -/
def execSysDecouple (g : Guard) (x : Src) (s : State) : Host.Outcome State Fault Refusal :=
  runMove (.sysDecouple g x) g x fireSysDecouple s

end Sys2Proof.Machine
end

