-- ==== Sys2Proof/Machine/Control.lean ====
section
/-!
DEFINITION. Machine/Control.lean: the control operations (R104-R113, R116, R117, R124): targets, the loop sequencer, the faults an
operation raises at issue and the effect it has after phase 4, user-level interrupts (R121, R122) and the start of a stroke (R23).
-/
namespace Sys2Proof.Machine

/-! ## Fetch and targets (R104) -/

/-- The bundle at an index of the instruction buffer; the trap runtime stands below 256 (log 5). -/
def fetchBundle (t : Tile) (pc : Nat) : BitVec 256 :=
  match tfind t.code.ibuf pc with
  | some b => b
  | none => if pc < 256 then Config.trapRuntime pc else 0

/-- A legal target (R104): inside the bundles that the intake loaded, or at system privilege inside the system region. -/
def targetLegal (t : Tile) (sys : Bool) (n : Int) : Bool :=
  decide (256 ≤ n ∧ n < 256 + t.code.loaded ∧ n < 8192) || (sys && decide (0 ≤ n ∧ n < 256))

/-- A branch-target fault, with the target as detail (R104, R306). -/
def targetFault (n : Int) : FaultInfo := mkFault 3 0 0 0 (wrapInt 32 n)

/-- The PC set. DESIGN CHOICE (log 7): the spec does not say what follows bundle 8,191; the model's PC has 13 bits and wraps to 0. -/
def setPc (n : Nat) (t : Tile) : Tile := { t with pc := BitVec.ofNat 13 n }

/-- Where a control operation of a bundle goes when it is no step to the next bundle (R33, R105, R116, R124). -/
def ctlTarget (t : Tile) (i : Instr) : Option Int :=
  let pc : Int := t.pc.toNat
  match i with
  | .ctlBra _ d => some (pc + sintOf 21 d.toNat)
  | .ctlBrp _ p inv d => if guardFires t { inv := inv, pred := p } then some (pc + sintOf 16 d.toNat) else none
  | .ctlBri _ x => some (getX t x.toNat).toNat
  | .ctlCall _ d => some (pc + sintOf 21 d.toNat)
  | .ctlRet _ => some (getX t 62).toNat
  | .ctlUiret _ => some (fld t.csr.uiepc 0 13)
  | .ctlSret _ => some (fld t.csr.epc 0 13)
  | _ => none

/-- The privilege at which the target issues. -/
def targetSystem (t : Tile) (i : Instr) : Bool :=
  match i with
  | .ctlSret _ => bit t.csr.status 1
  | _ => isSystem t

/-- A bra, brp or bri inside the innermost body with a target outside it (R110). -/
def leavesBody (t : Tile) (i : Instr) (n : Int) : Bool :=
  match i, t.ctl.loops with
  | .ctlBra .., l :: _ | .ctlBrp .., l :: _ | .ctlBri .., l :: _ =>
    decide (l.top ≤ t.pc.toNat ∧ t.pc.toNat ≤ l.last ∧ ¬((l.top : Int) ≤ n ∧ n ≤ l.last))
  | _, _ => false

/-- The bundle at an index holds a lend (R106). -/
def holdsLend (t : Tile) (pc : Nat) : Bool :=
  pc < 8192 && match decodeCtl (bundleWord (fetchBundle t pc) 0) 0 with
    | .ok (.ctlLend ..) => true
    | _ => false

/-- The innermost level ends at this bundle and begins `back` before it (R109). -/
def lendFits (t : Tile) (back : Nat) : Bool :=
  match t.ctl.loops with
  | [] => false
  | l :: _ => decide (t.pc.toNat = l.last ∧ (t.pc.toNat : Int) - back = l.top)

/-- The fault a control operation raises at issue, if any: privilege (R47), sequence (R113, R124), loop (R106, R109, R110, R113),
branch-target (R104). DESIGN CHOICE (log 7): where one operation meets two of them the spec does not order, a strokeend with a loop level
active and STATUS.uia = 1 raises the loop fault, and a branch whose target is both illegal and outside the innermost body the
branch-target fault. -/
def ctlFault (t : Tile) (i : Instr) : Option FaultInfo :=
  let priv := match i with | .ctlHalt _ | .ctlSret _ => !isSystem t | _ => false
  let sequence := match i with | .ctlUiret _ => !bit t.csr.status 5 | .ctlStrokeend _ => bit t.csr.status 5 | _ => false
  let loop := match i with
    | .ctlLoop _ body _ x _ =>
      decide (2 ^ 32 ≤ (getX t x.toNat).toNat) || decide (6 ≤ t.ctl.loops.length) || !holdsLend t (t.pc.toNat + body.toNat)
    | .ctlLend _ b => !lendFits t b.toNat
    | .ctlLbrk _ => t.ctl.loops.isEmpty
    | .ctlStrokeend _ => !t.ctl.loops.isEmpty
    | _ => false
  if priv then some (mkFault 2 0 0 0 0)
  else if loop then some (mkFault 4 0 0 0 0)
  else if sequence then some (mkFault 5 0 0 0 0)
  else
    match ctlTarget t i with
    | none => none
    | some n =>
      if !targetLegal t (targetSystem t i) n then some (targetFault n)
      else if leavesBody t i n then some (mkFault 4 0 0 0 0)
      else none

/-! ## The loop sequencer (R106-R110) -/

/-- The stage window p8-p13. -/
def windowOf (t : Tile) : List (BitVec 2) := (List.range 6).map fun i => getP t (8 + i)
/-- The stage window written. -/
def putWindow (ws : List (BitVec 2)) (t : Tile) : Tile :=
  ((List.range ws.length).zip ws).foldl (fun t q => putP t (8 + q.1) q.2) t

/-- A truth value as a predicate. -/
def pred (b : Bool) : BitVec 2 := if b then 1 else 0

/-- The passes of a level (R106). -/
def Loop.passes (l : Loop) : Nat := if l.stages = 0 then l.trips else l.trips + l.stages - 1

/-- p14 and p15 for the innermost level's current pass; false when none is active (R109). -/
def putEnds (t : Tile) : Tile :=
  match t.ctl.loops with
  | [] => putP (putP t 14 0) 15 0
  | l :: _ => putP (putP t 14 (pred (l.pass == 0))) 15 (pred (l.pass + 1 == l.passes))

/-- The stride set that a literal gives (R107): its register and its signed stride, unused entries left out. -/
def strideList (w : Word) : List (Nat × Int) :=
  ((List.range 4).map fun i => (fld w (16 * i + 10) 6, sintOf 10 (fld w (16 * i) 10))).filter fun q => q.1 != 0

/-- The stride set applied (R107). -/
def applyStrides (w : Word) (t : Tile) : Tile :=
  (strideList w).foldl (fun t q => putX t q.1 (getX t q.1 + BitVec.ofInt 64 q.2)) t

/-- The literal's part that a loop bundle reads (R107). -/
def strideWord (h : CtlHead) (w : Word) : Word :=
  match h.lit with
  | .none => 0
  | .w32 => w &&& 0xFFFFFFFF
  | .w64 => w

/-- The loop bundle (R106): `trips` is T as it stood before the bundle. -/
def enterLoop (h : CtlHead) (body stages trips : Nat) (strides : Word) (t : Tile) : Tile :=
  let pc := t.pc.toNat
  if trips = 0 then setPc (pc + body + 1) t
  else
    let l : Loop :=
      { top := pc + 1, last := pc + body, trips := trips, stages := stages, pass := 0, strides := strideWord h strides,
        window := if stages = 0 then [] else windowOf t }
    let t := if stages = 0 then t else putWindow [1, 0, 0, 0, 0, 0] t
    setPc (pc + 1) (putEnds { t with ctl := { t.ctl with loops := l :: t.ctl.loops } })

/-- The innermost level left: the window restored, p14 and p15 those of the enclosing level (R109, R110). -/
def leaveLoop (t : Tile) : Tile :=
  match t.ctl.loops with
  | [] => t
  | l :: ls => putEnds { putWindow l.window t with ctl := { t.ctl with loops := ls } }

/-- The lend (R109). -/
def lendLoop (t : Tile) : Tile :=
  match t.ctl.loops with
  | [] => t
  | l :: ls =>
    let t := applyStrides l.strides t
    let l := { l with pass := l.pass + 1 }
    let t := if l.stages = 0 then t else putWindow (pred (decide (l.pass < l.trips)) :: (windowOf t).take 5) t
    let t := { t with ctl := { t.ctl with loops := l :: ls } }
    if l.pass < l.passes then setPc l.top (putEnds t) else setPc (t.pc.toNat + 1) (leaveLoop t)

/-- lbrk (R110). -/
def breakLoop (t : Tile) : Tile :=
  match t.ctl.loops with
  | [] => t
  | l :: _ => setPc (l.last + 1) (leaveLoop t)

/-! ## Effects after phase 4 -/

/-- Cycles without issue (R31). -/
def stallRun (n : Nat) : Run := if n = 0 then .go else .stall n

/-- The tile goes on after n cycles without issue. -/
def goOn (n : Nat) (t : Tile) : Tile := { t with run := stallRun n }

/-- x56-x63 exchanged with the shadow bank (R122, R124). -/
def swapBank (t : Tile) : Tile :=
  (List.range 8).foldl (fun t i =>
    let a := getX t (56 + i)
    let b := tget 0 t.regs.bank i
    putX { t with regs := { t.regs with bank := tset 0 t.regs.bank i a } } (56 + i) b) t

/-- uiret (R124). -/
def returnInterrupt (t : Tile) : Tile :=
  let t := putStatus (swapBank t) 5 false
  setPc (fld t.csr.uiepc 0 13) { t with ctl := { t.ctl with controlOnly := bit t.csr.uiepc 16 } }

/-- A wait at its bundle (R111, R363, R364): it takes the counter's change as soon as the condition holds. -/
def waitAt (sem : Bool) (idx n : Nat) (s : State) : State :=
  let s := onCur completeAll s
  if satisfied s.cur sem idx then onCur (fun t => goOn n (setPc (t.pc.toNat + 1) t)) (consume sem idx s)
  else onCur (fun t => { t with run := .waiting sem idx n }) s

/-- The effect of a control operation after phase 4 (R105): registers and predicates are read as they stood before the bundle
(`b4`); n is xstall (R31). -/
def ctlEffect (i : Instr) (b4 : Tile) (n : Nat) (s : State) : State :=
  let next := fun (t : Tile) => setPc (t.pc.toNat + 1) t
  let jump := fun (t : Tile) => match ctlTarget b4 i with | some a => setPc a.toNat t | none => next t
  match i with
  | .ctlStall _ m => onCur (fun t => goOn (n + m.toNat) (next t)) s
  | .ctlBra .. | .ctlBrp .. | .ctlBri .. | .ctlRet .. => onCur (fun t => goOn n (jump t)) s
  | .ctlCall .. => onCur (fun t => goOn n (jump (putX t 62 (BitVec.ofNat 64 (t.pc.toNat + 1))))) s
  | .ctlLoop h body stages x strides =>
    onCur (fun t => goOn n (enterLoop h body.toNat stages.toNat (getX b4 x.toNat).toNat strides t)) s
  | .ctlLend .. => onCur (fun t => goOn n (lendLoop t)) s
  | .ctlLbrk _ => onCur (fun t => goOn n (breakLoop t)) s
  | .ctlWait _ idx sem => waitAt sem idx.toNat n s
  | .ctlTrap _ =>
    onCur (fun t => goOn n (next { t with ctl := { t.ctl with traps := mkFault 32 0 0 0 0 :: t.ctl.traps } })) s
  | .ctlFmt _ f v => onCur (fun t => goOn n (next (queueFmt t f.toNat v.toNat))) s
  | .ctlUiret _ => onCur (fun t => goOn n (returnInterrupt t)) s
  | .ctlStrokeend _ => onCur (fun t => { t with run := .ending false n }) s
  | .ctlHalt _ => onCur (fun t => { putStatus (next t) 6 true with run := .halted n }) s
  | .ctlSret _ => onCur (fun t => goOn n (returnException t)) s
  | _ => onCur (fun t => goOn n (next t)) s

/-! ## User-level interrupts (R121, R122) -/

/-- An interrupt may be taken at a point that qualifies. -/
def interruptReady (t : Tile) : Bool :=
  bit t.csr.uivec 63 && !bit t.csr.status 5 && !isSystem t && !t.ctl.events.isEmpty

/-- Entry to the handler: `back` and `w` go to UIEPC. A handler entry that is no legal target raises the branch-target fault (R104). -/
def enterHandler (back : Nat) (w : Bool) (s : State) : State :=
  let n := fld s.cur.csr.uivec 0 13
  if !targetLegal s.cur false n then takeException (targetFault n) back false false s
  else
    onCur (fun t =>
      match t.ctl.events with
      | [] => t
      | e :: es =>
        let cause : Word := e.setWidth 64 ||| (if t.ctl.dropped then 1 <<< 63 else 0)
        let t := { t with csr := { t.csr with uicause := cause, uiepc := BitVec.ofNat 64 (back % 8192 + if w then 65536 else 0) },
                          ctl := { t.ctl with events := es, dropped := false } }
        setPc n { swapBank (putStatus t 5 true) with run := .go }) s

/-- No free-running operation of the tile is in flight. -/
def nothingFlies (t : Tile) : Bool := t.socks.all fun e => !anyFlight e.2

/-- The point of R121 at which the tile stands, if it qualifies now: the return bundle and w. DESIGN CHOICE (log 7): a tile whose last
stroke has ended (run `idle`) stands at no point any more; the spec names the stroke end and does not say for how long. -/
def interruptPoint (t : Tile) : Option (Nat × Bool) :=
  match t.run with
  | .go => if t.ctl.quietPoint = 2 then some (t.pc.toNat, false) else none
  | .waiting sem idx _ => if !satisfied t sem idx && nothingFlies t then some (t.pc.toNat, true) else none
  | .ending true _ | .between => some (t.pc.toNat, true)
  | _ => none

/-- An interrupt taken at the point where the tile stands. -/
def tryInterrupt (s : State) : State :=
  if !interruptReady s.cur then s
  else
    match interruptPoint s.cur with
    | none => s
    | some (back, w) => enterHandler back w (onCur (fun t => { t with ctl := { t.ctl with quietPoint := 0 } }) s)

/-! ## Strokes (R23, R364) -/

/-- Every listed counter is satisfied, as often as it is listed. -/
def strokeReady (t : Tile) (k : Stroke) : Bool :=
  k.waits.all fun w =>
    let n := (k.waits.filter fun v => v == w).length
    decide (n ≤ if w.1 then (semOf t w.2).val else (sluiceOf t w.2).p)

/-- A stop request holds a tile at a quiet bundle or between strokes (R329, R330): after its report until M is known, then where its cut
number is M or past it. -/
def cutHolds (t : Tile) : Bool :=
  match t.ctl.stop with
  | some m => decide (m.toNat ≤ t.csr.cutn.toNat)
  | none => t.ctl.reported.isSome

/-- The parts of the focused tile's span node stop at the end of the phase (R312). -/
def spanFails (s : State) : Bool := match curNode s with | some n => n.failing | none => false

/-- The next stroke starts when it may: at c mod 20 = 0, with every listed counter taken (R18, R23). -/
def startStroke (s : State) : State :=
  match s.cur.code.strokes with
  | [] => s
  | k :: ks =>
    let s := onCur completeAll s
    if s.cur.wheel % 20 ≠ 0 || !strokeReady s.cur k || cutHolds s.cur || spanFails s then s
    else
      let s := k.waits.foldl (fun s w => consume w.1 w.2 s) s
      onCur (fun t =>
        { setPc (256 + k.first) t with run := .go, code := { t.code with strokes := ks, running := true },
                                       perf := { t.perf with quietGap := 0 } }) s

/-- Every operand port and every unread result discarded (R113). -/
def discardPorts (t : Tile) : Tile := { t with socks := [] }

end Sys2Proof.Machine
end

