-- ==== Sys2Proof/Machine/Vector.lean ====
section
/-!
DEFINITION. Machine/Vector.lean: the operations of va0 and va1 (R130-R145).
-/
namespace Sys2Proof.Machine

/-- The integer element width of FMT.vi (R131). -/
def viWidth (t : Tile) : Nat := 8 * 2 ^ fmtOf t 1
/-- Lanes of a width (R131). -/
def laneCount (w : Nat) : Nat := 1024 / w
/-- FMT.rm (R70). -/
def rmOf (t : Tile) : Nat := fmtOf t 5

/-- A value computed lane by lane at width w. -/
def laneMap (w : Nat) (f : Nat → Nat) : Vec := packLanes w ((List.range (laneCount w)).map f)

/-- An operation whose control operand may hold a reserved value: illegal encoding at the trigger (R134). -/
def fireChecked (sock code lat : Nat) (ports : List Nat) (f : Tile → List Vec → Vec → Option Vec) : Fire :=
  fireCompute sock code lat ports [0] fun t slot ops b =>
    match f t ops b with
    | some v => .ok [(0, v, none)]
    | none => .fault (mkFault 1 sock code slot 0)

/-- The socket of a va operation. -/
def vaSock (n : Bool) : Nat := if n then 5 else 4

/-- A float operation on the lanes of a and b: the exact result rounded per rm (R132, R135). -/
def fireVaFloat (n : Bool) (code lat : Nat) (f : Bool → Num → Num → Num) : Fire :=
  firePure (vaSock n) code lat [0] fun t ops b =>
    let q := fmtOf t 0
    let w := floatBits q
    laneMap w fun l =>
      encodeFloat q (rmOf t) (f (rmOf t == 2) (decodeFloat q (lane w l (opAt ops 0))) (decodeFloat q (lane w l b)))

/-- The smaller or larger of two patterns (R136). -/
def fpick (q : Nat) (larger : Bool) (x y : Nat) : Nat :=
  let u := decodeFloat q x
  let v := decodeFloat q y
  if u.isNan && v.isNan then nanBits q
  else if u.isNan then y
  else if v.isNan then x
  else
    let neg := bitsOf x (floatBits q - 1) 1 == 1
    let less := u.lt v || (u.cmp v == some .eq && neg)
    if less != larger then x else y

/-- fmin and fmax (R136). -/
def fireVaPick (n : Bool) (code : Nat) (larger : Bool) : Fire :=
  firePure (vaSock n) code 3 [0] fun t ops b =>
    let q := fmtOf t 0
    let w := floatBits q
    laneMap w fun l => fpick q larger (lane w l (opAt ops 0)) (lane w l b)

/-- fsgn on one lane (R137): x gives the sign, y the rest. -/
def fsgnLane (w mode x y : Nat) : Nat :=
  let s := bitsOf x (w - 1) 1
  let r := bitsOf y (w - 1) 1
  let sign := match mode with | 0 => s | 1 => 1 - s | 2 => (s + r) % 2 | _ => 0
  y % 2 ^ (w - 1) + sign * 2 ^ (w - 1)

/-- A comparison of lanes into a mask (R138); none for a reserved condition. -/
def compareLanes (w : Nat) (f : Nat → Nat → Option Bool) (a b : Vec) : Option Vec :=
  ((List.range (laneCount w)).mapM fun l => f (lane w l a) (lane w l b)).map packMask

/-- The class of a pattern (R139). -/
def floatClass (q n : Nat) : Nat :=
  let (eb, mb) := fmtWidths q
  let neg := bitsOf n (eb + mb) 1 == 1
  let e := bitsOf n mb eb
  let m := bitsOf n 0 mb
  if e = 2 ^ eb - 1 then
    if m = 0 then (if neg then 0 else 7) else if bitsOf m (mb - 1) 1 = 1 then 9 else 8
  else if e = 0 then
    if m = 0 then (if neg then 3 else 4) else if neg then 2 else 5
  else if neg then 1 else 6

/-- A number rounded to an integral one in the direction of rm, the sign kept (R140). -/
def roundIntegral (rm : Nat) : Num → Num
  | .fin neg m e => .fin neg (roundInt (dirOf rm neg) m e) 0
  | x => x

/-- ftoi of one number to w bits (R142). -/
def toInt (rm w : Nat) (x : Num) : Nat :=
  let lo : Int := -(2 ^ (w - 1) : Nat)
  let hi : Int := (2 ^ (w - 1) : Nat) - 1
  match x with
  | .nan => 0
  | .inf neg => wrapInt w (if neg then lo else hi)
  | .fin neg m e => wrapInt w (saturate (signed neg (roundInt (dirOf rm neg) m e)) lo hi)

/-- The part rule (R142): sw and dw are the element widths of source and destination; none when h is not below their ratio. -/
def convertPart (sw dw h : Nat) (f : Nat → Nat) (b : Vec) : Option Vec :=
  let wide := max sw dw
  let n := laneCount wide
  if wide / min sw dw ≤ h then none
  else
    let src := fun i => f (lane sw (if sw < dw then h * n + i else i) b)
    let vals := (List.range n).map src
    some (if dw < sw then packLanes dw (List.replicate (h * n) 0 ++ vals) else packLanes dw vals)

/-- An integer operation on the lanes of a and b (R143). -/
def fireVaInt (n : Bool) (code lat : Nat) (f : Nat → Nat → Nat → Nat) : Fire :=
  firePure (vaSock n) code lat [0] fun t ops b =>
    let w := viWidth t
    laneMap w fun l => f w (lane w l (opAt ops 0)) (lane w l b)

/-- fadd (R135). -/
def fireVaFadd (n : Bool) : Fire := fireVaFloat n 8 3 fun nz a b => a.add nz b
/-- VA_FADD (R135). -/
def execVaFadd (g : Guard) (x : Src) (n : Bool) (s : State) : Host.Outcome State Fault Refusal :=
  runMove (.vaFadd g x n) g x (fireVaFadd n) s

/-- fsub (R135). -/
def fireVaFsub (n : Bool) : Fire := fireVaFloat n 9 3 fun nz a b => a.add nz b.neg
/-- VA_FSUB (R135). -/
def execVaFsub (g : Guard) (x : Src) (n : Bool) (s : State) : Host.Outcome State Fault Refusal :=
  runMove (.vaFsub g x n) g x (fireVaFsub n) s

/-- fmul (R135). -/
def fireVaFmul (n : Bool) : Fire := fireVaFloat n 10 4 fun _ a b => a.mul b
/-- VA_FMUL (R135). -/
def execVaFmul (g : Guard) (x : Src) (n : Bool) (s : State) : Host.Outcome State Fault Refusal :=
  runMove (.vaFmul g x n) g x (fireVaFmul n) s

/-- fma (R135). -/
def fireVaFma (n : Bool) : Fire := 
  firePure (vaSock n) 11 5 [0, 1] fun t ops b =>
    let q := fmtOf t 0
    let w := floatBits q
    laneMap w fun l =>
      encodeFloat q (rmOf t) (((decodeFloat q (lane w l (opAt ops 0))).mul (decodeFloat q (lane w l (opAt ops 1)))).add (rmOf t == 2)
        (decodeFloat q (lane w l b)))
/-- VA_FMA (R135). -/
def execVaFma (g : Guard) (x : Src) (n : Bool) (s : State) : Host.Outcome State Fault Refusal :=
  runMove (.vaFma g x n) g x (fireVaFma n) s

/-- fmin (R136). -/
def fireVaFmin (n : Bool) : Fire := fireVaPick n 12 false
/-- VA_FMIN (R136). -/
def execVaFmin (g : Guard) (x : Src) (n : Bool) (s : State) : Host.Outcome State Fault Refusal :=
  runMove (.vaFmin g x n) g x (fireVaFmin n) s

/-- fmax (R136). -/
def fireVaFmax (n : Bool) : Fire := fireVaPick n 13 true
/-- VA_FMAX (R136). -/
def execVaFmax (g : Guard) (x : Src) (n : Bool) (s : State) : Host.Outcome State Fault Refusal :=
  runMove (.vaFmax g x n) g x (fireVaFmax n) s

/-- fsgn (R137). -/
def fireVaFsgn (n : Bool) : Fire := 
  firePure (vaSock n) 14 2 [0, 1] fun t ops b =>
    let w := floatBits (fmtOf t 0)
    laneMap w fun l => fsgnLane w (fld (opAt ops 1) 0 2) (lane w l (opAt ops 0)) (lane w l b)
/-- VA_FSGN (R137). -/
def execVaFsgn (g : Guard) (x : Src) (n : Bool) (s : State) : Host.Outcome State Fault Refusal :=
  runMove (.vaFsgn g x n) g x (fireVaFsgn n) s

/-- fcmp (R138). -/
def fireVaFcmp (n : Bool) : Fire := 
  fireChecked (vaSock n) 15 3 [0, 1] fun t ops b =>
    let q := fmtOf t 0
    compareLanes (floatBits q) (fun x y => floatCond (fld (opAt ops 1) 0 4) (decodeFloat q x) (decodeFloat q y)) (opAt ops 0) b
/-- VA_FCMP (R138). -/
def execVaFcmp (g : Guard) (x : Src) (n : Bool) (s : State) : Host.Outcome State Fault Refusal :=
  runMove (.vaFcmp g x n) g x (fireVaFcmp n) s

/-- fcvt (R141). -/
def fireVaFcvt (n : Bool) : Fire := 
  fireChecked (vaSock n) 16 4 [0] fun t ops b =>
    let src := fld (opAt ops 0) 0 2
    let dst := fld (opAt ops 0) 2 2
    if src = 3 ∨ dst = 3 then none
    else convertPart (floatBits src) (floatBits dst) (fld (opAt ops 0) 4 2)
      (fun x => encodeFloat dst (rmOf t) (decodeFloat src x)) b
/-- VA_FCVT (R141). -/
def execVaFcvt (g : Guard) (x : Src) (n : Bool) (s : State) : Host.Outcome State Fault Refusal :=
  runMove (.vaFcvt g x n) g x (fireVaFcvt n) s

/-- fround (R140). -/
def fireVaFround (n : Bool) : Fire := 
  firePure (vaSock n) 17 4 [] fun t _ b =>
    let q := fmtOf t 0
    let w := floatBits q
    laneMap w fun l => encodeFloat q 0 (roundIntegral (rmOf t) (decodeFloat q (lane w l b)))
/-- VA_FROUND (R140). -/
def execVaFround (g : Guard) (x : Src) (n : Bool) (s : State) : Host.Outcome State Fault Refusal :=
  runMove (.vaFround g x n) g x (fireVaFround n) s

/-- ftoi (R142). -/
def fireVaFtoi (n : Bool) : Fire := 
  fireChecked (vaSock n) 18 4 [0] fun t ops b =>
    let q := fmtOf t 0
    convertPart (floatBits q) (viWidth t) (fld (opAt ops 0) 0 2) (fun x => toInt (rmOf t) (viWidth t) (decodeFloat q x)) b
/-- VA_FTOI (R142). -/
def execVaFtoi (g : Guard) (x : Src) (n : Bool) (s : State) : Host.Outcome State Fault Refusal :=
  runMove (.vaFtoi g x n) g x (fireVaFtoi n) s

/-- itof (R142). -/
def fireVaItof (n : Bool) : Fire := 
  fireChecked (vaSock n) 19 4 [0] fun t ops b =>
    let q := fmtOf t 0
    let w := viWidth t
    convertPart w (floatBits q) (fld (opAt ops 0) 0 2)
      (fun x => let z := sintOf w x; encodeFloat q (rmOf t) (.fin (decide (z < 0)) z.natAbs 0)) b
/-- VA_ITOF (R142). -/
def execVaItof (g : Guard) (x : Src) (n : Bool) (s : State) : Host.Outcome State Fault Refusal :=
  runMove (.vaItof g x n) g x (fireVaItof n) s

/-- iadd (R143). -/
def fireVaIadd (n : Bool) : Fire := fireVaInt n 20 2 fun _ a b => a + b
/-- VA_IADD (R143). -/
def execVaIadd (g : Guard) (x : Src) (n : Bool) (s : State) : Host.Outcome State Fault Refusal :=
  runMove (.vaIadd g x n) g x (fireVaIadd n) s

/-- isub (R143). -/
def fireVaIsub (n : Bool) : Fire := fireVaInt n 21 2 fun w a b => a + 2 ^ w - b
/-- VA_ISUB (R143). -/
def execVaIsub (g : Guard) (x : Src) (n : Bool) (s : State) : Host.Outcome State Fault Refusal :=
  runMove (.vaIsub g x n) g x (fireVaIsub n) s

/-- imul (R143). -/
def fireVaImul (n : Bool) : Fire := fireVaInt n 22 4 fun _ a b => a * b
/-- VA_IMUL (R143). -/
def execVaImul (g : Guard) (x : Src) (n : Bool) (s : State) : Host.Outcome State Fault Refusal :=
  runMove (.vaImul g x n) g x (fireVaImul n) s

/-- iand (R143). -/
def fireVaIand (n : Bool) : Fire := fireVaInt n 23 2 fun _ a b => a &&& b
/-- VA_IAND (R143). -/
def execVaIand (g : Guard) (x : Src) (n : Bool) (s : State) : Host.Outcome State Fault Refusal :=
  runMove (.vaIand g x n) g x (fireVaIand n) s

/-- ior (R143). -/
def fireVaIor (n : Bool) : Fire := fireVaInt n 24 2 fun _ a b => a ||| b
/-- VA_IOR (R143). -/
def execVaIor (g : Guard) (x : Src) (n : Bool) (s : State) : Host.Outcome State Fault Refusal :=
  runMove (.vaIor g x n) g x (fireVaIor n) s

/-- ixor (R143). -/
def fireVaIxor (n : Bool) : Fire := fireVaInt n 25 2 fun _ a b => a ^^^ b
/-- VA_IXOR (R143). -/
def execVaIxor (g : Guard) (x : Src) (n : Bool) (s : State) : Host.Outcome State Fault Refusal :=
  runMove (.vaIxor g x n) g x (fireVaIxor n) s

/-- ishl (R143). -/
def fireVaIshl (n : Bool) : Fire := fireVaInt n 26 2 fun w a b => a <<< (b % w)
/-- VA_ISHL (R143). -/
def execVaIshl (g : Guard) (x : Src) (n : Bool) (s : State) : Host.Outcome State Fault Refusal :=
  runMove (.vaIshl g x n) g x (fireVaIshl n) s

/-- ishr (R143). -/
def fireVaIshr (n : Bool) : Fire := fireVaInt n 27 2 fun w a b => a >>> (b % w)
/-- VA_ISHR (R143). -/
def execVaIshr (g : Guard) (x : Src) (n : Bool) (s : State) : Host.Outcome State Fault Refusal :=
  runMove (.vaIshr g x n) g x (fireVaIshr n) s

/-- isra (R143). -/
def fireVaIsra (n : Bool) : Fire := fireVaInt n 28 2 fun w a b => wrapInt w (sintOf w a / 2 ^ (b % w))
/-- VA_ISRA (R143). -/
def execVaIsra (g : Guard) (x : Src) (n : Bool) (s : State) : Host.Outcome State Fault Refusal :=
  runMove (.vaIsra g x n) g x (fireVaIsra n) s

/-- imin (R143). -/
def fireVaImin (n : Bool) : Fire := fireVaInt n 29 2 fun w a b => if sintOf w a < sintOf w b then a else b
/-- VA_IMIN (R143). -/
def execVaImin (g : Guard) (x : Src) (n : Bool) (s : State) : Host.Outcome State Fault Refusal :=
  runMove (.vaImin g x n) g x (fireVaImin n) s

/-- imax (R143). -/
def fireVaImax (n : Bool) : Fire := fireVaInt n 30 2 fun w a b => if sintOf w a < sintOf w b then b else a
/-- VA_IMAX (R143). -/
def execVaImax (g : Guard) (x : Src) (n : Bool) (s : State) : Host.Outcome State Fault Refusal :=
  runMove (.vaImax g x n) g x (fireVaImax n) s

/-- icmp (R138). -/
def fireVaIcmp (n : Bool) : Fire := 
  fireChecked (vaSock n) 31 2 [0, 1] fun t ops b =>
    compareLanes (viWidth t) (intCond (fld (opAt ops 1) 0 4) (viWidth t)) (opAt ops 0) b
/-- VA_ICMP (R138). -/
def execVaIcmp (g : Guard) (x : Src) (n : Bool) (s : State) : Host.Outcome State Fault Refusal :=
  runMove (.vaIcmp g x n) g x (fireVaIcmp n) s

/-- blend (R144). -/
def fireVaBlend (n : Bool) : Fire := 
  firePure (vaSock n) 32 2 [0, 1] fun t ops b =>
    let w := viWidth t
    laneMap w fun l => if bit (opAt ops 1) l then lane w l b else lane w l (opAt ops 0)
/-- VA_BLEND (R144). -/
def execVaBlend (g : Guard) (x : Src) (n : Bool) (s : State) : Host.Outcome State Fault Refusal :=
  runMove (.vaBlend g x n) g x (fireVaBlend n) s

/-- splat (R144). -/
def fireVaSplat (n : Bool) : Fire := 
  firePure (vaSock n) 33 2 [] fun t _ b => laneMap (viWidth t) fun _ => lane (viWidth t) 0 b
/-- VA_SPLAT (R144). -/
def execVaSplat (g : Guard) (x : Src) (n : Bool) (s : State) : Host.Outcome State Fault Refusal :=
  runMove (.vaSplat g x n) g x (fireVaSplat n) s

/-- fclass (R139). -/
def fireVaFclass (n : Bool) : Fire := 
  firePure (vaSock n) 34 2 [0] fun t ops b =>
    let q := fmtOf t 0
    let w := floatBits q
    packMask ((List.range (laneCount w)).map fun l => bit (opAt ops 0) (floatClass q (lane w l b)))
/-- VA_FCLASS (R139). -/
def execVaFclass (g : Guard) (x : Src) (n : Bool) (s : State) : Host.Outcome State Fault Refusal :=
  runMove (.vaFclass g x n) g x (fireVaFclass n) s

end Sys2Proof.Machine
end

