-- ==== Sys2Proof/Machine/Cross.lean ====
section
/-!
DEFINITION. Machine/Cross.lean: the cross-lane operations of vx (R146-R153).
-/
namespace Sys2Proof.Machine

/-- The lanes of a mask that take part, as options of the lane values (R148). -/
def maskedLanes (w : Nat) (c b : Vec) : List (Option Nat) :=
  (List.range (laneCount w)).map fun l => if bit c l then some (lane w l b) else none

/-- Combine two lanes that may be absent (R148). -/
def joinOpt (f : Nat → Nat → Nat) : Option Nat → Option Nat → Option Nat
  | none, y => y
  | some x, none => some x
  | some x, some y => some (f x y)

/-- One level of the fixed tree: neighbours combined (R148). -/
def foldPairs (f : Nat → Nat → Nat) : List (Option Nat) → List (Option Nat)
  | x :: y :: r => joinOpt f x y :: foldPairs f r
  | r => r

/-- The tree of R148; the fuel is the number of levels. -/
def treeFold (f : Nat → Nat → Nat) : Nat → List (Option Nat) → Option Nat
  | 0, xs => xs.headD none
  | k + 1, xs => treeFold f k (foldPairs f xs)

/-- The float sum rounded to nearest even (R148). -/
def addNear (q x y : Nat) : Nat := encodeFloat q 0 ((decodeFloat q x).add false (decodeFloat q y))

/-- Width, combine and empty value of a reduction: 0 sum, 1 maximum, 2 minimum; a[0] selects integer lanes (R148). -/
def reduceOf (t : Tile) (a : Vec) (kind : Nat) : Nat × (Nat → Nat → Nat) × Nat :=
  if bit a 0 then
    let w := viWidth t
    match kind with
    | 0 => (w, fun x y => (x + y) % 2 ^ w, 0)
    | 1 => (w, fun x y => if sintOf w x < sintOf w y then y else x, 2 ^ (w - 1))
    | _ => (w, fun x y => if sintOf w x < sintOf w y then x else y, 2 ^ (w - 1) - 1)
  else
    let q := fmtOf t 0
    match kind with
    | 0 => (floatBits q, addNear q, 0)
    | 1 => (floatBits q, fpick q true, signBit q true + infBits q)
    | _ => (floatBits q, fpick q false, infBits q)

/-- A lane as it enters a reduction or a scan: a float NaN is canonical, since fsgn alone keeps a NaN's payload (R53, R137). -/
def canonLane (t : Tile) (a : Vec) (x : Nat) : Nat :=
  if !bit a 0 && (decodeFloat (fmtOf t 0) x).isNan then nanBits (fmtOf t 0) else x

/-- The participating lanes of a reduction or a scan (R148, R149). -/
def reduceLanes (t : Tile) (w : Nat) (a c b : Vec) : List (Option Nat) := (maskedLanes w c b).map (Option.map (canonLane t a))

/-- A reduction (R148). -/
def fireReduce (code kind : Nat) : Fire :=
  firePure 6 code 6 [0, 1] fun t ops b =>
    let (w, f, e) := reduceOf t (opAt ops 0) kind
    packLanes w [(treeFold f 7 (reduceLanes t w (opAt ops 0) (opAt ops 1) b)).getD e]

/-- The running sums of R149, exclusive or inclusive. -/
def scanFrom (f : Nat → Nat → Nat) (e : Nat) (excl : Bool) (acc : Option Nat) : List (Option Nat) → List Nat
  | [] => []
  | x :: xs =>
    let acc' := joinOpt f acc x
    (if excl then acc.getD e else acc'.getD e) :: scanFrom f e excl acc' xs

/-- The indices of a list's true and false outcomes (R150). -/
def partLists (base : Nat) (b : Vec) (n : Nat) : List Nat × List Nat :=
  let ix := (List.range n).map fun l => ((base + l) % 65536, bit b l)
  ((ix.filter fun q => q.2).map Prod.fst, (ix.filter fun q => !q.2).map Prod.fst)

/-- A 64-lane index list, filled with 0xFFFF (R150). -/
def indexList (xs : List Nat) : Vec := packLanes 16 (xs ++ List.replicate (64 - xs.length) 0xFFFF)

/-- expand: masked lanes take successive lanes of b (R152). -/
def expandFrom (w : Nat) (b : Vec) : Nat → List (Bool × Nat) → List Nat
  | _, [] => []
  | i, (m, x) :: r => if m then lane w i b :: expandFrom w b (i + 1) r else x :: expandFrom w b i r

/-- A shuffle pattern (R147); none where reserved. -/
def shuffle (w p : Nat) (a c : Vec) : Option Vec :=
  let n := laneCount w
  let h := n / 2
  match p with
  | 0 => some (laneMap w fun l => if l % 2 = 0 then lane w (l / 2) a else lane w (l / 2) c)
  | 1 => some (laneMap w fun l => if l % 2 = 0 then lane w (h + l / 2) a else lane w (h + l / 2) c)
  | 2 => some (laneMap w fun l => if l < h then lane w (2 * l) a else lane w (2 * (l - h)) c)
  | 3 => some (laneMap w fun l => if l < h then lane w (2 * l + 1) a else lane w (2 * (l - h) + 1) c)
  | 4 => some (laneMap w fun l => lane w (if l % 2 = 0 then l + 1 else l - 1) a)
  | 5 => some (laneMap w fun l => lane w (n - 1 - l) a)
  | _ => none

/-- perm (R146). -/
def fireVxPerm : Fire := 
  firePure 6 8 3 [0] fun t ops b =>
    let w := viWidth t
    laneMap w fun l => lane w (lane w l b % laneCount w) (opAt ops 0)
/-- VX_PERM (R146). -/
def execVxPerm (g : Guard) (x : Src) (s : State) : Host.Outcome State Fault Refusal :=
  runMove (.vxPerm g x) g x fireVxPerm s

/-- rot (R146). -/
def fireVxRot : Fire := 
  firePure 6 9 2 [0] fun t ops b =>
    let w := viWidth t
    let n := laneCount w
    laneMap w fun l => lane w ((l + n - fld b 0 64 % n) % n) (opAt ops 0)
/-- VX_ROT (R146). -/
def execVxRot (g : Guard) (x : Src) (s : State) : Host.Outcome State Fault Refusal :=
  runMove (.vxRot g x) g x fireVxRot s

/-- shufl (R147). -/
def fireVxShufl : Fire := fireChecked 6 10 2 [0, 1] fun t ops b => shuffle (viWidth t) (fld b 0 3) (opAt ops 0) (opAt ops 1)
/-- VX_SHUFL (R147). -/
def execVxShufl (g : Guard) (x : Src) (s : State) : Host.Outcome State Fault Refusal :=
  runMove (.vxShufl g x) g x fireVxShufl s

/-- redadd (R148). -/
def fireVxRedadd : Fire := fireReduce 11 0
/-- VX_REDADD (R148). -/
def execVxRedadd (g : Guard) (x : Src) (s : State) : Host.Outcome State Fault Refusal :=
  runMove (.vxRedadd g x) g x fireVxRedadd s

/-- redmax (R148). -/
def fireVxRedmax : Fire := fireReduce 12 1
/-- VX_REDMAX (R148). -/
def execVxRedmax (g : Guard) (x : Src) (s : State) : Host.Outcome State Fault Refusal :=
  runMove (.vxRedmax g x) g x fireVxRedmax s

/-- redmin (R148). -/
def fireVxRedmin : Fire := fireReduce 13 2
/-- VX_REDMIN (R148). -/
def execVxRedmin (g : Guard) (x : Src) (s : State) : Host.Outcome State Fault Refusal :=
  runMove (.vxRedmin g x) g x fireVxRedmin s

/-- scan (R149). -/
def fireVxScan : Fire := 
  firePure 6 14 8 [0, 1] fun t ops b =>
    let (w, f, e) := reduceOf t (opAt ops 0) 0
    packLanes w (scanFrom f e (bit (opAt ops 0) 1) none (reduceLanes t w (opAt ops 0) (opAt ops 1) b))
/-- VX_SCAN (R149). -/
def execVxScan (g : Guard) (x : Src) (s : State) : Host.Outcome State Fault Refusal :=
  runMove (.vxScan g x) g x fireVxScan s

/-- part (R150). -/
def fireVxPart : Fire := 
  fireCompute 6 15 6 [0, 1] [0, 1, 2] fun _ slot ops b =>
    let n := fld (opAt ops 0) 0 8
    if n = 0 ∨ 64 < n then .fault (mkFault 1 6 15 slot 0)
    else
      let q := partLists (fld (opAt ops 1) 0 16) b n
      .ok [(0, indexList q.1, none), (1, indexList q.2, none), (2, toVec (q.1.length + q.2.length * 65536), none)]
/-- VX_PART (R150). -/
def execVxPart (g : Guard) (x : Src) (s : State) : Host.Outcome State Fault Refusal :=
  runMove (.vxPart g x) g x fireVxPart s

/-- compact (R151). -/
def fireVxCompact : Fire := 
  fireCompute 6 16 6 [1] [0, 1] fun t _ ops b =>
    let w := viWidth t
    let xs := (maskedLanes w (opAt ops 0) b).reduceOption
    .ok [(0, packLanes w xs, none), (1, toVec xs.length, none)]
/-- VX_COMPACT (R151). -/
def execVxCompact (g : Guard) (x : Src) (s : State) : Host.Outcome State Fault Refusal :=
  runMove (.vxCompact g x) g x fireVxCompact s

/-- expand (R152). -/
def fireVxExpand : Fire := 
  fireCompute 6 17 6 [0, 1] [0, 1] fun t _ ops b =>
    let w := viWidth t
    let ms := (List.range (laneCount w)).map fun l => (bit (opAt ops 1) l, lane w l (opAt ops 0))
    .ok [(0, packLanes w (expandFrom w b 0 ms), none), (1, toVec (ms.filter Prod.fst).length, none)]
/-- VX_EXPAND (R152). -/
def execVxExpand (g : Guard) (x : Src) (s : State) : Host.Outcome State Fault Refusal :=
  runMove (.vxExpand g x) g x fireVxExpand s

/-- bcast (R146). -/
def fireVxBcast : Fire := 
  firePure 6 18 2 [0] fun t ops b =>
    let w := viWidth t
    laneMap w fun _ => lane w (fld b 0 64 % laneCount w) (opAt ops 0)
/-- VX_BCAST (R146). -/
def execVxBcast (g : Guard) (x : Src) (s : State) : Host.Outcome State Fault Refusal :=
  runMove (.vxBcast g x) g x fireVxBcast s

end Sys2Proof.Machine
end

