-- ==== Sys2Proof/Machine/Matrix.lean ====
section
/-!
DEFINITION. Machine/Matrix.lean: the matrix socket mx (R175-R199): trigger checks, planes, the array and the loader cycle by cycle.
-/
namespace Sys2Proof.Machine

/-! ## Decoding operands -/

/-- Zero. -/
def numZero : Num := .fin false 0 0

/-- An element of a format without scales (R52, R182): 0 bfloat16, 1 binary16, 4 8-bit integer. -/
def plainElem (f n : Nat) : Num :=
  if f = 4 then let z := sintOf 8 n; .fin (decide (z < 0)) z.natAbs 0 else decodeFloat (if f = 0 then 2 else 1) n

/-- Elements of T8 or T6 from element i on, the next block number j, the elements of the current block so far (R60, R61); the error
is the index of the element whose bitmap bit breaks R61. -/
def taperedElems (t6 : Bool) (codes bits scales : Nat) : Nat → Nat → Nat → Nat → Except Nat (List Num)
  | 0, _, _, _ => .ok []
  | n + 1, i, j, run =>
    let mark := bitsOf bits i 1 == 1
    if !mark && (i % 256 == 0 || run == 64) then .error i
    else
      let j' := if mark then j + 1 else j
      let sc := sintOf 8 (bitsOf scales (8 * (j' - 1)) 8)
      let w := if t6 then 6 else 8
      match taperedElems t6 codes bits scales n (i + 1) j' (if mark then 1 else run + 1) with
      | .error k => .error k
      | .ok xs => .ok (decodeTapered t6 (bitsOf codes (w * i) w) sc :: xs)

/-- The element whose bitmap bit breaks R61, among n bits from bit i on, with the elements of the current block so far. -/
def bitmapError (bits : Nat) : Nat → Nat → Nat → Option Nat
  | 0, _, _ => none
  | n + 1, i, run =>
    let mark := bitsOf bits i 1 == 1
    if !mark && (i % 256 == 0 || run == 64) then some i else bitmapError bits n (i + 1) (if mark then 1 else run + 1)

/-- The units of a stream as one number, the first unit lowest (R182). -/
def unitBits (us : List Vec) : Nat := packNat 512 (us.map BitVec.toNat)

/-- The first n elements of an operation (R182). -/
def decodeElems (f n : Nat) (ue ub us : List Vec) : Except Nat (List Num) :=
  if mxTapered f then taperedElems (f == 3) (unitBits ue) (unitBits ub) (unitBits us) n 0 0 0
  else .ok ((List.range n).map fun i => plainElem f (bitsOf (unitBits ue) (mxBits f * i) (mxBits f)))

/-- A weight for a table of weights: a zero keeps no sign. -/
def cleanZero (x : Num) : Num := if x.isZero then numZero else x

/-- A dense plane from its decoded weights (R184); columns and rows in key order. -/
def densePlane (fmt ncol : Nat) (ws : List Num) : Plane :=
  { layout := 0, int := fmt == 4, fmt := fmt, ncol := ncol,
    w := (ws.zipIdx.map fun e => (e.2 / 64 * 256 + e.2 % 64, cleanZero e.1)).filter fun e => decide (e.2 ≠ numZero) }

/-- Values per group of a layout (R62). -/
def layoutN (l : Nat) : Nat := match l with | 1 => 1 | 2 => 2 | _ => 4

/-- The index of stored weight k (R62). -/
def sparseIndex (ix k : Nat) : Nat := bitsOf ix (3 * k) 3

/-- The first of n stored weights whose index does not rise in its group (R62). -/
def indexError (layout ix n : Nat) : Option Nat :=
  (List.range n).find? fun k => k % layoutN layout ≠ 0 && decide (sparseIndex ix k ≤ sparseIndex ix (k - 1))

/-- A sparse plane (R185); a group whose indices do not rise is a block-format error at its stored weight (R62). -/
def sparsePlane (fmt layout ncol : Nat) (ix : Nat) (ws : List Num) : Except Nat Plane :=
  let s := layoutS layout
  let n := layoutN layout
  match indexError layout ix ws.length with
  | some k => .error k
  | none =>
    .ok { layout := layout, int := fmt == 4, fmt := fmt, ncol := ncol,
          w := ws.zipIdx.map fun e => (e.2 / s * 256 + e.2 % s / n * 8 + sparseIndex ix e.2, cleanZero e.1) }

/-- The plane a weight load makes from its units. -/
def loadedPlane (o : MxOp) : Except Nat Plane :=
  let (fe, fb, fs, fi) := o.fields
  match decodeElems o.mw o.elems (o.got fe) (o.got fb) (o.got fs) with
  | .error k => .error k
  | .ok ws =>
    if o.code = 8 then .ok (densePlane o.mw (fld o.desc 0 7) ws)
    else sparsePlane o.mw o.sp (fld o.desc 0 7) (unitBits (o.got fi)) ws

/-- The activations of an mstream or mstreamn. -/
def activations (o : MxOp) : Except Nat (List Num) :=
  let (fe, fb, fs, _) := o.fields
  decodeElems o.ma o.elems (o.got fe) (o.got fb) (o.got fs)

/-! ## Sums -/

/-- The terms of a column: every weight of a dense plane, the stored ones of a sparse plane (R66, R188). -/
def planeColumn (p : Plane) (col : Nat) : List (Nat × Num) :=
  let es := (p.w.filter fun e => e.1 / 256 == col).map fun e => (e.1 % 256, e.2)
  if p.layout = 0 then (List.range 64).map fun i => (i, tget numZero es i) else es

/-- The exact sum of products of a row (R66). -/
def dotSum (a : List Num) (ts : List (Nat × Num)) : Num :=
  ts.foldl (fun s e => s.add false (((a[e.1]?).getD numZero).mul e.2)) numZero

/-- An integer sum. -/
def intValue : Num → Int
  | .fin neg m e => signed neg (m * 2 ^ e.toNat)
  | _ => 0

/-- A lane of an mstream or mstreamn (R188). -/
def streamLane (int keep : Bool) (old : BitVec 32) (s : Num) : BitVec 32 :=
  if int then
    let base : Int := if keep then sintOf 32 old.toNat else 0
    BitVec.ofNat 32 (wrapInt 32 (saturate (base + intValue s) (-(2 ^ 31)) (2 ^ 31 - 1)))
  else BitVec.ofNat 32 (encodePlain 0 0 ((if keep then decodeFloat 0 old.toNat else numZero).add false s))

/-- The two lanes of an mivl (R189). -/
def ivlLanes (lo hi : BitVec 32) (ts : List (Nat × Num)) (cen rad : List Num) : BitVec 32 × BitVec 32 :=
  let l := decodeFloat 0 lo.toNat
  let h := decodeFloat 0 hi.toNat
  let bad := cen.any (fun c => !c.isFin) || rad.any (fun r => r.isNan || r.lt numZero) || ts.any (fun e => !e.2.isFin) ||
    l.isNan || h.isNan || l == .inf false || h == .inf true
  if bad then (BitVec.ofNat 32 (nanBits 0), BitVec.ofNat 32 (nanBits 0))
  else
    let sc := dotSum cen ts
    let sd := ts.foldl (fun s e => if e.2.isZero then s else s.add false (e.2.abs.mul ((rad[e.1]?).getD numZero))) numZero
    if sd.isInf then (BitVec.ofNat 32 (signBit 0 true + infBits 0), BitVec.ofNat 32 (infBits 0))
    else
      (BitVec.ofNat 32 (encodePlain 0 2 ((l.add false sc).add false sd.neg)),
       BitVec.ofNat 32 (encodePlain 0 3 ((h.add false sc).add false sd)))

/-- A lane of an accumulator (R175). -/
def accAt (m : Mx) (a row col : Nat) : BitVec 32 := tget 0 m.acc (a * 4096 + row * 64 + col)
/-- A lane written. -/
def putAcc (m : Mx) (a row col : Nat) (v : BitVec 32) : Mx := { m with acc := tset 0 m.acc (a * 4096 + row * 64 + col) v }

/-- Slice k of a list in pieces of n. -/
def rowOf {α : Type} (xs : List α) (n k : Nat) : List α := (xs.drop (k * n)).take n

/-- An array operation writes its rows (R178, R188, R189); the error is the element that breaks R61. -/
def completeArray (m : Mx) (o : MxOp) (p : Plane) : Except Nat Mx :=
  let n := fld o.desc 4 7
  let row0 := fld o.desc 12 6
  let acc := fld o.desc 0 3
  if o.code = 15 then
    let (fe, fb, _, _) := o.fields
    let f32 := fun us => (List.range (64 * n)).map fun i => decodeFloat 0 (bitsOf (unitBits us) (32 * i) 32)
    let cs := f32 (o.got fe)
    let rs := f32 (o.got fb)
    .ok ((List.range 64).foldl (fun m col =>
      let ts := planeColumn p col
      (List.range n).foldl (fun m k =>
        let r := ivlLanes (accAt m acc (row0 + k) col) (accAt m (acc + 1) (row0 + k) col) ts (rowOf cs 64 k) (rowOf rs 64 k)
        putAcc (putAcc m acc (row0 + k) col r.1) (acc + 1) (row0 + k) col r.2) m) m)
  else
    match activations o with
    | .error k => .error k
    | .ok xs =>
      .ok ((List.range 64).foldl (fun m col =>
        let ts := planeColumn p col
        (List.range n).foldl (fun m k =>
          putAcc m acc (row0 + k) col
            (streamLane p.int (o.code == 10) (accAt m acc (row0 + k) col) (dotSum (rowOf xs (layoutK p.layout) k) ts))) m) m)

/-! ## Order, busy bits, trigger checks -/

/-- The plane a bit names. -/
def planeAt (m : Mx) (b : Bool) : Plane := if b then m.p1 else m.p0
/-- A plane replaced. -/
def putPlane (m : Mx) (b : Bool) (p : Plane) : Mx := if b then { m with p1 := p } else { m with p0 := p }

/-- Every weight load that has not completed, in trigger order. -/
def pendingLoads (m : Mx) : List MxOp :=
  (m.ending.map MxEnd.op).filter MxOp.isLoad ++ m.loader.toList ++ m.queue.filter MxOp.isLoad

/-- The tag (layout, integer, format) that the operations triggered so far give a plane (R194). -/
def plannedTag (m : Mx) (b : Bool) : Nat × Bool × Nat :=
  match ((pendingLoads m).filter fun o => o.plane == b).getLast? with
  | some o => (if o.code = 8 then 0 else o.sp, o.mw == 4, o.mw)
  | none => let p := planeAt m b; (p.layout, p.int, p.fmt)

/-- Which plane is stationary at this point of the trigger order (R186). -/
def plannedFront (m : Mx) : Bool := (m.queue.filter fun o => o.code == 9).foldl (fun b _ => !b) m.front

/-- The accumulators an operation keeps busy, as a mask (R176). -/
def opMask (o : MxOp) : Nat :=
  let a := fld o.desc 0 3
  if o.code = 15 then 2 ^ a + 2 ^ (a + 1) else if o.isArray then 2 ^ a else 0

/-- The mask of busy accumulators (R176). -/
def busyMask (m : Mx) : Nat :=
  ((m.queue ++ m.array.toList ++ m.ending.map MxEnd.op).foldl (fun k o => k ||| opMask o) 0) ||| m.clears.foldl (fun k c => k ||| c.2) 0

/-- Operations of mx in flight (R92, R199). -/
def mxBusy (m : Mx) : Bool :=
  !m.queue.isEmpty || m.array.isSome || m.loader.isSome || !m.ending.isEmpty || !m.clears.isEmpty || !m.reads.isEmpty

/-- A stream bound with 64-byte elements in a direction (R180). -/
def unitStream (t : Tile) (write : Bool) (f : Nat) : Bool :=
  match tfind t.streams f with
  | some st => st.write == write && st.esz == 6
  | none => false

/-- The first failed check of R194: the cause. -/
def mxCheck (t : Tile) (o : MxOp) : Option Nat :=
  let m := t.mx
  let n := fld o.desc 4 7
  let ncol := fld o.desc 0 7
  let streams := o.needs.map Prod.fst
  let tag := plannedTag m (plannedFront m)
  if o.isArray && (n = 0 || 64 < n || 64 < fld o.desc 12 6 + n) then some 1
  else if o.isLoad && (ncol = 0 || 64 < ncol) then some 1
  else if (o.code = 15 || ((o.code = 13 || o.code = 14) && bit o.desc 17)) && fld o.desc 0 1 = 1 then some 1
  else if !decide streams.Nodup then some 1
  else if (o.isLoad || o.code = 10 || o.code = 11) && ((fmtOf t 2 == 4) != (fmtOf t 3 == 4)) then some 13
  else if o.code = 16 && fmtOf t 4 = 0 then some 13
  else if (o.code = 10 || o.code = 11) && ((fmtOf t 2 == 4) != tag.2.1) then some 13
  else if o.code = 15 && tag.1 ≠ 0 then some 13
  else if streams.any fun f => !unitStream t false f then some 13
  else none

/-- The operation that a trigger would queue: its plane and the formats it uses (R184-R188). -/
def mxOpOf (t : Tile) (code slot : Nat) (b : Vec) : MxOp :=
  let m := t.mx
  let front := plannedFront m
  let load := code == 8 || code == 16
  let tag := plannedTag m front
  { code := code, desc := vecWord b, ma := fmtOf t 2, mw := if load then fmtOf t 3 else tag.2.2, sp := if load then fmtOf t 4 else tag.1,
    plane := if load then !front else front, seq := m.seq, taken := [], slot := slot, age := 0 }

/-- A trigger of an operation that holds a place of the queue (R194, R195). -/
def fireMxQueued (code : Nat) : Fire := fun slot _ b s =>
  let t := s.cur
  let o := mxOpOf t code slot b
  match mxCheck t o with
  | some c => .fault (mkFault c 8 code slot 0)
  | none =>
    if 8 ≤ t.mx.queue.length then .freeze
    else .ok { s with cur := { t with mx := { t.mx with queue := t.mx.queue ++ [o], seq := t.mx.seq + 1 } } }

/-- The lanes of a window: (accumulator, row, column, bit position) (R192). -/
def windowLanes (d : Word) : List (Nat × Nat × Nat × Nat) :=
  let acc := fld d 0 3
  let row := fld d 4 6
  if bit d 17 then
    (List.range 16).flatMap fun l => [(acc, row, 16 * fld d 11 2 + l, 64 * l), (acc + 1, row, 16 * fld d 11 2 + l, 64 * l + 32)]
  else (List.range 32).map fun j => (acc, row, 32 * fld d 10 1 + j, 32 * j)

/-- The accumulators of a window as a mask. -/
def windowMask (d : Word) : Nat := if bit d 17 then 2 ^ fld d 0 3 + 2 ^ (fld d 0 3 + 1) else 2 ^ fld d 0 3

/-- An interval lane read from a pair (R192). -/
def pairLane (lo hi : BitVec 32) : Nat :=
  let l := decodeFloat 0 lo.toNat
  let h := decodeFloat 0 hi.toNat
  if l.isNan || h.isNan then 0x7FC00001 + 2 ^ 32 * 0x7FC00001
  else if h.lt l || l == .inf false || h == .inf true then 0x7F800000 + 2 ^ 32 * 0xFF800000
  else (if l.isZero then 0 else lo.toNat) + 2 ^ 32 * (if h.isZero then 0 else hi.toNat)

/-- What an mread returns (R192). -/
def windowValue (m : Mx) (d : Word) : Vec :=
  let acc := fld d 0 3
  let row := fld d 4 6
  if bit d 17 then
    packLanes 64 ((List.range 16).map fun l =>
      pairLane (accAt m acc row (16 * fld d 11 2 + l)) (accAt m (acc + 1) row (16 * fld d 11 2 + l)))
  else packLanes 32 ((windowLanes d).map fun q => (accAt m q.1 q.2.1 q.2.2.1).toNat)

/-- mread (R191, R192, R196). -/
def mreadTake (t : Tile) (slot : Nat) (b : Vec) : Res Tile :=
  let d := vecWord b
  match mxCheck t (mxOpOf t 13 slot b) with
  | some c => .fault (mkFault c 8 13 slot 0)
  | none =>
    if busyMask t.mx &&& windowMask d ≠ 0 then .freeze
    else
      (accepts t 8 13 [0]).bind fun _ =>
        let v := windowValue t.mx d
        let m := if bit d 16 then (windowLanes d).foldl (fun m q => putAcc m q.1 q.2.1 q.2.2.1 0) t.mx else t.mx
        let (k, t) := bumpSerial t
        let m := { m with reads := m.reads ++ [{ rem := 4, serial := k, seq := m.seq, val := v }], seq := m.seq + 1 }
        .ok (awaitResult { t with mx := m } 8 k)

/-- macw (R193, R196). -/
def macwTake (t : Tile) (slot : Nat) (a b : Vec) : Res Tile :=
  let d := vecWord b
  match mxCheck t (mxOpOf t 14 slot b) with
  | some c => .fault (mkFault c 8 14 slot 0)
  | none =>
    if busyMask t.mx &&& windowMask d ≠ 0 then .freeze
    else
      let m := (windowLanes d).foldl (fun m q => putAcc m q.1 q.2.1 q.2.2.1 (BitVec.ofNat 32 (fld a q.2.2.2 32))) t.mx
      .ok { t with mx := { m with clears := m.clears ++ [(2, windowMask d)], seq := m.seq + 1 } }

/-- mclr (R190, R196). -/
def mclrTake (t : Tile) (b : Vec) : Res Tile :=
  let mask := fld b 0 8
  if busyMask t.mx &&& mask ≠ 0 then .freeze
  else if mask = 0 then .ok t
  else
    let acc := t.mx.acc.filter fun e => bitsOf mask (e.1 / 4096) 1 == 0
    .ok { t with mx := { t.mx with acc := acc, clears := t.mx.clears ++ [(2, mask)], seq := t.mx.seq + 1 } }

/-! ## The array and the loader, cycle by cycle (R195) -/

/-- The row period in half-cycles: by the wider of the two formats, four times that on a B die. -/
def rowPeriod (mDie : Bool) (o : MxOp) : Nat :=
  let w := max (mxBits o.ma) (mxBits o.mw)
  let h := if o.code = 15 then 32 else if w = 16 then 8 else if w = 8 then 2 else 1
  if mDie then h else 4 * h

/-- An earlier-triggered operation in flight still wants the stream (R181). -/
def streamTaken (m : Mx) (seq f : Nat) : Bool := m.inFlight.any fun o => decide (o.seq < seq) && o.wants f

/-- Take one unit of a stream for an operation (R180, R181): the tile and the unit, or nothing when it must wait; a failed element
gives its cause. -/
def takeUnit (t : Tile) (o : MxOp) (f : Nat) : Option (Tile × MxOp × Nat) :=
  if streamTaken t.mx o.seq f then none
  else
    match tfind t.streams f with
    | none => none
    | some st =>
      match st.buf with
      | [] => none
      | (v, cause) :: rest =>
        some ({ t with streams := tput t.streams f { st with buf := rest, moved := st.moved + 1 } },
              { o with taken := tset [] o.taken f (o.got f ++ [v]) }, cause)

/-- The block-format error that the units taken so far show (R61, R62, R198): the element, or the stored weight. -/
def formatError (o : MxOp) : Option Nat :=
  let (_, fb, _, fi) := o.fields
  let n := o.elems
  if o.code = 15 || (!o.isLoad && !o.isArray) then none
  else
    let bits := if mxTapered o.fmt then bitmapError (unitBits (o.got fb)) (min n (512 * (o.got fb).length)) 0 0 else none
    match bits with
    | some i => some i
    | none => if o.code = 16 then indexError o.sp (unitBits (o.got fi)) (min n (512 * (o.got fi).length / 3)) else none

/-- The detail of a failed element's cause: the stream, or the handle it walks (R306). -/
def failDetail (t : Tile) (cause f : Nat) : Nat :=
  if cause = 18 then f else if cause = 15 then ((tfind t.streams f).map Stream.h).getD 0 else 0

/-- The fault that a unit brings at its fetch, cause and detail (R198): its element failed, or its bits break the block format. -/
def unitFault (t : Tile) (o : MxOp) (f cause : Nat) : Option (Nat × Nat) :=
  if cause ≠ 0 then some (cause, failDetail t cause f) else (formatError o).map fun k => (14, min k (2 ^ 32 - 1))

/-- How taking units ends: all taken, waiting, or a fault (cause, detail). -/
inductive Take where
  | done
  | waits
  | failed (cause detail : Nat)
  deriving DecidableEq, Repr

/-- Take units of one stream until `upto` are taken. -/
def takeUpto : Nat → Tile → MxOp → Nat → Nat → Tile × MxOp × Take
  | 0, t, o, _, _ => (t, o, .done)
  | k + 1, t, o, f, upto =>
    if upto ≤ (o.got f).length then (t, o, .done)
    else
      match takeUnit t o f with
      | none => (t, o, .waits)
      | some (t', o', c) =>
        match unitFault t' o' f c with
        | some (cause, detail) => (t', o', .failed cause detail)
        | none => takeUpto k t' o' f upto

/-- The units each stream must have given before row k has entered (R182); the scale stream's count follows the bitmap. -/
def rowNeeds (o : MxOp) (k : Nat) : List (Nat × Nat) :=
  let (fe, fb, fs, _) := o.fields
  if o.code = 15 then [(fe, 4 * (k + 1)), (fb, 4 * (k + 1))]
  else
    let n := (k + 1) * layoutK o.sp
    (fe, ceilDiv (n * mxBits o.ma) 512) ::
      if mxTapered o.ma then [(fb, ceilDiv n 512), (fs, ceilDiv (bitmapOnes (o.got fb) n) 64)] else []

/-- Take what row k needs: elements, then the bitmap, then the scales it shows. -/
def takeRow (t : Tile) (o : MxOp) (k : Nat) : Tile × MxOp × Take :=
  (List.range 3).foldl (fun r i =>
    match r.2.2 with
    | .done =>
      match (rowNeeds r.2.1 k)[i]? with
      | none => r
      | some (f, u) => takeUpto 64 r.1 r.2.1 f u
    | _ => r) (t, o, .done)

/-- Rows that enter in this cycle (R195): up to `fuel` of them. -/
def enterRows (h : Nat) : Nat → Tile → MxOp → Nat → Tile × MxOp × Nat × Take
  | 0, t, o, r => (t, o, r, .done)
  | fuel + 1, t, o, r =>
    if fld o.desc 4 7 ≤ r || t.mx.phase + 2 ≤ r * h then (t, o, r, .done)
    else
      let q := takeRow t o r
      match q.2.2 with
      | .done => enterRows h fuel q.1 q.2.1 (r + 1)
      | x => (q.1, q.2.1, r, x)

/-- A fault of a running operation (R198): reported late; every later operation that has not taken effect is discarded, its busy
bits clear, its results in flight are dropped. -/
def mxFail (o : MxOp) (cause detail : Nat) (t : Tile) : Tile :=
  let m := t.mx
  let keep := fun (x : MxOp) => decide (x.seq < o.seq)
  let gone := m.reads.filter fun r => decide (o.seq < r.seq)
  let m' :=
    { m with queue := m.queue.filter keep, array := m.array.filter keep, loader := m.loader.filter keep,
             ending := m.ending.filter fun e => keep e.op, reads := m.reads.filter fun r => decide (r.seq < o.seq) }
  let t := gone.foldl (fun t r => dropResult t 8 r.serial) { t with mx := m' }
  addLate t { (mkFault cause 8 o.code o.slot detail) with addr := 0 }

/-- The array's work of one cycle: rows enter; after the last the operation goes to completion. -/
def arrayWork (mDie : Bool) (t : Tile) : Tile :=
  match t.mx.array with
  | none => t
  | some o =>
    let h := rowPeriod mDie o
    let q := enterRows h 2 t o t.mx.rows
    match q.2.2.2 with
    | .failed c d => mxFail q.2.1 c d q.1
    | .waits => { q.1 with mx := { q.1.mx with array := some q.2.1, rows := q.2.2.1 } }
    | .done =>
      let phase := t.mx.phase + 2
      if fld o.desc 4 7 * h ≤ phase then
        let e : MxEnd := { rem := 7, op := q.2.1, plane := planeAt q.1.mx o.plane }
        { q.1 with mx := { q.1.mx with array := none, rows := 0, phase := 0, ending := q.1.mx.ending ++ [e] } }
      else { q.1 with mx := { q.1.mx with array := some q.2.1, rows := q.2.2.1, phase := phase } }

/-- The array takes the next operation once the previous one has taken its last row and the loads of its plane that were triggered
before it have completed (R195). -/
def arrayStart (m : Mx) : Mx :=
  match m.array with
  | some _ => m
  | none =>
    match m.queue.find? MxOp.isArray with
    | none => m
    | some o =>
      if o.age = 0 || (pendingLoads m).any fun l => decide (l.seq < o.seq) && l.plane == o.plane then m
      else { m with array := some o, rows := 0, phase := 0, queue := m.queue.filter fun x => decide (x.seq ≠ o.seq) }

/-- The loader takes the next load once every earlier operation that reads the plane has taken its last row (R186). -/
def loaderStart (m : Mx) : Mx :=
  match m.loader with
  | some _ => m
  | none =>
    match m.queue.find? MxOp.isLoad with
    | none => m
    | some o =>
      if o.age = 0 || (m.queue ++ m.array.toList).any fun x => x.isArray && decide (x.seq < o.seq) && x.plane == o.plane then m
      else { m with loader := some o, queue := m.queue.filter fun x => decide (x.seq ≠ o.seq) }

/-- The loader's work of one cycle: one unit, of the first stream that has one (R195). -/
def loaderWork (t : Tile) : Tile :=
  match t.mx.loader with
  | none => t
  | some o =>
    let r := (o.needs.map Prod.fst).findSome? fun f => if o.mayTake f then (takeUnit t o f).map fun q => (q, f) else none
    match r with
    | none => t
    | some (q, f) =>
      match unitFault q.1 q.2.1 f q.2.2 with
      | some (cause, detail) => mxFail q.2.1 cause detail q.1
      | none =>
        if (q.2.1.needs.map Prod.fst).any fun g => q.2.1.wants g then { q.1 with mx := { q.1.mx with loader := some q.2.1 } }
        else
          let e : MxEnd := { rem := 4, op := q.2.1, plane := planeAt q.1.mx o.plane }
          { q.1 with mx := { q.1.mx with loader := none, ending := q.1.mx.ending ++ [e] } }

/-- The wswap that takes effect at the end of this cycle: every earlier operation has taken its last row or unit, and the loads
before it have completed (R186, R195). -/
def swapWork (m : Mx) : Mx :=
  match m.queue with
  | o :: rest =>
    if o.code == 9 && !(m.array.toList ++ pendingLoads m).any (fun x => decide (x.seq < o.seq)) then { m with front := !m.front, queue := rest }
    else m
  | [] => m

/-- An operation completes: its plane or its accumulator rows are written (R178, R184, R188). -/
def completeMx (t : Tile) (e : MxEnd) : Tile :=
  if e.op.isLoad then
    match loadedPlane e.op with
    | .ok p => { t with mx := putPlane t.mx e.op.plane p }
    | .error k => mxFail e.op 14 (min k (2 ^ 32 - 1)) t
  else
    match completeArray t.mx e.op e.plane with
    | .ok m => { t with mx := m }
    | .error k => mxFail e.op 14 (min k (2 ^ 32 - 1)) t

/-- Complete every operation that is due, in trigger order; a failure takes those behind it away. -/
def completeDue : Nat → Tile → Tile
  | 0, t => t
  | n + 1, t =>
    match t.mx.ending.find? fun e => decide (e.rem = 0) with
    | none => t
    | some e => completeDue n (completeMx { t with mx := { t.mx with ending := t.mx.ending.erase e } } e)

/-- Results of mread that are due arrive on y0. -/
def readsDue (t : Tile) : Tile :=
  let rs := t.mx.reads.map fun r => { r with rem := r.rem - 1 }
  let t := { t with mx := { t.mx with reads := rs.filter fun r => decide (r.rem ≠ 0) } }
  (rs.filter fun r => decide (r.rem = 0)).foldl (fun t r => answer t 8 r.serial 0 r.val) t

/-- One cycle of mx (R195-R197). -/
def tickMx (mDie : Bool) (t : Tile) : Tile :=
  if !mxBusy t.mx then t
  else
    let t := { t with mx := loaderStart (arrayStart t.mx) }
    let swaps := decide ((swapWork t.mx).front ≠ t.mx.front)
    let t := loaderWork (arrayWork mDie t)
    let m := if swaps then swapWork t.mx else t.mx
    let ending := m.ending.map fun e => { e with rem := e.rem - 1 }
    let clears := (m.clears.map fun c => (c.1 - 1, c.2)).filter fun c => decide (c.1 ≠ 0)
    let queue := m.queue.map fun o => { o with age := o.age + 1 }
    let t := { t with mx := { m with ending := ending, clears := clears, queue := queue } }
    readsDue (completeDue 16 t)

/-! ## The triggers -/

/-- wload (R184). -/
def fireMxWload : Fire := fireMxQueued 8
/-- MX_WLOAD (R184). -/
def execMxWload (g : Guard) (x : Src) (s : State) : Host.Outcome State Fault Refusal :=
  runMove (.mxWload g x) g x fireMxWload s

/-- wswap (R186). -/
def fireMxWswap : Fire := fireMxQueued 9
/-- MX_WSWAP (R186). -/
def execMxWswap (g : Guard) (x : Src) (s : State) : Host.Outcome State Fault Refusal :=
  runMove (.mxWswap g x) g x fireMxWswap s

/-- mstream (R188). -/
def fireMxMstream : Fire := fireMxQueued 10
/-- MX_MSTREAM (R188). -/
def execMxMstream (g : Guard) (x : Src) (s : State) : Host.Outcome State Fault Refusal :=
  runMove (.mxMstream g x) g x fireMxMstream s

/-- mstreamn (R188). -/
def fireMxMstreamn : Fire := fireMxQueued 11
/-- MX_MSTREAMN (R188). -/
def execMxMstreamn (g : Guard) (x : Src) (s : State) : Host.Outcome State Fault Refusal :=
  runMove (.mxMstreamn g x) g x fireMxMstreamn s

/-- mclr (R190). -/
def fireMxMclr : Fire := fun _ _ b s => (mclrTake s.cur b).bind fun t => .ok { s with cur := t }
/-- MX_MCLR (R190). -/
def execMxMclr (g : Guard) (x : Src) (s : State) : Host.Outcome State Fault Refusal :=
  runMove (.mxMclr g x) g x fireMxMclr s

/-- mread (R192). -/
def fireMxMread : Fire := fun slot _ b s => (mreadTake s.cur slot b).bind fun t => .ok { s with cur := t }
/-- MX_MREAD (R192). -/
def execMxMread (g : Guard) (x : Src) (s : State) : Host.Outcome State Fault Refusal :=
  runMove (.mxMread g x) g x fireMxMread s

/-- macw (R193). -/
def fireMxMacw : Fire := fun slot held b s =>
  (takeOperands s.cur 8 14 slot held [0]).bind fun q =>
    (macwTake q.2 slot (opAt q.1 0) b).bind fun t => .ok { s with cur := t }
/-- MX_MACW (R193). -/
def execMxMacw (g : Guard) (x : Src) (s : State) : Host.Outcome State Fault Refusal :=
  runMove (.mxMacw g x) g x fireMxMacw s

/-- mivl (R189). -/
def fireMxMivl : Fire := fireMxQueued 15
/-- MX_MIVL (R189). -/
def execMxMivl (g : Guard) (x : Src) (s : State) : Host.Outcome State Fault Refusal :=
  runMove (.mxMivl g x) g x fireMxMivl s

/-- wloadsp (R185). -/
def fireMxWloadsp : Fire := fireMxQueued 16
/-- MX_WLOADSP (R185). -/
def execMxWloadsp (g : Guard) (x : Src) (s : State) : Host.Outcome State Fault Refusal :=
  runMove (.mxWloadsp g x) g x fireMxWloadsp s

end Sys2Proof.Machine
end

