-- ==== Sys2Proof/Machine/Table.lean ====
section
/-!
DEFINITION. Machine/Table.lean: the tt operations (R355-R357): creating, freeing, setting and reporting tile-table entries, in
trigger order with the tile's accesses.
-/
namespace Sys2Proof.Machine

/-- The size a shape word gives a handle (R356). -/
def shapeSize (a : Word) : Nat := ceilDiv (fld a 0 16 * fld a 16 16 * 2 ^ fld a 32 3) 64 * 64
/-- A shape word with a reserved value (R356). -/
def shapeIllegal (a : Word) : Bool := decide (fld a 0 16 = 0 ∨ fld a 16 16 = 0 ∨ 4 < fld a 32 3)
/-- The shape word of an entry. -/
def shapeWord (e : Entry) : Nat := e.rows + e.cols * 2 ^ 16 + e.esz * 2 ^ 32 + e.declared * 2 ^ 48

/-- The largest handle of a level (R317). -/
def levelMax (level : Nat) : Nat := match level with | 0 => 2 ^ 19 | 1 => 7 * 2 ^ 20 | _ => 2 ^ 25
/-- The spacing of storage offsets at a level (R416, R357). -/
def levelUnit (level : Nat) : Nat := match level with | 0 => 512 | 1 => 1024 | _ => 64
/-- The first number of a level and the number after its last (R212). -/
def levelRange (level : Nat) : Nat × Nat := match level with | 0 => (0, 256) | 1 => (256, 768) | _ => (768, 1024)

/-- The allocations in a storage that begin before an end and reach past an offset. -/
def clash (s : State) (space off size : Nat) : Option Alloc :=
  s.dev.allocs.find? fun a => decide (a.space = space ∧ a.off < off + size ∧ off < a.off + a.size)

/-- The lowest offset from `off` at which a size fits; each allocation met is skipped. -/
def fitFrom (s : State) (space size unit limit : Nat) : Nat → Nat → Option Nat
  | 0, _ => none
  | fuel + 1, off =>
    if limit < off + size then none
    else
      match clash s space off size with
      | none => some off
      | some a => fitFrom s space size unit limit fuel (ceilDiv (a.off + a.size) unit * unit)

/-- Free storage for a size at a level (R357; which of the free places is taken is not stated). -/
def findSpace (s : State) (level size : Nat) : Option (Nat × Nat) :=
  let fit := fun space => (fitFrom s space size (levelUnit level) (levelMax level) (s.dev.allocs.length + 1) 0).map fun o => (space, o)
  match level with
  | 0 => fit (wellSpace s.cur.id)
  | 1 => fit (sliceSpace s.cur.id)
  | _ =>
    let used := fun c => ((s.dev.allocs.filter fun a => a.space == bufferSpace c).map Alloc.size).sum
    let best := (attached s s.cur.id.die).foldl (fun (b : Option Nat) c =>
      match b with
      | none => some c
      | some d => if used c < used d ∨ (used c = used d ∧ c < d) then some c else some d) none
    best.bind fun c => fit (bufferSpace c)

/-- One more entry maps a storage. -/
def addRef (e : Entry) (s : State) : State :=
  if s.dev.allocs.any fun a => a.space == e.space && a.off == e.off then
    { s with dev := { s.dev with allocs := s.dev.allocs.map fun a =>
      if a.space = e.space ∧ a.off = e.off then { a with refs := a.refs + 1, size := max a.size e.size } else a } }
  else { s with dev := { s.dev with allocs := s.dev.allocs ++ [{ space := e.space, off := e.off, size := e.size, refs := 1 }] } }

/-- One entry less maps a storage; the last one frees it (R357). -/
def dropRef (e : Entry) (s : State) : State :=
  let last := s.dev.allocs.any fun a => a.space == e.space && a.off == e.off && decide (a.refs ≤ 1)
  let as := s.dev.allocs.map fun a => if a.space = e.space ∧ a.off = e.off then { a with refs := a.refs - 1 } else a
  let s := { s with dev := { s.dev with allocs := as.filter fun a => a.refs != 0 } }
  if last then putHstate s e { st := 0, count := 0 } else s

/-- An entry put into the focused tile's table, in place of the one there. -/
def putEntry (h : Nat) (e : Option Entry) (s : State) : State :=
  let s := match tfind s.cur.table h with | some old => dropRef old s | none => s
  match e with
  | none => onCur (fun t => { t with table := tdel t.table h }) s
  | some e => addRef e (onCur (fun t => { t with table := tput t.table h e }) s)

/-- The hstate value (R357). -/
def hstateValue (s : State) (h : Nat) : Nat :=
  match tfind s.cur.table h with
  | none => 0
  | some e => if e.tracked then (hstateOf s e).st + 4 + 8 + (hstateOf s e).count * 65536 else 8

/-- The storage a storage word names (R357), where it keeps the layout of its level and a handle of that size lies within the storage
that the level has for handles (R317, R416; log 20). -/
def storageOf (s : State) (level : Nat) (c : Word) (size : Nat) : Option (Nat × Nat) :=
  let off := c.toNat
  match level with
  | 0 => if off % 512 = 0 ∧ off + size ≤ 2 ^ 19 then some (wellSpace s.cur.id, off) else none
  | 1 => if off % 1024 = 0 ∧ off + size ≤ 0x700000 then some (sliceSpace s.cur.id, off) else none
  | _ =>
    let cis := fld c 44 4
    if fld c 48 16 = 0 ∧ fld c 25 19 = 0 ∧ fld c 0 25 % 64 = 0 ∧ cis ∈ attached s s.cur.id.die ∧ fld c 0 25 + size ≤ 2 ^ 25 then
      some (bufferSpace cis, fld c 0 25)
    else none

/-- The entry that a shape word makes. -/
def mkEntry (level space off : Nat) (a : Word) (tracked : Bool) : Entry :=
  { level := level, space := space, off := off, size := shapeSize a, rows := fld a 0 16, cols := fld a 16 16, esz := fld a 32 3,
    tracked := tracked, declared := fld a 48 16 }

/-! ## Taking effect (R355) -/

/-- Whether every earlier access of the tile that names the handle has been performed (R355). -/
def ttReady (t : Tile) (o : TtOp) : Bool :=
  let h := fld o.b 0 10
  (o.code == 8 && bit o.b 15) ||
    !(t.lw.any fun e => e.2.any fun a => decide (a.serial < o.serial) && a.h == h) &&
      !(t.streams.any fun e => e.2.h == h && if e.2.write then e.2.buf != [] && !e.2.stopped else e.2.coming != [])

/-- halloc (R357): the number and the status, and with status 0 the entry. -/
def hallocPlan (s : State) (o : TtOp) : Nat × Nat × Option Entry :=
  let any := bit o.b 15
  let level := if any then fld o.b 11 2 else handleLevel (fld o.b 0 10)
  let r := levelRange level
  let number := if any then (List.range (r.2 - r.1)).find? fun i => (tfind s.cur.table (r.1 + i)).isNone else none
  match (if any then number.map (· + r.1) else some (fld o.b 0 10)) with
  | none => (0xFFFF, 3, none)
  | some h =>
    if (tfind s.cur.table h).isSome then (0xFFFF, 1, none)
    else if levelMax level < shapeSize o.a then (0xFFFF, 4, none)
    else
      match findSpace s level (shapeSize o.a) with
      | none => (0xFFFF, 2, none)
      | some q => (h, 0, some (mkEntry level q.1 q.2 o.a (bit o.b 16)))

/-- A tt operation refused (R215, R357). -/
def refuseFree (o : TtOp) (s : State) : State :=
  let h := fld o.b 0 10
  let s := logHandle s (tfind s.cur.table h) h 7 0
  onCur (fun t => addLate t { mkFault 15 17 o.code o.slot h with addr := BitVec.ofNat 64 h }) s

/-- A copy in flight names a handle (R357). -/
def copyNames (t : Tile) (h : Nat) : Bool :=
  t.copies.any fun c => (bit (copySrc c.desc) 63 && fld (copySrc c.desc) 0 10 == h) ||
    (bit (copyDst c.desc) 63 && fld (copyDst c.desc) 0 10 == h)

/-- A tt operation takes effect (R357). -/
def ttEffect (o : TtOp) (s : State) : State :=
  let h := fld o.b 0 10
  let reply := fun (v : Nat) => onCur fun t => answer t 17 o.serial 2 (toVec v)
  match o.code with
  | 8 =>
    let p := hallocPlan s o
    match p.2.2 with
    | none => reply (p.1 + p.2.1 * 65536) s
    | some e =>
      let s := putEntry p.1 (some e) s
      let s := if e.tracked then putHstate s e { st := 0, count := 0 } else s
      onCur (fun t => { t with zero := t.zero ++ [{ h := p.1, entry := e, left := List.range (e.size / 64), serial := o.serial, fresh := true }] }) s
  | 9 =>
    match tfind s.cur.table h with
    | none => refuseFree o s
    | some e =>
      let st := (hstateOf s e).st
      if (e.tracked && (st == 1 || st == 3)) || (s.cur.streams.any fun x => x.2.h == h) || copyNames s.cur h then refuseFree o s
      else putEntry h none s
  | 10 => reply (hstateValue s h) s
  | 11 =>
    if bit o.b 19 then
      match storageOf s (handleLevel h) o.c (shapeSize o.a) with
      | none => s
      | some q =>
        let e := mkEntry (handleLevel h) q.1 q.2 o.a (bit o.b 16)
        let s := putEntry h (some e) s
        if e.tracked then putHstate s e { st := fld o.b 17 2, count := 0 } else s
    else putEntry h none s
  | _ =>
    reply (match tfind s.cur.table h with
      | none => 0
      | some e => match fld o.b 20 2 with | 0 => shapeWord e | 1 => e.size | _ => hstateValue s h) s

/-- The pending tt operations of the focused tile take effect in trigger order as far as they may. -/
def serveTt : Nat → State → State
  | 0, s => s
  | n + 1, s =>
    match s.cur.tt with
    | [] => s
    | o :: os => if ttReady s.cur o then serveTt n (ttEffect o (onCur (fun t => { t with tt := os }) s)) else s

/-! ## Triggers -/

/-- The reserved values of a tt operation (R355-R357). -/
def ttIllegal (s : State) (code : Nat) (a c b : Word) : Bool :=
  match code with
  | 8 => shapeIllegal a || (bit b 15 && fld b 11 2 == 3)
  | 11 => shapeIllegal a || decide (fld c 48 16 ≠ 0) || (storageOf s (handleLevel (fld b 0 10)) c (shapeSize a)).isNone
  | 12 => fld b 20 2 == 3
  | _ => false

/-- A tt operation joins the queue and takes effect when it may (R355). -/
def fireTable (code : Nat) (ports : List Nat) (result : Bool) : Fire := fun slot held b s =>
  if code = 11 ∧ !isSystem s.cur then .fault (mkFault 2 17 code slot 0)
  else
    (takeOperands s.cur 17 code slot held ports).bind fun q =>
      let a := vecWord (opAt q.1 0)
      let c := vecWord (opAt q.1 1)
      let w := vecWord b
      if ttIllegal s code a c w then .fault (mkFault 1 17 code slot 0)
      else
        (accepts s.cur 17 code (if result then [0] else [])).bind fun _ =>
          let (k, t) := bumpSerial q.2
          let t := { t with tt := t.tt ++ [{ code := code, a := a, c := c, b := w, serial := k, slot := slot }] }
          let t := if result then awaitResult t 17 k else t
          .ok (serveTt t.tt.length { s with cur := t })

/-- halloc (R357). -/
def fireTtHalloc : Fire := fireTable 8 [0] true
/-- TT_HALLOC (R357). -/
def execTtHalloc (g : Guard) (x : Src) (s : State) : Host.Outcome State Fault Refusal :=
  runMove (.ttHalloc g x) g x fireTtHalloc s

/-- hfree (R357). -/
def fireTtHfree : Fire := fireTable 9 [] false
/-- TT_HFREE (R357). -/
def execTtHfree (g : Guard) (x : Src) (s : State) : Host.Outcome State Fault Refusal :=
  runMove (.ttHfree g x) g x fireTtHfree s

/-- hstate (R357). -/
def fireTtHstate : Fire := fireTable 10 [] true
/-- TT_HSTATE (R357). -/
def execTtHstate (g : Guard) (x : Src) (s : State) : Host.Outcome State Fault Refusal :=
  runMove (.ttHstate g x) g x fireTtHstate s

/-- hset (R357). -/
def fireTtHset : Fire := fireTable 11 [0, 1] false
/-- TT_HSET (R357). -/
def execTtHset (g : Guard) (x : Src) (s : State) : Host.Outcome State Fault Refusal :=
  runMove (.ttHset g x) g x fireTtHset s

/-- hinfo (R357). -/
def fireTtHinfo : Fire := fireTable 12 [] true
/-- TT_HINFO (R357). -/
def execTtHinfo (g : Guard) (x : Src) (s : State) : Host.Outcome State Fault Refusal :=
  runMove (.ttHinfo g x) g x fireTtHinfo s

/-! ## The end of a zeroing -/

/-- HALLOC_ZEROING_DONE (R355): the storage still to be zeroed is, and the results are due 2 cycles later. -/
def execHallocZeroingDone (t : TileId) (s : State) : Host.Outcome State Fault Refusal :=
  event (onTile t (fun s =>
    zeroDone (s.cur.zero.foldl (fun s z =>
      onCur (fun t => { t with zero := t.zero.map fun y => if y.serial = z.serial then { y with left := [] } else y }) (zeroRows z z.left s)) s)) s)

end Sys2Proof.Machine
end

