-- ==== Sys2Proof/Machine/Nodes.lean ====
section
/-!
DEFINITION. Machine/Nodes.lean: a node off its tiles and back in its package queue (R280, R285, R88), its mains detached and retired
(R349, R350), and what follows a mismatch of a checked pair (R311).
-/
namespace Sys2Proof.Machine

/-- The focused tile without a node: its handles give their storage back; the clock, the counters and the bytes of the well stay. What
stands in the other registers then is put into the reset state before another node starts (R88). -/
def detachTile (s : State) : State :=
  let s := s.cur.table.foldl (fun s e => dropRef e.2 s) s
  onCur (fun t =>
    { Tile.reset t.id with wheel := t.wheel, well := t.well, wellPoison := t.wellPoison, serial := t.serial,
                           prevCtx := match t.place.node with | some r => some r.ctx | none => t.prevCtx,
                           perf := { t.perf with hang := 0, quietGap := 0, powerStall := 0 } }) s

/-- A node leaves its tiles; its multicast packets still in the routers are gone. -/
def leaveTiles (n : Node) (s : State) : State :=
  let s := (nodeTiles n).foldl (fun s i => onTile i detachTile s) s
  let s := { s with dev := { s.dev with vc2 := s.dev.vc2.filter fun v => decide (v.src ∉ nodeTiles n) } }
  putNode { n with parts := [] } s

/-! ## Mains leave the home (R349, R350) -/

/-- A main by its bind serial. -/
def mainOf (s : State) (id : Nat) : Option Main := s.dev.mains.find? fun m => m.id == id
/-- A change of the list of mains. -/
def onMains (f : List Main → List Main) (s : State) : State := { s with dev := { s.dev with mains := f s.dev.mains } }
/-- A main written back. -/
def putMain (m : Main) (s : State) : State := onMains (fun ms => ms.map fun x => if x.id = m.id then m else x) s

/-- The owner of a main: its own context while bound, else that of the oldest main attached to it (R350). -/
def ownerOf (s : State) : Nat → Main → Nat
  | 0, m => m.owner
  | fuel + 1, m => if m.bound then m.ctx else match attachedTo s m with | b :: _ => ownerOf s fuel b | [] => m.owner

/-- Ownership passed where its holder is gone. -/
def passOwners (s : State) : State := onMains (fun ms => ms.map fun m => { m with owner := ownerOf s s.dev.mains.length m }) s

/-- The permits of a main's pumps and its tiles' grants dropped when its pumps stop. -/
def stopPumps (m : Main) (s : State) : State :=
  match nodeOf s m.node with
  | none => s
  | some n =>
    let cs := nodeClusters n
    { s with dev := { s.dev with
      permits := s.dev.permits.filter fun e => !(decide (e.1 % 16 = m.slot) && decide (e.1 / 64 ∈ cs)),
      granted := s.dev.granted.filter fun e => !(e.1 % 16 == m.slot && decide (e.1 / 16 ∈ (nodeTiles n).map tileIndex)) } }

/-- A main that runs nothing any more: unbound, nothing attached to it, its pumps done with every tile they have read (R350, R403). -/
def retires (s : State) (m : Main) : Bool := !m.bound && (attachedTo s m).isEmpty && m.pipe.isEmpty && m.rows.isEmpty

/-- A retired main gone; the rectangle of an ended node that held it for its sake frees (R350). -/
def retireMain (m : Main) (s : State) : State :=
  let s := onMains (fun ms => ms.filter fun x => x.id != m.id) (stopPumps m s)
  match nodeOf s m.node with
  | some n => if n.state = .ended ∧ n.parts ≠ [] ∧ (s.dev.mains.all fun x => decide (x.node ≠ n.ref)) then leaveTiles n s else s
  | none => s

/-- Every main that retires, the prefixes it leaves included. -/
def retireAll : Nat → State → State
  | 0, s => s
  | fuel + 1, s =>
    match s.dev.mains.find? (retires s) with
    | none => s
    | some m => retireAll fuel (retireMain m s)

/-- The home's order point for a change of the mains: prefixes retire, ownership passes. -/
def settleMains (s : State) : State := passOwners (retireAll s.dev.mains.length s)

/-- A main detached (R349): its handle is free. -/
def detachMain (m : Main) (s : State) : State := settleMains (putMain { m with bound := false } s)

/-- Every main of a node detached, as when it ends, is killed or is cut (R349). -/
def detachNode (r : NodeRef) (s : State) : State :=
  settleMains (onMains (fun ms => ms.map fun m => if m.node = r then { m with bound := false } else m) s)

/-- A node holds a main that others are attached to (R351). -/
def holdsAttached (s : State) (r : NodeRef) : Bool := s.dev.mains.any fun m => decide (m.node = r) && !(attachedTo s m).isEmpty

/-- A node whose rectangle is kept for a held prefix (R350). -/
def pinned (s : State) (r : NodeRef) : Bool := s.dev.mains.any fun m => decide (m.node = r) && !m.bound

/-! ## Names of nodes whose replay is over (R276, R350) -/

/-- Every reference to a node changed. -/
def mapRefs (f : NodeRef → NodeRef) (s : State) : State :=
  let parent := fun (p : Parent) => { p with ref := f p.ref, child := f p.child }
  let tile := fun (t : Tile) => { t with place := { t.place with node := t.place.node.map f } }
  let s := onHw (fun h => { h with completions := h.completions.map parent, nodes := h.nodes.map fun n =>
    { n with ref := f n.ref, parent := n.parent.map parent, chosen := n.chosen.map f } }) s
  { s with cur := tile s.cur, peers := s.peers.map tile, dev := { s.dev with mains := s.dev.mains.map fun m => { m with node := f m.node } } }

/-- A mark that no node of a graph carries yet. -/
def freeMark (s : State) (c g : Nat) : Nat :=
  1 + (s.dev.hw.nodes.filter fun n => n.ref.ctx == c && n.ref.graph == g).foldl (fun k n => max k (n.ref.replay / 16)) 0

/-- What is left of an earlier replay of a number marked apart, so that a new replay may take the number (R276). -/
def retag (c g num : Nat) (s : State) : State :=
  let k := freeMark s c g
  mapRefs (fun r => if r.ctx = c ∧ r.graph = g ∧ r.replay = num then { r with replay := num + 16 * k } else r) s

/-- The held prefixes of a node that leaves its rectangle stay there with it, under a name of their own (R350): their tiles run on, the other
tiles stop. -/
def keepPrefix (n : Node) (s : State) : State :=
  let r := { n.ref with replay := n.ref.replay % 16 + 16 * freeMark s n.ref.ctx n.ref.graph }
  let held : Node := { n with ref := r, state := .ended, stopping := none, target := none, saving := none, sweep := none, images := [],
                              resume := false, parent := none, est := [] }
  let s := onHw (fun h => { h with nodes := h.nodes ++ [held] }) (onMains (fun ms => ms.map fun m => if m.node = n.ref then { m with node := r } else m) s)
  let s := onNodeTiles n (fun t => { t with place := { t.place with node := some r } }) s
  let s := (nodeTiles n).foldl (fun s i => onTile i (fun s =>
    onCur (fun t => if (heldPrefix s t).isNone then stopTile .stopped t else if t.run = .cut then { t with run := .go } else t) s) s) s
  putNode { n with parts := [] } s

/-! ## Back in the queue -/

/-- A node enters its package queue: the ready order numbers it, its queue rounds start at 0 (R280, R282). -/
def makeReady (n : Node) (resume : Bool) (s : State) : State :=
  let k := s.dev.hw.order
  let s := onHw (fun h => { h with order := k + 1 }) s
  putNode { n with state := .ready, seq := k, rounds := 0, resume := resume, stopping := none, target := none, saving := none,
                   sweep := none, chosen := none } s

/-- A node has a sealed image. -/
def hasImage (n : Node) : Bool := n.images.any fun i => i.state == 1

/-- A node leaves its rectangle: its mains detach, and the prefixes among them that others are attached to stay (R349, R350). -/
def vacate (n : Node) (s : State) : State :=
  let s := detachNode n.ref s
  let s := onMains (fun ms => ms.filter fun m => decide (m.node ≠ n.ref) || !(attachedTo s m).isEmpty) s
  if pinned s n.ref then keepPrefix n s else leaveTiles n s

/-- A node off its tiles and back in its queue: from its last sealed image, or from its start. Its mains detach (R349). -/
def requeueNode (r : NodeRef) (resume : Bool) (s : State) : State :=
  match nodeOf s r with
  | none => s
  | some n =>
    let s := vacate n s
    match nodeOf s r with
    | none => s
    | some n => makeReady n (resume && hasImage n) s

/-- The node's properties (R272): checkpointable, restartable, phase-restartable, checked. -/
def NodeDecl.has (d : NodeDecl) (i : Nat) : Bool := bitsOf d.flags i 1 == 1

/-- A mismatch of the focused tile with its partner (R311): both trap with cause 24, a type 4 record is written, and the node is
requeued from its last sealed image or from its start, or faulted. -/
def mismatch (s : State) : State :=
  let f := mkFault 24 0 0 0 0
  let trap := onCur fun t => dropChecked (stopTile .stopped (enterSystem f (if isSystem t then fld t.csr.epc 0 13 else t.pc.toNat) false t))
  let s := onTile (partnerOf s.cur.id) trap (trap s)
  match curNode s with
  | none => s
  | some n =>
    let t := s.cur
    let record := fun (flags : Nat) => eventRecord n.ref.ctx
      (faultRecord 4 24 flags (entryWord n.ref) (queueByte n) t.place.part (relRow t % 16 * 16 + relCol t % 16) t.csr.cause.toNat
        t.csr.epc.toNat 0 (tscOf s).toNat 0)
    if n.decl.has 0 then requeueNode n.ref true (record 2 s)
    else if n.decl.has 1 then requeueNode n.ref false (record 2 s)
    else faultNode n 24 0 (record 1) s

/-- A tile of a checked pair that has faulted and waits to see whether its partner does (R311). -/
def heldFault (s : State) (t : Tile) : Bool :=
  bit t.csr.status 7 && t.run == .stopped && !t.ctl.late.isEmpty &&
    match t.place.node.bind (nodeOf s) with
    | some n => n.state != .faulted
    | none => false

/-- The held fault of the focused tile follows its disposition with the partner's: each asks its owner where neither faults the node, which
is faulted with a record for each tile otherwise (R306-R309). -/
def followFaults (f g : FaultInfo) (p : TileId) (s : State) : State :=
  let clear := onCur fun t => { t with ctl := { t.ctl with late := [] } }
  let asks := fun (f : FaultInfo) => !f.late && (f.cause == 20 || f.cause == 21)
  let s := onTile p clear (clear s)
  if asks f && asks g then onTile p (askOwner g) (askOwner f s)
  else
    let s := faultCurNode f.cause f.addr s
    match curNode s with
    | some n => onTile p (fun s => eventRecord (recordCtx s s.cur n) (tileRecord n s.cur g.cause 1 g.addr (tscOf s).toNat) s) s
    | none => s

/-- What a held fault of the focused tile comes to: with its partner faulted too both follow their dispositions, else it is a mismatch
(R311). -/
def settleHeld (s : State) : State :=
  if !heldFault s s.cur then s
  else
    let p := partnerOf s.cur.id
    match heldFault s (tileAt s p), s.cur.ctl.late, (tileAt s p).ctl.late with
    | true, f :: _, g :: _ => followFaults f g p s
    | _, _, _ => mismatch (onCur (fun t => { t with ctl := { t.ctl with late := [] } }) s)

end Sys2Proof.Machine
end

