-- ==== Sys2Proof/Machine/Quantiser.lean ====
section
/-!
DEFINITION. Machine/Quantiser.lean: the operations of the quantiser socket qnt and its cycle (R200-R206).
-/
namespace Sys2Proof.Machine

/-- The fault a qnt trigger raises, if any (R202, R203, R205). -/
def qntCheck (t : Tile) (o : QntOp) : Option Nat :=
  let q := plannedQuant t.qnt
  match o.code with
  | 8 =>
    let n := fld o.a 0 7
    if !q.configured then some 13 else if n = 0 ∨ 1024 / floatBits o.vf < n then some 1 else none
  | 10 =>
    let m := fld o.a 0 5
    if m = 0 ∨ 16 < m then some 1 else if 16 < q.ranges.length + m then some 13 else none
  | 11 =>
    let f := [fld o.b 12 4, fld o.b 16 4, fld o.b 20 4]
    if !decide f.Nodup then some 1 else if q.isOpen then some 13 else if f.any fun x => !unitStream t true x then some 13 else none
  | _ => none

/-- A trigger of qnt: its checks, a place in the queue of 4, the places of the results of a qflush (R200, R206). -/
def qntTake (code slot : Nat) (a b : Vec) (t : Tile) : Res Tile :=
  let o : QntOp := { code := code, a := vecWord a, b := b, vf := fmtOf t 0, slot := slot, serial := t.serial }
  match qntCheck t o with
  | some c => .fault (mkFault c 9 code slot 0)
  | none =>
    if 4 ≤ t.qnt.queue.length then .freeze
    else
      (accepts t 9 code (if code = 9 then [0, 1, 2] else [])).bind fun _ =>
        let t := { t with qnt := { t.qnt with queue := t.qnt.queue ++ [o] } }
        if code = 9 then
          let (k, t) := bumpSerial t
          .ok (awaitOn (awaitOn (awaitOn t 9 0 k) 9 1 k) 9 2 k)
        else .ok t

/-- A fault of the running quantiser (R198): late; the later operations are discarded with their results. -/
def qntFail (cause detail : Nat) (t : Tile) : Tile :=
  let q := t.qnt
  let gone := (q.flush.map QFlush.serial).toList ++ (q.queue.map QntOp.serial)
  let t := gone.foldl (fun t k => dropOn (dropOn (dropOn t 9 0 k) 9 1 k) 9 2 k) t
  addLate { t with qnt := { q with units := [], flush := none, queue := [] } } (mkFault cause 9 q.last.1 q.last.2 detail)

/-- Write the oldest waiting unit to its stream, if the stream has room (R181, R206). -/
def writeUnit (t : Tile) : Tile :=
  match t.qnt.units with
  | [] => t
  | (f, v) :: rest =>
    match tfind t.streams f with
    | none => qntFail 13 0 t
    | some st =>
      if !st.write || st.esz ≠ 6 then qntFail 13 0 t
      else if walkLen st ≤ st.moved then t
      else if !elemOk t st st.moved then qntFail 18 f t
      else if st.stopped then
        { t with qnt := { t.qnt with units := rest }, streams := tput t.streams f { st with moved := st.moved + 1 } }
      else if 8 ≤ st.buf.length then t
      else
        { t with qnt := { t.qnt with units := rest },
                 streams := tput t.streams f { st with buf := st.buf ++ [(v, 0)], moved := st.moved + 1 } }

/-- The three results of a qflush arrive (R206). -/
def flushDone (t : Tile) (f : QFlush) : Tile :=
  answerOn (answerOn (answerOn { t with qnt := { t.qnt with flush := none } } 9 0 f.serial 0 (toVec (f.elems % 2 ^ 64))) 9 1 f.serial 0
    (toVec (f.blocks % 2 ^ 64))) 9 2 f.serial 0 (toVec (f.sat % 2 ^ 64))

/-- One cycle of qnt (R197, R200): a unit goes to its stream; then a flush counts down; else the next operation starts. -/
def tickQnt (t : Tile) : Tile :=
  if !t.qnt.busy then t
  else
    let t := writeUnit t
    if t.qnt.units ≠ [] then t
    else
      match t.qnt.flush with
      | some f => if f.rem ≤ 1 then flushDone t f else { t with qnt := { t.qnt with flush := some { f with rem := f.rem - 1 } } }
      | none =>
        match t.qnt.queue with
        | o :: rest => { t with qnt := qntEffect { t.qnt with queue := rest } o }
        | [] => t

/-- qnt (R203). -/
def fireQntQnt : Fire := fun slot held b s =>
  (takeOperands s.cur 9 8 slot held [0]).bind fun q => (qntTake 8 slot (opAt q.1 0) b q.2).bind fun t => .ok { s with cur := t }
/-- QNT_QNT (R203). -/
def execQntQnt (g : Guard) (x : Src) (s : State) : Host.Outcome State Fault Refusal :=
  runMove (.qntQnt g x) g x fireQntQnt s

/-- qflush (R206). -/
def fireQntQflush : Fire := fun slot _ b s => (qntTake 9 slot 0 b s.cur).bind fun t => .ok { s with cur := t }
/-- QNT_QFLUSH (R206). -/
def execQntQflush (g : Guard) (x : Src) (s : State) : Host.Outcome State Fault Refusal :=
  runMove (.qntQflush g x) g x fireQntQflush s

/-- qrange (R205). -/
def fireQntQrange : Fire := fun slot held b s =>
  (takeOperands s.cur 9 10 slot held [0]).bind fun q => (qntTake 10 slot (opAt q.1 0) b q.2).bind fun t => .ok { s with cur := t }
/-- QNT_QRANGE (R205). -/
def execQntQrange (g : Guard) (x : Src) (s : State) : Host.Outcome State Fault Refusal :=
  runMove (.qntQrange g x) g x fireQntQrange s

/-- qthr (R202). -/
def fireQntQthr : Fire := fun slot _ b s => (qntTake 11 slot 0 b s.cur).bind fun t => .ok { s with cur := t }
/-- QNT_QTHR (R202). -/
def execQntQthr (g : Guard) (x : Src) (s : State) : Host.Outcome State Fault Refusal :=
  runMove (.qntQthr g x) g x fireQntQthr s

end Sys2Proof.Machine
end

