-- ==== Sys2Proof/Machine/Scalar.lean ====
section
/-!
DEFINITION. Machine/Scalar.lean: the operations of ia0, ia1 and imd (R101-R103).
-/
namespace Sys2Proof.Machine

/-- Shift amounts and bit positions are bits 5:0 (R101). -/
def low6 (b : Word) : Nat := b.toNat % 64
/-- A comparison's 64-bit value (R101). -/
def wordBool (b : Bool) : Word := if b then 1 else 0

/-- sext: bits p:0, sign-extended from bit p (R102). -/
def sextAt (a : Word) (p : Nat) : Word := BitVec.ofInt 64 (sintOf (p + 1) a.toNat)
/-- zext: bits p:0 (R102). -/
def zextAt (a : Word) (p : Nat) : Word := BitVec.ofNat 64 (a.toNat % 2 ^ (p + 1))
/-- Leading zeros of 64 bits (R102). -/
def clz64 (b : Word) : Nat := 64 - bitLen b.toNat
/-- Length of the field of bext and bins (R102). -/
def fieldLen (b : Word) : Nat := min (fld b 8 7) 64
/-- bext (R102). -/
def bextOf (a b : Word) : Word := BitVec.ofNat 64 ((a.toNat >>> low6 b) % 2 ^ fieldLen b)
/-- bins (R102). -/
def binsOf (a c b : Word) : Word :=
  let m : Word := BitVec.ofNat 64 ((2 ^ fieldLen b - 1) <<< low6 b)
  (a &&& ~~~m) ||| ((c <<< low6 b) &&& m)

/-- An ia operation: which ports it reads and its value from (a, c, b); an operand is read at 64 bits (R101). -/
def fireIa (n : Bool) (code lat : Nat) (ports : List Nat) (f : List Word → Word → Word) : Fire :=
  firePure (if n then 2 else 1) code lat ports fun _ ops b => wordVec (f (ops.map vecWord) (vecWord b))

/-- Operand i of an operand list of words. -/
def wordAt (ops : List Word) (i : Nat) : Word := (ops[i]?).getD 0

/-- add (R102). -/
def fireIaAdd (n : Bool) : Fire := fireIa n 8 1 [0] fun ops b => (wordAt ops 0) + b
/-- IA_ADD (R102). -/
def execIaAdd (g : Guard) (x : Src) (n : Bool) (s : State) : Host.Outcome State Fault Refusal :=
  runMove (.iaAdd g x n) g x (fireIaAdd n) s

/-- sub (R102). -/
def fireIaSub (n : Bool) : Fire := fireIa n 9 1 [0] fun ops b => (wordAt ops 0) - b
/-- IA_SUB (R102). -/
def execIaSub (g : Guard) (x : Src) (n : Bool) (s : State) : Host.Outcome State Fault Refusal :=
  runMove (.iaSub g x n) g x (fireIaSub n) s

/-- and (R102). -/
def fireIaAnd (n : Bool) : Fire := fireIa n 10 1 [0] fun ops b => (wordAt ops 0) &&& b
/-- IA_AND (R102). -/
def execIaAnd (g : Guard) (x : Src) (n : Bool) (s : State) : Host.Outcome State Fault Refusal :=
  runMove (.iaAnd g x n) g x (fireIaAnd n) s

/-- or (R102). -/
def fireIaOr (n : Bool) : Fire := fireIa n 11 1 [0] fun ops b => (wordAt ops 0) ||| b
/-- IA_OR (R102). -/
def execIaOr (g : Guard) (x : Src) (n : Bool) (s : State) : Host.Outcome State Fault Refusal :=
  runMove (.iaOr g x n) g x (fireIaOr n) s

/-- xor (R102). -/
def fireIaXor (n : Bool) : Fire := fireIa n 12 1 [0] fun ops b => (wordAt ops 0) ^^^ b
/-- IA_XOR (R102). -/
def execIaXor (g : Guard) (x : Src) (n : Bool) (s : State) : Host.Outcome State Fault Refusal :=
  runMove (.iaXor g x n) g x (fireIaXor n) s

/-- andn (R102). -/
def fireIaAndn (n : Bool) : Fire := fireIa n 13 1 [0] fun ops b => (wordAt ops 0) &&& ~~~b
/-- IA_ANDN (R102). -/
def execIaAndn (g : Guard) (x : Src) (n : Bool) (s : State) : Host.Outcome State Fault Refusal :=
  runMove (.iaAndn g x n) g x (fireIaAndn n) s

/-- shl (R102). -/
def fireIaShl (n : Bool) : Fire := fireIa n 14 1 [0] fun ops b => (wordAt ops 0) <<< low6 b
/-- IA_SHL (R102). -/
def execIaShl (g : Guard) (x : Src) (n : Bool) (s : State) : Host.Outcome State Fault Refusal :=
  runMove (.iaShl g x n) g x (fireIaShl n) s

/-- shr (R102). -/
def fireIaShr (n : Bool) : Fire := fireIa n 15 1 [0] fun ops b => (wordAt ops 0) >>> low6 b
/-- IA_SHR (R102). -/
def execIaShr (g : Guard) (x : Src) (n : Bool) (s : State) : Host.Outcome State Fault Refusal :=
  runMove (.iaShr g x n) g x (fireIaShr n) s

/-- sra (R102). -/
def fireIaSra (n : Bool) : Fire := fireIa n 16 1 [0] fun ops b => (wordAt ops 0).sshiftRight (low6 b)
/-- IA_SRA (R102). -/
def execIaSra (g : Guard) (x : Src) (n : Bool) (s : State) : Host.Outcome State Fault Refusal :=
  runMove (.iaSra g x n) g x (fireIaSra n) s

/-- min (R102). -/
def fireIaMin (n : Bool) : Fire := fireIa n 17 1 [0] fun ops b => if (wordAt ops 0).slt b then (wordAt ops 0) else b
/-- IA_MIN (R102). -/
def execIaMin (g : Guard) (x : Src) (n : Bool) (s : State) : Host.Outcome State Fault Refusal :=
  runMove (.iaMin g x n) g x (fireIaMin n) s

/-- max (R102). -/
def fireIaMax (n : Bool) : Fire := fireIa n 18 1 [0] fun ops b => if (wordAt ops 0).slt b then b else (wordAt ops 0)
/-- IA_MAX (R102). -/
def execIaMax (g : Guard) (x : Src) (n : Bool) (s : State) : Host.Outcome State Fault Refusal :=
  runMove (.iaMax g x n) g x (fireIaMax n) s

/-- minu (R102). -/
def fireIaMinu (n : Bool) : Fire := fireIa n 19 1 [0] fun ops b => if (wordAt ops 0).ult b then (wordAt ops 0) else b
/-- IA_MINU (R102). -/
def execIaMinu (g : Guard) (x : Src) (n : Bool) (s : State) : Host.Outcome State Fault Refusal :=
  runMove (.iaMinu g x n) g x (fireIaMinu n) s

/-- maxu (R102). -/
def fireIaMaxu (n : Bool) : Fire := fireIa n 20 1 [0] fun ops b => if (wordAt ops 0).ult b then b else (wordAt ops 0)
/-- IA_MAXU (R102). -/
def execIaMaxu (g : Guard) (x : Src) (n : Bool) (s : State) : Host.Outcome State Fault Refusal :=
  runMove (.iaMaxu g x n) g x (fireIaMaxu n) s

/-- ceq (R102). -/
def fireIaCeq (n : Bool) : Fire := fireIa n 21 1 [0] fun ops b => wordBool ((wordAt ops 0) == b)
/-- IA_CEQ (R102). -/
def execIaCeq (g : Guard) (x : Src) (n : Bool) (s : State) : Host.Outcome State Fault Refusal :=
  runMove (.iaCeq g x n) g x (fireIaCeq n) s

/-- cne (R102). -/
def fireIaCne (n : Bool) : Fire := fireIa n 22 1 [0] fun ops b => wordBool ((wordAt ops 0) != b)
/-- IA_CNE (R102). -/
def execIaCne (g : Guard) (x : Src) (n : Bool) (s : State) : Host.Outcome State Fault Refusal :=
  runMove (.iaCne g x n) g x (fireIaCne n) s

/-- clt (R102). -/
def fireIaClt (n : Bool) : Fire := fireIa n 23 1 [0] fun ops b => wordBool ((wordAt ops 0).slt b)
/-- IA_CLT (R102). -/
def execIaClt (g : Guard) (x : Src) (n : Bool) (s : State) : Host.Outcome State Fault Refusal :=
  runMove (.iaClt g x n) g x (fireIaClt n) s

/-- cltu (R102). -/
def fireIaCltu (n : Bool) : Fire := fireIa n 24 1 [0] fun ops b => wordBool ((wordAt ops 0).ult b)
/-- IA_CLTU (R102). -/
def execIaCltu (g : Guard) (x : Src) (n : Bool) (s : State) : Host.Outcome State Fault Refusal :=
  runMove (.iaCltu g x n) g x (fireIaCltu n) s

/-- cle (R102). -/
def fireIaCle (n : Bool) : Fire := fireIa n 25 1 [0] fun ops b => wordBool ((wordAt ops 0).sle b)
/-- IA_CLE (R102). -/
def execIaCle (g : Guard) (x : Src) (n : Bool) (s : State) : Host.Outcome State Fault Refusal :=
  runMove (.iaCle g x n) g x (fireIaCle n) s

/-- cleu (R102). -/
def fireIaCleu (n : Bool) : Fire := fireIa n 26 1 [0] fun ops b => wordBool ((wordAt ops 0).ule b)
/-- IA_CLEU (R102). -/
def execIaCleu (g : Guard) (x : Src) (n : Bool) (s : State) : Host.Outcome State Fault Refusal :=
  runMove (.iaCleu g x n) g x (fireIaCleu n) s

/-- sel (R102). -/
def fireIaSel (n : Bool) : Fire := fireIa n 27 1 [0, 1] fun ops b => if b = 0 then (wordAt ops 1) else (wordAt ops 0)
/-- IA_SEL (R102). -/
def execIaSel (g : Guard) (x : Src) (n : Bool) (s : State) : Host.Outcome State Fault Refusal :=
  runMove (.iaSel g x n) g x (fireIaSel n) s

/-- pass (R102). -/
def fireIaPass (n : Bool) : Fire := fireIa n 28 1 [] fun _ b => b
/-- IA_PASS (R102). -/
def execIaPass (g : Guard) (x : Src) (n : Bool) (s : State) : Host.Outcome State Fault Refusal :=
  runMove (.iaPass g x n) g x (fireIaPass n) s

/-- sext (R102). -/
def fireIaSext (n : Bool) : Fire := fireIa n 29 1 [0] fun ops b => sextAt (wordAt ops 0) (low6 b)
/-- IA_SEXT (R102). -/
def execIaSext (g : Guard) (x : Src) (n : Bool) (s : State) : Host.Outcome State Fault Refusal :=
  runMove (.iaSext g x n) g x (fireIaSext n) s

/-- zext (R102). -/
def fireIaZext (n : Bool) : Fire := fireIa n 30 1 [0] fun ops b => zextAt (wordAt ops 0) (low6 b)
/-- IA_ZEXT (R102). -/
def execIaZext (g : Guard) (x : Src) (n : Bool) (s : State) : Host.Outcome State Fault Refusal :=
  runMove (.iaZext g x n) g x (fireIaZext n) s

/-- clz (R102). -/
def fireIaClz (n : Bool) : Fire := fireIa n 31 2 [] fun _ b => BitVec.ofNat 64 (clz64 b)
/-- IA_CLZ (R102). -/
def execIaClz (g : Guard) (x : Src) (n : Bool) (s : State) : Host.Outcome State Fault Refusal :=
  runMove (.iaClz g x n) g x (fireIaClz n) s

/-- popc (R102). -/
def fireIaPopc (n : Bool) : Fire := fireIa n 32 2 [] fun _ b => BitVec.ofNat 64 (popCount 64 b.toNat)
/-- IA_POPC (R102). -/
def execIaPopc (g : Guard) (x : Src) (n : Bool) (s : State) : Host.Outcome State Fault Refusal :=
  runMove (.iaPopc g x n) g x (fireIaPopc n) s

/-- addsc (R102). -/
def fireIaAddsc (n : Bool) : Fire := fireIa n 33 1 [0, 1] fun ops b => (wordAt ops 0) + (b <<< ((wordAt ops 1).toNat % 4))
/-- IA_ADDSC (R102). -/
def execIaAddsc (g : Guard) (x : Src) (n : Bool) (s : State) : Host.Outcome State Fault Refusal :=
  runMove (.iaAddsc g x n) g x (fireIaAddsc n) s

/-- bext (R102). -/
def fireIaBext (n : Bool) : Fire := fireIa n 34 1 [0] fun ops b => bextOf (wordAt ops 0) b
/-- IA_BEXT (R102). -/
def execIaBext (g : Guard) (x : Src) (n : Bool) (s : State) : Host.Outcome State Fault Refusal :=
  runMove (.iaBext g x n) g x (fireIaBext n) s

/-- bins (R102). -/
def fireIaBins (n : Bool) : Fire := fireIa n 35 1 [0, 1] fun ops b => binsOf (wordAt ops 0) (wordAt ops 1) b
/-- IA_BINS (R102). -/
def execIaBins (g : Guard) (x : Src) (n : Bool) (s : State) : Host.Outcome State Fault Refusal :=
  runMove (.iaBins g x n) g x (fireIaBins n) s

/-- An imd multiplication: latency 4 (R45, R103). -/
def fireImd (code : Nat) (f : Word → Word → Word) : Fire :=
  firePure 3 code 4 [0] fun _ ops b => wordVec (f (vecWord (opAt ops 0)) (vecWord b))

/-- Signed quotient and remainder, toward zero, with the cases of b = 0 (R103). -/
def sdiv64 (a b : Word) : Int × Int :=
  if b = 0 then (-1, a.toInt) else (a.toInt.tdiv b.toInt, a.toInt.tmod b.toInt)
/-- Unsigned quotient and remainder (R103). -/
def udiv64 (a b : Word) : Nat × Nat := if b = 0 then (2 ^ 64 - 1, a.toNat) else (a.toNat / b.toNat, a.toNat % b.toNat)

/-- The latency of a division whose quotient has this magnitude (R103). -/
def divLatency (b : Word) (q : Nat) : Nat := 8 + if b = 0 then 0 else (bitLen q + 1) / 2

/-- A divide form: quotient magnitude for the latency, and the value. -/
def fireDiv (code : Nat) (f : Word → Word → Nat × Word) : Fire :=
  fireVariable 3 code [0] [0] fun _ _ ops b =>
    let r := f (vecWord (opAt ops 0)) (vecWord b)
    .ok (divLatency (vecWord b) r.1, [(0, wordVec r.2, none)])

/-- mul (R103). -/
def fireImdMul : Fire := fireImd 8 fun a b => a * b
/-- IMD_MUL (R103). -/
def execImdMul (g : Guard) (x : Src) (s : State) : Host.Outcome State Fault Refusal :=
  runMove (.imdMul g x) g x fireImdMul s

/-- mulh (R103). -/
def fireImdMulh : Fire := fireImd 9 fun a b => BitVec.ofInt 64 (a.toInt * b.toInt / 2 ^ 64)
/-- IMD_MULH (R103). -/
def execImdMulh (g : Guard) (x : Src) (s : State) : Host.Outcome State Fault Refusal :=
  runMove (.imdMulh g x) g x fireImdMulh s

/-- mulhu (R103). -/
def fireImdMulhu : Fire := fireImd 10 fun a b => BitVec.ofNat 64 (a.toNat * b.toNat / 2 ^ 64)
/-- IMD_MULHU (R103). -/
def execImdMulhu (g : Guard) (x : Src) (s : State) : Host.Outcome State Fault Refusal :=
  runMove (.imdMulhu g x) g x fireImdMulhu s

/-- div (R103). -/
def fireImdDiv : Fire := fireDiv 11 fun a b => ((sdiv64 a b).1.natAbs, BitVec.ofInt 64 (sdiv64 a b).1)
/-- IMD_DIV (R103). -/
def execImdDiv (g : Guard) (x : Src) (s : State) : Host.Outcome State Fault Refusal :=
  runMove (.imdDiv g x) g x fireImdDiv s

/-- divu (R103). -/
def fireImdDivu : Fire := fireDiv 12 fun a b => ((udiv64 a b).1, BitVec.ofNat 64 (udiv64 a b).1)
/-- IMD_DIVU (R103). -/
def execImdDivu (g : Guard) (x : Src) (s : State) : Host.Outcome State Fault Refusal :=
  runMove (.imdDivu g x) g x fireImdDivu s

/-- rem (R103). -/
def fireImdRem : Fire := fireDiv 13 fun a b => ((sdiv64 a b).1.natAbs, BitVec.ofInt 64 (sdiv64 a b).2)
/-- IMD_REM (R103). -/
def execImdRem (g : Guard) (x : Src) (s : State) : Host.Outcome State Fault Refusal :=
  runMove (.imdRem g x) g x fireImdRem s

/-- remu (R103). -/
def fireImdRemu : Fire := fireDiv 14 fun a b => ((udiv64 a b).1, BitVec.ofNat 64 (udiv64 a b).2)
/-- IMD_REMU (R103). -/
def execImdRemu (g : Guard) (x : Src) (s : State) : Host.Outcome State Fault Refusal :=
  runMove (.imdRemu g x) g x fireImdRemu s

end Sys2Proof.Machine
end

