-- ==== Sys2Proof/Machine/Special.lean ====
section
/-!
DEFINITION. Machine/Special.lean: the special functions of sfu (R154).
-/
namespace Sys2Proof.Machine

/-- A nonzero finite operand as sign, mantissa and exponent; the special points are given by pattern (R154). -/
def sfuLane (code f : Nat) (special : Num → Option Nat) (work : Bool → Nat → Int → Bool × Option Nat) (n : Nat) : Nat :=
  match special (decodeFloat f n) with
  | some v => v
  | none =>
    match decodeFloat f n with
    | .fin neg m e =>
      match work neg m e with
      | (s, some v) => signBit f s + v
      | (_, none) => (Config.undecided code f n).toNat % 2 ^ floatBits f
    | _ => nanBits f

/-- The special points of a function: values at -inf, +inf, -0 and +0; a NaN gives the canonical NaN (R154). -/
def specials (f atNegInf atInf atNegZero atZero : Nat) : Num → Option Nat
  | .nan => some (nanBits f)
  | .inf true => some atNegInf
  | .inf false => some atInf
  | .fin neg m _ => if m = 0 then some (if neg then atNegZero else atZero) else none

/-- One. -/
def oneBits (f : Nat) : Nat := roundMag f .near 1 0 false
/-- A half. -/
def halfBits (f : Nat) : Nat := roundMag f .near 1 (-1) false
/-- Minus infinity. -/
def negInf (f : Nat) : Nat := signBit f true + infBits f

/-- A rounding of a quotient or root with its inexact mark. -/
def roundPart (f : Nat) (q : Nat × Int × Bool) : Nat := roundMag f .near q.1 q.2.1 q.2.2

/-- sin(π u) as sign and magnitude, for u in fixed point modulo 2; none for a zero. -/
def sinpiAt (u : Nat) : Option (Bool × Nat) :=
  let one := 2 ^ fixBits
  let v := u % (2 * one)
  if v % one = 0 then none else some (decide (one ≤ v), fixSinpi (v % one))

/-- An sfu operation: every lane of b in the format of FMT.vf (R131, R154). -/
def fireSfu (code : Nat) (lane1 : Nat → Nat → Nat) : Fire :=
  firePure 7 code 10 [] fun t _ b =>
    let f := fmtOf t 0
    laneMap (floatBits f) fun l => lane1 f (lane (floatBits f) l b)

/-- 2^x. -/
def sfuExp2Lane (f : Nat) : Nat → Nat := fun n =>
  sfuLane 8 f (specials f 0 (infBits f) (oneBits f) (oneBits f)) (fun neg m e => (false, some (exp2Round f .near neg m e n))) n
/-- log2 x. -/
def sfuLog2Lane (f : Nat) : Nat → Nat := fun n =>
  sfuLane 9 f (specials f (nanBits f) (infBits f) (negInf f) (negInf f))
    (fun neg m e => if neg then (false, some (nanBits f)) else let r := log2Round f (fun _ => .near) m e n; (r.1 && r.2 != 0, some r.2)) n
/-- 1/x. -/
def sfuRcpLane (f : Nat) : Nat → Nat := fun n =>
  sfuLane 10 f (specials f (signBit f true) 0 (negInf f) (infBits f))
    (fun neg m e => let q := quotient 1 m 40; (neg, some (roundPart f (q.1, q.2.1 - e, q.2.2)))) n
/-- 1/√x: the root of 2^k / m with the remainder in the inexact mark. -/
def sfuRsqrtLane (f : Nat) : Nat → Nat := fun n =>
  sfuLane 11 f (specials f (nanBits f) 0 (negInf f) (infBits f))
    (fun neg m e =>
      if neg then (false, some (nanBits f))
      else
        let m1 := if e % 2 = 0 then m else 2 * m
        let e1 := if e % 2 = 0 then e else e - 1
        let q := 2 ^ 240 / m1
        let r := isqrt q
        (false, some (roundMag f .near r (-120 - e1 / 2) (r * r * m1 != 2 ^ 240)))) n
/-- √x. -/
def sfuSqrtLane (f : Nat) : Nat → Nat := fun n =>
  sfuLane 12 f (specials f (nanBits f) (infBits f) (signBit f true) 0)
    (fun neg m e => if neg then (false, some (nanBits f)) else (false, some (roundPart f (rootOf m e 40)))) n
/-- sin(πx). -/
def sfuSinpiLane (f : Nat) : Nat → Nat := fun n =>
  sfuLane 13 f (specials f (nanBits f) (nanBits f) (signBit f true) 0)
    (fun neg m e =>
      match sinpiAt (fixOf m e) with
      | none => (neg, some 0)
      | some (s, v) => (neg != s, roundEnc f .near (encFix v fixErr))) n
/-- cos(πx). -/
def sfuCospiLane (f : Nat) : Nat → Nat := fun n =>
  sfuLane 14 f (specials f (nanBits f) (nanBits f) (oneBits f) (oneBits f))
    (fun _ m e =>
      match sinpiAt (fixOf m e + 2 ^ (fixBits - 1)) with
      | none => (false, some 0)
      | some (s, v) => (s, roundEnc f .near (encFix v fixErr))) n
/-- tanh x. -/
def sfuTanhLane (f : Nat) : Nat → Nat := fun n =>
  sfuLane 15 f (specials f (signBit f true + oneBits f) (oneBits f) (signBit f true) 0)
    (fun neg m e => (neg, roundEnc f .near (encTanh m e))) n
/-- 1 / (1 + e^-x). -/
def sfuSigmLane (f : Nat) : Nat → Nat := fun n =>
  sfuLane 16 f (specials f 0 (oneBits f) (halfBits f) (halfBits f)) (fun neg m e => (false, roundEnc f .near (encSigm neg m e))) n

/-- exp2 (R154). -/
def fireSfuExp2 : Fire := fireSfu 8 sfuExp2Lane
/-- SFU_EXP2 (R154). -/
def execSfuExp2 (g : Guard) (x : Src) (s : State) : Host.Outcome State Fault Refusal :=
  runMove (.sfuExp2 g x) g x fireSfuExp2 s

/-- log2 (R154). -/
def fireSfuLog2 : Fire := fireSfu 9 sfuLog2Lane
/-- SFU_LOG2 (R154). -/
def execSfuLog2 (g : Guard) (x : Src) (s : State) : Host.Outcome State Fault Refusal :=
  runMove (.sfuLog2 g x) g x fireSfuLog2 s

/-- rcp (R154). -/
def fireSfuRcp : Fire := fireSfu 10 sfuRcpLane
/-- SFU_RCP (R154). -/
def execSfuRcp (g : Guard) (x : Src) (s : State) : Host.Outcome State Fault Refusal :=
  runMove (.sfuRcp g x) g x fireSfuRcp s

/-- rsqrt (R154). -/
def fireSfuRsqrt : Fire := fireSfu 11 sfuRsqrtLane
/-- SFU_RSQRT (R154). -/
def execSfuRsqrt (g : Guard) (x : Src) (s : State) : Host.Outcome State Fault Refusal :=
  runMove (.sfuRsqrt g x) g x fireSfuRsqrt s

/-- sqrt (R154). -/
def fireSfuSqrt : Fire := fireSfu 12 sfuSqrtLane
/-- SFU_SQRT (R154). -/
def execSfuSqrt (g : Guard) (x : Src) (s : State) : Host.Outcome State Fault Refusal :=
  runMove (.sfuSqrt g x) g x fireSfuSqrt s

/-- sinpi (R154). -/
def fireSfuSinpi : Fire := fireSfu 13 sfuSinpiLane
/-- SFU_SINPI (R154). -/
def execSfuSinpi (g : Guard) (x : Src) (s : State) : Host.Outcome State Fault Refusal :=
  runMove (.sfuSinpi g x) g x fireSfuSinpi s

/-- cospi (R154). -/
def fireSfuCospi : Fire := fireSfu 14 sfuCospiLane
/-- SFU_COSPI (R154). -/
def execSfuCospi (g : Guard) (x : Src) (s : State) : Host.Outcome State Fault Refusal :=
  runMove (.sfuCospi g x) g x fireSfuCospi s

/-- tanh (R154). -/
def fireSfuTanh : Fire := fireSfu 15 sfuTanhLane
/-- SFU_TANH (R154). -/
def execSfuTanh (g : Guard) (x : Src) (s : State) : Host.Outcome State Fault Refusal :=
  runMove (.sfuTanh g x) g x fireSfuTanh s

/-- sigm (R154). -/
def fireSfuSigm : Fire := fireSfu 16 sfuSigmLane
/-- SFU_SIGM (R154). -/
def execSfuSigm (g : Guard) (x : Src) (s : State) : Host.Outcome State Fault Refusal :=
  runMove (.sfuSigm g x) g x fireSfuSigm s

end Sys2Proof.Machine
end

