-- ==== Sys2Proof/Machine/Bundle.lean ====
section
/-!
DEFINITION. Machine/Bundle.lean: a bundle as a whole (R42, R43, R47, R49, R50, R91, R97-R99, R24): its checks, its four phases, its
control effect, its quiet effects, and the control operations as bundles without moves.
-/
namespace Sys2Proof.Machine

/-- What the destination of a move does with the value (R38). -/
def fireOf : Instr → Option Fire
  | .moveToRegister _ _ r => some (fireRegister r)
  | .moveToStream _ _ f => some (fireStream f)
  | .moveToOperand _ _ sk o => some (fireOperand sk o)
  | .iaAdd _ _ n => some (fireIaAdd n)
  | .iaSub _ _ n => some (fireIaSub n)
  | .iaAnd _ _ n => some (fireIaAnd n)
  | .iaOr _ _ n => some (fireIaOr n)
  | .iaXor _ _ n => some (fireIaXor n)
  | .iaAndn _ _ n => some (fireIaAndn n)
  | .iaShl _ _ n => some (fireIaShl n)
  | .iaShr _ _ n => some (fireIaShr n)
  | .iaSra _ _ n => some (fireIaSra n)
  | .iaMin _ _ n => some (fireIaMin n)
  | .iaMax _ _ n => some (fireIaMax n)
  | .iaMinu _ _ n => some (fireIaMinu n)
  | .iaMaxu _ _ n => some (fireIaMaxu n)
  | .iaCeq _ _ n => some (fireIaCeq n)
  | .iaCne _ _ n => some (fireIaCne n)
  | .iaClt _ _ n => some (fireIaClt n)
  | .iaCltu _ _ n => some (fireIaCltu n)
  | .iaCle _ _ n => some (fireIaCle n)
  | .iaCleu _ _ n => some (fireIaCleu n)
  | .iaSel _ _ n => some (fireIaSel n)
  | .iaPass _ _ n => some (fireIaPass n)
  | .iaSext _ _ n => some (fireIaSext n)
  | .iaZext _ _ n => some (fireIaZext n)
  | .iaClz _ _ n => some (fireIaClz n)
  | .iaPopc _ _ n => some (fireIaPopc n)
  | .iaAddsc _ _ n => some (fireIaAddsc n)
  | .iaBext _ _ n => some (fireIaBext n)
  | .iaBins _ _ n => some (fireIaBins n)
  | .imdMul _ _ => some fireImdMul
  | .imdMulh _ _ => some fireImdMulh
  | .imdMulhu _ _ => some fireImdMulhu
  | .imdDiv _ _ => some fireImdDiv
  | .imdDivu _ _ => some fireImdDivu
  | .imdRem _ _ => some fireImdRem
  | .imdRemu _ _ => some fireImdRemu
  | .vaFadd _ _ n => some (fireVaFadd n)
  | .vaFsub _ _ n => some (fireVaFsub n)
  | .vaFmul _ _ n => some (fireVaFmul n)
  | .vaFma _ _ n => some (fireVaFma n)
  | .vaFmin _ _ n => some (fireVaFmin n)
  | .vaFmax _ _ n => some (fireVaFmax n)
  | .vaFsgn _ _ n => some (fireVaFsgn n)
  | .vaFcmp _ _ n => some (fireVaFcmp n)
  | .vaFcvt _ _ n => some (fireVaFcvt n)
  | .vaFround _ _ n => some (fireVaFround n)
  | .vaFtoi _ _ n => some (fireVaFtoi n)
  | .vaItof _ _ n => some (fireVaItof n)
  | .vaIadd _ _ n => some (fireVaIadd n)
  | .vaIsub _ _ n => some (fireVaIsub n)
  | .vaImul _ _ n => some (fireVaImul n)
  | .vaIand _ _ n => some (fireVaIand n)
  | .vaIor _ _ n => some (fireVaIor n)
  | .vaIxor _ _ n => some (fireVaIxor n)
  | .vaIshl _ _ n => some (fireVaIshl n)
  | .vaIshr _ _ n => some (fireVaIshr n)
  | .vaIsra _ _ n => some (fireVaIsra n)
  | .vaImin _ _ n => some (fireVaImin n)
  | .vaImax _ _ n => some (fireVaImax n)
  | .vaIcmp _ _ n => some (fireVaIcmp n)
  | .vaBlend _ _ n => some (fireVaBlend n)
  | .vaSplat _ _ n => some (fireVaSplat n)
  | .vaFclass _ _ n => some (fireVaFclass n)
  | .vxPerm _ _ => some fireVxPerm
  | .vxRot _ _ => some fireVxRot
  | .vxShufl _ _ => some fireVxShufl
  | .vxRedadd _ _ => some fireVxRedadd
  | .vxRedmax _ _ => some fireVxRedmax
  | .vxRedmin _ _ => some fireVxRedmin
  | .vxScan _ _ => some fireVxScan
  | .vxPart _ _ => some fireVxPart
  | .vxCompact _ _ => some fireVxCompact
  | .vxExpand _ _ => some fireVxExpand
  | .vxBcast _ _ => some fireVxBcast
  | .sfuExp2 _ _ => some fireSfuExp2
  | .sfuLog2 _ _ => some fireSfuLog2
  | .sfuRcp _ _ => some fireSfuRcp
  | .sfuRsqrt _ _ => some fireSfuRsqrt
  | .sfuSqrt _ _ => some fireSfuSqrt
  | .sfuSinpi _ _ => some fireSfuSinpi
  | .sfuCospi _ _ => some fireSfuCospi
  | .sfuTanh _ _ => some fireSfuTanh
  | .sfuSigm _ _ => some fireSfuSigm
  | .mxWload _ _ => some fireMxWload
  | .mxWswap _ _ => some fireMxWswap
  | .mxMstream _ _ => some fireMxMstream
  | .mxMstreamn _ _ => some fireMxMstreamn
  | .mxMclr _ _ => some fireMxMclr
  | .mxMread _ _ => some fireMxMread
  | .mxMacw _ _ => some fireMxMacw
  | .mxMivl _ _ => some fireMxMivl
  | .mxWloadsp _ _ => some fireMxWloadsp
  | .qntQnt _ _ => some fireQntQnt
  | .qntQflush _ _ => some fireQntQflush
  | .qntQrange _ _ => some fireQntQrange
  | .qntQthr _ _ => some fireQntQthr
  | .ivIadd _ _ => some fireIvIadd
  | .ivIsub _ _ => some fireIvIsub
  | .ivImul _ _ => some fireIvImul
  | .ivIdiv _ _ => some fireIvIdiv
  | .ivIsqr _ _ => some fireIvIsqr
  | .ivIsqrt _ _ => some fireIvIsqrt
  | .ivIexp _ _ => some fireIvIexp
  | .ivIlog _ _ => some fireIvIlog
  | .ivImax _ _ => some fireIvImax
  | .ivImin _ _ => some fireIvImin
  | .ivIhull _ _ => some fireIvIhull
  | .ivIsect _ _ => some fireIvIsect
  | .ivImid _ _ => some fireIvImid
  | .ivIrad _ _ => some fireIvIrad
  | .ivIwid _ _ => some fireIvIwid
  | .ivIcmp _ _ => some fireIvIcmp
  | .ivIin _ _ => some fireIvIin
  | .ivIsubset _ _ => some fireIvIsubset
  | .ivImk _ _ => some fireIvImk
  | .ivIlo _ _ => some fireIvIlo
  | .ivIhi _ _ => some fireIvIhi
  | .ivCadd _ _ => some fireIvCadd
  | .ivCsub _ _ => some fireIvCsub
  | .ivCmul _ _ => some fireIvCmul
  | .ivCdiv _ _ => some fireIvCdiv
  | .ivCsqr _ _ => some fireIvCsqr
  | .ivCsqrt _ _ => some fireIvCsqrt
  | .ivCexp _ _ => some fireIvCexp
  | .ivClog _ _ => some fireIvClog
  | .ivCmax _ _ => some fireIvCmax
  | .ivCmin _ _ => some fireIvCmin
  | .lwLd _ _ n => some (fireLwLd n)
  | .lwSt _ _ n => some (fireLwSt n)
  | .lwLdx _ _ n => some (fireLwLdx n)
  | .lwStx _ _ n => some (fireLwStx n)
  | .lwBind _ _ n => some (fireLwBind n)
  | .lwUnbind _ _ n => some (fireLwUnbind n)
  | .lwSeal _ _ n => some (fireLwSeal n)
  | .lwRelease _ _ n => some (fireLwRelease n)
  | .lwGath _ _ n => some (fireLwGath n)
  | .lwScat _ _ n => some (fireLwScat n)
  | .gmLd _ _ => some fireGmLd
  | .gmSt _ _ => some fireGmSt
  | .gmLdacq _ _ => some fireGmLdacq
  | .gmStrel _ _ => some fireGmStrel
  | .gmLdv _ _ => some fireGmLdv
  | .gmStv _ _ => some fireGmStv
  | .gmAmo _ _ => some fireGmAmo
  | .gmCas _ _ => some fireGmCas
  | .gmFred _ _ => some fireGmFred
  | .gmFredrd _ _ => some fireGmFredrd
  | .gmFredclr _ _ => some fireGmFredclr
  | .gmFence _ _ => some fireGmFence
  | .gmGath _ _ => some fireGmGath
  | .gmScat _ _ => some fireGmScat
  | .cpCopy _ _ => some fireCpCopy
  | .cpCstat _ _ => some fireCpCstat
  | .cpCcancel _ _ => some fireCpCcancel
  | .cpPrefetch _ _ => some fireCpPrefetch
  | .netSend _ _ => some fireNetSend
  | .netSendm _ _ => some fireNetSendm
  | .netPsend _ _ => some fireNetPsend
  | .netQcnt _ _ => some fireNetQcnt
  | .sluSinit _ _ => some fireSluSinit
  | .sluArrive _ _ => some fireSluArrive
  | .sluArrivb _ _ => some fireSluArrivb
  | .sluStest _ _ => some fireSluStest
  | .sluSreset _ _ => some fireSluSreset
  | .sluSemadd _ _ => some fireSluSemadd
  | .sluSemsub _ _ => some fireSluSemsub
  | .ttHalloc _ _ => some fireTtHalloc
  | .ttHfree _ _ => some fireTtHfree
  | .ttHstate _ _ => some fireTtHstate
  | .ttHset _ _ => some fireTtHset
  | .ttHinfo _ _ => some fireTtHinfo
  | .lnkLaunch _ _ => some fireLnkLaunch
  | .lnkMbind _ _ => some fireLnkMbind
  | .lnkMunbind _ _ => some fireLnkMunbind
  | .lnkMpos _ _ => some fireLnkMpos
  | .lnkPermit _ _ => some fireLnkPermit
  | .sysCsrr _ _ => some fireSysCsrr
  | .sysCsrw _ _ => some fireSysCsrw
  | .sysCsrs _ _ => some fireSysCsrs
  | .sysCsrc _ _ => some fireSysCsrc
  | .sysTsc _ _ => some fireSysTsc
  | .sysEst _ _ => some fireSysEst
  | .sysEcall _ _ => some fireSysEcall
  | .sysCouple _ _ => some fireSysCouple
  | .sysDecouple _ _ => some fireSysDecouple
  | _ => none

/-! ## The moves that fire (R36, R43) -/

/-- The moves of a bundle with their slots. -/
def slotted (ms : List Instr) : List (Nat × Instr) := ms.zipIdx.map fun q => (q.2 + 1, q.1)

/-- Those that fire: guards are evaluated before anything else (R42). -/
def firing (t : Tile) (ms : List Instr) : List (Nat × Instr) :=
  (slotted ms).filter fun q => match q.2.move with | some (g, _) => guardFires t g | none => false

/-- A number for the destination of a move: two firing moves must not share it; none for x0 and p0 (R43). -/
def destKey (i : Instr) : Option Nat :=
  match i with
  | .moveToRegister _ _ r =>
    if r.idx.toNat = 0 ∧ (r.cls = .x ∨ r.cls = .p) then none else some (1000 + r.cls.num * 64 + r.idx.toNat)
  | .moveToStream _ _ f => some (2000 + f.toNat)
  | .moveToOperand _ _ k o => some (3000 + k.toNat * 4 + o.toNat)
  | i => i.trigger.map fun q => 4000 + q.1

/-- The first slot whose destination or socket an earlier firing move names (R43). -/
def clashSlot : List Nat → List (Nat × Instr) → Option Nat
  | _, [] => none
  | seen, (slot, i) :: rest =>
    match destKey i with
    | none => clashSlot seen rest
    | some k => if k ∈ seen then some slot else clashSlot (k :: seen) rest

/-- The lower of two slots. -/
def minSlot (a b : Option Nat) : Option Nat :=
  match a, b with
  | some x, some y => some (min x y)
  | some x, none => some x
  | none, y => y

/-- The first slot that holds no legal instruction, or that breaks R43 (R49, R50). -/
def illegalSlot (s : State) (ms : List Instr) : Option Nat :=
  minSlot (((slotted ms).find? fun q => moveIllegal s q.2).map Prod.fst) (clashSlot [] (firing s.cur ms))

/-- The system-only triggers (R47). -/
def systemOnly (i : Instr) : Bool :=
  match i with
  | .ttHset .. | .sysCouple .. | .sysDecouple .. => true
  | _ => false

/-- The privilege faults of the moves in user mode (R47). -/
def privilegesOf (t : Tile) (fs : List (Nat × Instr)) : List FaultInfo :=
  if isSystem t then []
  else
    (fs.filter fun q => systemOnly q.2).map fun q =>
      let k := (q.2.trigger).getD (0, 0)
      mkFault 2 k.1 k.2 q.1 0

/-! ## Reads (R42 phase 1) -/

/-- What the reads of the firing moves come to: the tile after them, each move with its value, the faults, and whether one found
nothing yet. -/
structure Reads where
  tile : Tile
  got : List (Nat × Instr × Vec × Bool)
  faults : List FaultInfo
  froze : Bool
  deriving DecidableEq, Repr

/-- The reads in ascending slot order (R42). -/
def readAll (t : Tile) (fs : List (Nat × Instr)) : Reads :=
  fs.foldl (fun r q =>
    match q.2.move with
    | none => r
    | some (_, x) =>
      match readSrc r.tile q.1 x with
      | .ok v => { r with tile := v.2, got := r.got ++ [(q.1, q.2, v.1, x.hold)] }
      | .fault f => { r with faults := r.faults ++ [f] }
      | .freeze | .drain => { r with froze := true }) { tile := t, got := [], faults := [], froze := false }

/-- The fault of the lower slot (R50). -/
def firstFault (a b : Option FaultInfo) : Option FaultInfo :=
  match a, b with
  | some f, some g => some (if g.slot < f.slot then g else f)
  | some f, none => some f
  | none, g => g

/-- The fault that a bundle takes of those it holds (R50): the first in slot order, the control slot (slot 0) before the moves; beside an
illegal encoding a privilege fault counts for nothing. -/
def bundleFault (fs : List FaultInfo) : Option FaultInfo :=
  let fs := if fs.any fun f => f.cause == 1 then fs.filter fun f => f.cause != 2 else fs
  fs.foldl (fun a f => firstFault a (some f)) none

/-! ## Phases 2 to 4 -/

/-- The moves into operand ports. -/
def toOperand (i : Instr) : Bool := match i with | .moveToOperand .. => true | _ => false
/-- The moves into registers and streams. -/
def toState (i : Instr) : Bool := match i with | .moveToRegister .. | .moveToStream .. => true | _ => false
/-- A trigger that writes or reads a CSR (R125). -/
def csrTrigger (i : Instr) : Bool := match i with | .sysCsrr .. | .sysCsrw .. | .sysCsrs .. | .sysCsrc .. => true | _ => false

/-- The moves in the order in which their effects are laid: the operand ports (phase 2), the triggers (phase 3), the registers and streams
(phase 4), each in ascending slots, which is program order within a bundle (R259). A trigger on SOCKMODE comes first among the triggers, so
that it waits for operations of earlier bundles alone (R94); one on another CSR comes last, so that the bundle's other operations use the
value before it (R87). Two sockets bound to one instance (R97) have their own ports and queues, so their order is visible only in lw,
whose banks serve lw0 before lw1 in one cycle (R214). -/
def phaseOrder (got : List (Nat × Instr × Vec × Bool)) : List (Nat × Instr × Vec × Bool) :=
  let mode := fun (q : Nat × Instr × Vec × Bool) => csrTrigger q.2.1 && q.2.2.1 == 1
  let other := fun (q : Nat × Instr × Vec × Bool) => csrTrigger q.2.1 && q.2.2.1 != 1
  (got.filter fun q => toOperand q.2.1) ++ got.filter mode ++
    (got.filter fun q => !toOperand q.2.1 && !toState q.2.1 && !csrTrigger q.2.1) ++ got.filter other ++ got.filter fun q => toState q.2.1

/-- What the moves of a bundle come to: the state they leave, their faults, and whether one of them freezes or waits in a drain wait. -/
structure Fired where
  state : State
  faults : List FaultInfo
  froze : Bool
  drains : Bool
  deriving DecidableEq, Repr

/-- One move performed. -/
def fireOne (r : Fired) (q : Nat × Instr × Vec × Bool) : Fired :=
  match fireOf q.2.1 with
  | none => r
  | some f =>
    match f q.1 q.2.2.2 q.2.2.1 r.state with
    | .ok s => { r with state := s }
    | .fault g => { r with faults := r.faults ++ [g] }
    | .freeze => { r with froze := true }
    | .drain => { r with drains := true }

/-- Phases 2 to 4 with the values of the sources (R42): the fault of R50, a freeze, a drain wait (R96), or the state they leave. -/
def finishMoves (faults : List FaultInfo) (got : List (Nat × Instr × Vec × Bool)) (s : State) : Res State :=
  let r := (phaseOrder got).foldl fireOne { state := s, faults := faults, froze := false, drains := false }
  match bundleFault r.faults with
  | some f => .fault f
  | none => if r.froze then .freeze else if r.drains then .drain else .ok r.state

/-- A bundle's moves (R42, R50): `priv` holds the privilege faults that are known before any value. A read that finds nothing yet freezes
the bundle before any other fault is known, a fault of a read in a later slot included (log 7). `got` holds the values that an earlier
part has read (R97). -/
def runMoves (priv : List FaultInfo) (got : Option (List (Nat × Instr × Vec × Bool))) (fs : List (Nat × Instr)) (s : State) : Res State :=
  let r := readAll s.cur fs
  if r.froze then match bundleFault priv with | some f => .fault f | none => .freeze
  else finishMoves (priv ++ r.faults) (got.getD r.got) { s with cur := r.tile }

/-! ## Quiet bundles (R24) -/

/-- A posted access has been performed or refused; another has been answered. -/
def gmDone (t : Tile) : Bool := t.gm.all fun e => e.posted && e.performed

/-- No operation of any socket is in flight (R113): transfers of slu count until they are applied (R362). -/
def socketsDone (t : Tile) : Bool :=
  nothingFlies t && (t.socks.all fun e => !anyPending e.2) && gmDone t && (t.lw.all fun e => e.2.isEmpty) && t.zero.isEmpty &&
    t.tt.isEmpty && t.lnk.isEmpty && t.arrives.isEmpty && !mxBusy t.mx && !t.qnt.busy

/-- Every inter-tile transfer from the tile has been delivered (R24). -/
def transfersDone (s : State) : Bool :=
  s.cur.net.out.isEmpty && !(s.dev.vc2.any fun v => v.src == s.cur.id) && s.cur.checked.isEmpty

/-- The quiet check of a bundle (R24, R73): a fault while an exposed pipeline is busy, a freeze while other work is in flight. -/
def quietCheck (s : State) : Res Unit :=
  if !nothingFlies s.cur || !s.cur.ctl.fmtPending.isEmpty then .fault (mkFault 10 0 0 0 0)
  else if socketsDone s.cur && transfersDone s then .ok ()
  else .freeze

/-- The operations after which no interrupt is taken at the quiet bundle (R121). -/
def noQuietPoint (i : Instr) : Bool :=
  match i with
  | .ctlWait .. | .ctlStrokeend .. | .ctlHalt .. | .ctlTrap .. | .ctlSret .. | .ctlUiret .. => true
  | _ => false

/-- The quiet effects (R327-R329): CUTN, the interval count, the report to a stop request, the mark of the point. -/
def quietEffect (c : Instr) (s : State) : State :=
  let pc := s.cur.pc.toNat
  let inc := ((s.cur.code.live.find? fun e => decide (256 + e.pc = pc)).map Live.inc).getD 0
  let cut := s.cur.csr.cutn + BitVec.ofNat 64 inc
  let asked := match curNode s with | some n => n.state == .cutting | none => false
  let point := if noQuietPoint c || !s.cur.ctl.traps.isEmpty then 1 else 2
  onCur (fun t =>
    { t with csr := { t.csr with cutn := cut }, perf := { t.perf with quietGap := 0 },
             ctl := { t.ctl with quietPoint := point, quietAt := pc,
                                 reported := if asked && t.ctl.reported.isNone then some cut else t.ctl.reported } }) s

/-! ## Split bundles (R91, R97) -/

/-- The x registers that a control operation reads. -/
def ctlReads (c : Instr) : List Nat :=
  match c with
  | .ctlBri _ x => [x.toNat]
  | .ctlRet _ => [62]
  | .ctlLoop _ _ _ x _ => [x.toNat]
  | _ => []

/-- The registers of a class that firing moves and, for x, the control operation read, each once; x0 needs no port. -/
def readsOf (cls : RegClass) (c : Instr) (fs : List (Nat × Instr)) : Nat :=
  let moves := fs.filterMap fun q => match q.2.move with
    | some (_, .reg r _) => if r.cls = cls then some r.idx.toNat else none
    | _ => none
  let all := if cls = .x then (ctlReads c ++ moves).filter fun i => i != 0 else moves
  all.eraseDups.length

/-- The most sockets that firing moves trigger on one physical instance (R316). -/
def sharers (s : State) (fs : List (Nat × Instr)) : Nat :=
  let es := fs.filterMap fun q => q.2.trigger.map fun k => engineOf s s.cur.id k.1
  es.foldl (fun m e => max m (es.count e)) 1

/-- The parts a bundle issues in: the limits of R91, and sockets bound to one instance (R97). -/
def issueParts (s : State) (c : Instr) (fs : List (Nat × Instr)) : Nat :=
  max (sharers s fs)
    (max (max (ceilDiv (readsOf .x c fs) 4) (ceilDiv (readsOf .v c fs) 3)) (max (ceilDiv (readsOf .j c fs) 2) (ceilDiv (readsOf .k c fs) 2)))

/-! ## The bundle -/

/-- What a cycle of the tile was: a bundle issued, a bundle step without issue, or a frozen cycle (R96). -/
inductive CycleKind where
  | issued | step | frozen
  deriving DecidableEq, Repr

/-- The moves of a legal bundle with the checks of its control slot: the state after phase 4 (R42, R50). DESIGN CHOICE (log 7): a
pattern that is no legal encoding is found before any fault of an operation, so an illegal encoding of a move slot comes before a
branch-target, loop, sequence or quiet-violation fault of the control slot. A quiet bundle whose second condition does not hold freezes. -/
def bundleBody (quiet : Bool) (got : Option (List (Nat × Instr × Vec × Bool))) (b : Bundle) (s : State) : Res State :=
  match if b.ctl.wf then illegalSlot s b.moves else some 0 with
  | some k => .fault (mkFault 1 0 0 k 0)
  | none =>
    let fs := firing s.cur b.moves
    let ctl := ctlFault s.cur b.ctl
    match ctl.filter fun f => f.cause != 2 with
    | some f => .fault f
    | none =>
      match if quiet then quietCheck s else .ok () with
      | .fault f => .fault f
      | q => (runMoves (ctl.toList ++ privilegesOf s.cur fs) got fs s).bind fun s' => q.bind fun _ => .ok (onCur endMoves s')

/-- An ecall of the bundle is taken before the control operation acts (R127): that of wait, strokeend and halt, and any at system
privilege, which is a double fault. -/
def trapsFirst (b4 : Tile) (c : Instr) (s : State) : Bool :=
  !s.cur.ctl.traps.isEmpty &&
    (isSystem b4 || match c with | .ctlWait .. | .ctlStrokeend .. | .ctlHalt .. => true | _ => false)

/-- A bundle that needs several parts and can take effect has its sources read and starts the first part (R97): the tile is frozen until
the last part, in which every effect is laid. The model counts the last part as the bundle's step; the parts hold the pipelines still, so
which of them is the step shows in no result (log 7). -/
def splitBundle (parts : Nat) (fs : List (Nat × Instr)) (s : State) : State :=
  onCur (fun t => { t with run := .frozen, ctl := { t.ctl with split := some { left := parts - 2, got := (readAll t fs).got } } }) s

/-- A bundle issues at the PC (R42, R50, R96). With `controlOnly` it is resumed for its control operation: no quiet effects (R116,
R124). A trap that follows the bundle is taken at once when no cycle without issue lies before the next. -/
def issueBundle (controlOnly : Bool) (b : Bundle) (s : State) : State × CycleKind :=
  let head := (b.ctl.head).getD { xstall := 0, quiet := false, lit := .none }
  let quiet := head.quiet && !controlOnly
  let s := onCur (fun t => { t with ctl := { t.ctl with quietPoint := 0 } }) s
  match bundleBody quiet (s.cur.ctl.split.map SplitBundle.got) b s with
  | .freeze => (onCur (fun t => { t with run := .frozen }) s, .frozen)
  | .drain => (onCur (fun t => { t with run := .drain }) s, .step)
  | .fault f => (takeException f s.cur.pc.toNat false true s, .step)
  | .ok s1 =>
    let fs := firing s.cur b.moves
    let parts := issueParts s b.ctl fs
    if s.cur.ctl.split.isNone && decide (1 < parts) then (splitBundle parts fs s, .frozen)
    else
      let s1 := onCur (fun t => { t with ctl := { t.ctl with controlOnly := false, split := none } }) s1
      let s2 := if quiet then quietEffect b.ctl s1 else s1
      if trapsFirst s.cur b.ctl s2 then (takeTraps s.cur.pc.toNat true s2, .issued)
      else
        let s3 := ctlEffect b.ctl s.cur head.xstall.toNat s2
        (if s3.cur.run = .go then takeTraps s3.cur.pc.toNat false s3 else s3, .issued)

/-! ## Control operations as bundles of their own -/

/-- CTL_NOP (R105). -/
def execCtlNop (h : CtlHead) (s : State) : Host.Outcome State Fault Refusal :=
  .next (issueBundle false { ctl := .ctlNop h, moves := [] } s).1

/-- CTL_STALL (R31). -/
def execCtlStall (h : CtlHead) (m : BitVec 21) (s : State) : Host.Outcome State Fault Refusal :=
  .next (issueBundle false { ctl := .ctlStall h m, moves := [] } s).1

/-- CTL_BRA (R105). -/
def execCtlBra (h : CtlHead) (d : BitVec 21) (s : State) : Host.Outcome State Fault Refusal :=
  .next (issueBundle false { ctl := .ctlBra h d, moves := [] } s).1

/-- CTL_BRP (R105). -/
def execCtlBrp (h : CtlHead) (p : BitVec 4) (inv : Bool) (d : BitVec 16) (s : State) : Host.Outcome State Fault Refusal :=
  .next (issueBundle false { ctl := .ctlBrp h p inv d, moves := [] } s).1

/-- CTL_BRI (R105). -/
def execCtlBri (h : CtlHead) (x : BitVec 6) (s : State) : Host.Outcome State Fault Refusal :=
  .next (issueBundle false { ctl := .ctlBri h x, moves := [] } s).1

/-- CTL_CALL (R105). -/
def execCtlCall (h : CtlHead) (d : BitVec 21) (s : State) : Host.Outcome State Fault Refusal :=
  .next (issueBundle false { ctl := .ctlCall h d, moves := [] } s).1

/-- CTL_RET (R105). -/
def execCtlRet (h : CtlHead) (s : State) : Host.Outcome State Fault Refusal :=
  .next (issueBundle false { ctl := .ctlRet h, moves := [] } s).1

/-- CTL_LOOP (R106). -/
def execCtlLoop (h : CtlHead) (body : BitVec 12) (stages : BitVec 3) (trip : BitVec 6) (strides : Word) (s : State) : Host.Outcome State Fault Refusal :=
  .next (issueBundle false { ctl := .ctlLoop h body stages trip strides, moves := [] } s).1

/-- CTL_LEND (R109). -/
def execCtlLend (h : CtlHead) (b : BitVec 16) (s : State) : Host.Outcome State Fault Refusal :=
  .next (issueBundle false { ctl := .ctlLend h b, moves := [] } s).1

/-- CTL_LBRK (R110). -/
def execCtlLbrk (h : CtlHead) (s : State) : Host.Outcome State Fault Refusal :=
  .next (issueBundle false { ctl := .ctlLbrk h, moves := [] } s).1

/-- CTL_WAIT (R111). -/
def execCtlWait (h : CtlHead) (idx : BitVec 6) (sem : Bool) (s : State) : Host.Outcome State Fault Refusal :=
  .next (issueBundle false { ctl := .ctlWait h idx sem, moves := [] } s).1

/-- CTL_TRAP (R112). -/
def execCtlTrap (h : CtlHead) (s : State) : Host.Outcome State Fault Refusal :=
  .next (issueBundle false { ctl := .ctlTrap h, moves := [] } s).1

/-- CTL_FMT (R72). -/
def execCtlFmt (h : CtlHead) (f : BitVec 5) (v : BitVec 16) (s : State) : Host.Outcome State Fault Refusal :=
  .next (issueBundle false { ctl := .ctlFmt h f v, moves := [] } s).1

/-- CTL_UIRET (R124). -/
def execCtlUiret (h : CtlHead) (s : State) : Host.Outcome State Fault Refusal :=
  .next (issueBundle false { ctl := .ctlUiret h, moves := [] } s).1

/-- CTL_STROKEEND (R113). -/
def execCtlStrokeend (h : CtlHead) (s : State) : Host.Outcome State Fault Refusal :=
  .next (issueBundle false { ctl := .ctlStrokeend h, moves := [] } s).1

/-- CTL_HALT (R117). -/
def execCtlHalt (h : CtlHead) (s : State) : Host.Outcome State Fault Refusal :=
  .next (issueBundle false { ctl := .ctlHalt h, moves := [] } s).1

/-- CTL_SRET (R116). -/
def execCtlSret (h : CtlHead) (s : State) : Host.Outcome State Fault Refusal :=
  .next (issueBundle false { ctl := .ctlSret h, moves := [] } s).1

end Sys2Proof.Machine
end

