-- ==== Sys2Proof/Machine/Siphon.lean ====
section
/-!
DEFINITION. Machine/Siphon.lean: mains (R338-R354, R402, R403, R418): their identity, binding, detaching and retirement at the
group's home, and their pumps: the fetch role, the handover of a stage's output with its multicast, the write-back role.
-/
namespace Sys2Proof.Machine

/-! ## Mains -/

/-- A stage of a main runs (R349, R350): not those before its attachment; of a held prefix only those up to the deepest attachment. -/
def stageRuns (s : State) (m : Main) (j : Nat) : Bool :=
  !m.faulted && decide (runsFrom m ≤ j ∧ j < m.stages.length) && (m.bound || decide (j < deepest s m))

/-- The origin tile of a stage's sub-rectangle (R338, R402). -/
def stageTile (s : State) (m : Main) (j : Nat) : Option TileId :=
  match nodeOf s m.node, m.stages[j]? with
  | some n, some g => (n.parts[m.part]?).map fun q => { die := q.1, row := q.2.1 + fld g.sub 12 4, col := q.2.2 + fld g.sub 8 4 }
  | _, _ => none

/-- The permit counter of the pump that delivers to a stage: the one its origin tile grants to (R402). -/
def pumpOf (s : State) (m : Main) (j : Nat) : Option Nat :=
  (stageTile s m j).bind fun i =>
    let p := tget 0 s.dev.granted (tileIndex i * 16 + m.slot)
    if p = 0 then none else some (permitKey (clusterOf i) (p - 1) m.slot)

/-- The pump of a stage holds a permit (R345). -/
def permitted (s : State) (m : Main) (j : Nat) : Bool :=
  match pumpOf s m j with | some k => decide (0 < tget 0 s.dev.permits k) | none => false

/-- One permit consumed (R303). -/
def spendPermit (m : Main) (j : Nat) (s : State) : State :=
  match pumpOf s m j with
  | some k => { s with dev := { s.dev with permits := tset 0 s.dev.permits k (tget 0 s.dev.permits k - 1) } }
  | none => s

/-! ## The descriptor (R339, R343) -/

/-- A source entry of a main descriptor: va, len, tb, kind. -/
def sourceOf (d : Vec) (j : Nat) : Nat × Nat × Nat × Nat :=
  let o := 8 * (16 + 16 * j)
  (fld d o 64, fld d (o + 64) 32, fld d (o + 96) 16, fld d (o + 112) 8)

/-- A source entry is used (R339). -/
def sourceUsed (d : Vec) (j : Nat) : Bool := let q := sourceOf d j; q.2.1 != 0 && q.2.2.2 != 0
/-- A used source entry breaks R339. -/
def sourceIllegal (d : Vec) (j : Nat) : Bool :=
  let (va, len, tb, kind) := sourceOf d j
  sourceUsed d j && (decide (va % 64 ≠ 0 ∨ 2 ^ 48 ≤ va ∨ tb = 0 ∨ 4096 < tb ∨ 2 < kind) || decide (len % (64 * tb) ≠ 0))
/-- The used sources, ascending. -/
def sourcesOf (d : Vec) : List Nat := (List.range 4).filter (sourceUsed d)
/-- The number of tiles of a source. -/
def sourceTiles (d : Vec) (j : Nat) : Nat := let q := sourceOf d j; q.2.1 / (64 * q.2.2.1)
/-- A main reads a once source. -/
def hasOnce (d : Vec) : Bool := (sourcesOf d).any fun j => (sourceOf d j).2.2.2 == 2
/-- The sources named by the stages' source masks. -/
def maskedSources (gs : List StageDecl) : List Nat := (List.range 4).filter fun j => gs.any fun g => bitsOf g.sources j 1 == 1

/-- The domain addresses of the 64 KiB pages from an address on: none while one of them migrates, and whether one does not translate
with read permission. -/
def sourcePages (s : State) (ctx va len : Nat) : Option (Option (List Nat)) :=
  ((List.range ((va + len - 1) / 65536 - va / 65536 + 1)).map fun i => translate s ctx (max va ((va / 65536 + i) * 65536)) true false).foldr
    (fun t r =>
      match t, r with
      | .migrating, _ => none
      | _, none => none
      | .done pa, some (some ps) => some (some (pa :: ps))
      | _, some _ => some none) (some (some []))

/-! ## Identity (R341) -/

/-- The parameter bytes of a stage. -/
def stageParams (m : Main) (g : StageDecl) : List Byte := slice (vecBytes m.desc) (80 + g.pofs) g.plen

/-- Stage i of two mains is identical, the stages before apart; `pa` and `pb` hold the pages that their sources resolve to. -/
def stageSame (pa pb : List (List Nat)) (a b : Main) (i : Nat) : Bool :=
  match a.stages[i]?, b.stages[i]? with
  | some g, some h =>
    g.pure && h.pure && g.fn == h.fn && g.stroke == h.stroke && g.sub == h.sub && g.fmt == h.fmt && g.ishape == h.ishape &&
      g.oshape == h.oshape && stageParams a g == stageParams b h && g.sources == h.sources &&
      (List.range 4).all fun j => bitsOf g.sources j 1 == 0 ||
        ((sourceOf a.desc j).2 == (sourceOf b.desc j).2 && (pa[j]?) == (pb[j]?))
  | _, _ => false

/-- The depth of a main against another (R341). -/
def mainDepth (pa pb : List (List Nat)) (a b : Main) : Nat :=
  if a.hash != b.hash then 0 else ((List.range (min a.stages.length b.stages.length)).takeWhile (stageSame pa pb a b)).length

/-- The main that runs stage d - 1 of a main: itself, or one before it that it is attached to (R344). -/
def carrierOf (s : State) : Nat → Main → Nat → Main
  | 0, m, _ => m
  | fuel + 1, m, d =>
    match m.attach with
    | none => m
    | some (p, k) => if k < d then m else match mainOf s p with | some q => carrierOf s fuel q d | none => m

/-- The main whose pump sends a main's output at a depth. -/
def carrier (s : State) (m : Main) (d : Nat) : Main := carrierOf s s.dev.mains.length m d

/-- The position of a main at a depth: that of the next output tile that the pump there will send (R346). -/
def posAt (s : State) (m : Main) (d : Nat) : Nat := tget 0 (carrier s m d).pos d

/-! ## The home (R340, R342) -/

/-- The home of a group: chosen at its first bind. -/
def homeOf (s : State) (key : Word) : Nat :=
  match s.dev.mains.find? fun m => m.key == key with
  | some m => m.home
  | none =>
    (((List.range 8).map fun i => (key.toNat + i) % 8).find? fun c => decide (c ∈ s.dev.cisterns ∧ c ∉ s.dev.downC)).getD (key.toNat % 8)

/-- The main handles that a context holds: those of its mains, and those that its stopped nodes take up again (R353). -/
def handlesHeld (s : State) (c : Nat) : List Nat :=
  ((s.dev.mains.filter fun m => m.bound && m.ctx == c).map Main.handle) ++
    (s.dev.hw.nodes.filter fun n => n.ref.ctx == c && n.resume).flatMap fun n => n.images.flatMap fun i => i.mains.map ImageMain.handle

/-- The code object of a node. -/
def objectOf (s : State) (n : Node) : Option CodeObject :=
  (ctxOf s n.ref.ctx).bind fun c => (c.graphs.find? fun g => g.num == n.ref.graph).bind fun g => g.objs[n.decl.obj]?

/-- The value of mbind (R343). -/
def bindValue (join st k h : Nat) : Nat := join * 2 ^ 32 + st * 2 ^ 24 + k * 2 ^ 16 + h

/-- The pages of all four sources, empty where unused. -/
def allPages (s : State) (ctx : Nat) (d : Vec) : Option (Option (List (List Nat))) :=
  (List.range 4).foldr (fun j r =>
    match (if sourceUsed d j then sourcePages s ctx (sourceOf d j).1 (sourceOf d j).2.1 else some (some [])), r with
    | none, _ => none
    | _, none => none
    | some (some ps), some (some qs) => some (some (ps :: qs))
    | _, some _ => some none) (some (some []))

/-- The pages of a main's sources as its context maps them now; those found at its bind where the context is gone. -/
def pagesNow (s : State) (m : Main) : Option (Option (List (List Nat))) :=
  match ctxOf s m.ctx with
  | some _ => allPages s m.ctx m.desc
  | none => some (some m.pages)

/-- The candidate of the home (R342): depth and main. Mains stand in the order of their bind serials. The addresses of an older main's sources
and its permission to read them are those of now (R341); none while one of its pages migrates (R219). -/
def candidate (s : State) (m : Main) : Option (Option (Nat × Main)) :=
  if m.key = 0 ∨ !m.share then some none
  else
    s.dev.mains.foldl (fun (best : Option (Option (Nat × Main))) r =>
      match best with
      | none => none
      | some b =>
        if r.key != m.key || !r.bound || r.faulted || !r.share then some b
        else
          match pagesNow s r with
          | none => none
          | some none => some b
          | some (some ps) =>
            let d := mainDepth ps m.pages r m
            let full := decide (64 ≤ (attachedTo s r).length)
            let late := hasOnce m.desc && posAt s r d != 0
            if d = 0 || full || late then some b
            else match b with
              | some q => some (if q.1 < d then some (d, r) else b)
              | none => some (some (d, r))) (some none)

/-- A main bound at its home (R342, R343): the answer and the state after, or a wait on a migrating page (R219). A rebind keeps the
handle it names (R353). -/
def bindMain (n : Node) (part : Nat) (d : Vec) (keep : Option Nat) (s : State) : Option (Nat × State) :=
  let c := n.ref.ctx
  let refuse := fun (st : Nat) => some (bindValue 0 st 0 0, s)
  let decl := (objectOf s n).bind fun o => (o.funcs[n.decl.fn]?).bind fun f => (f.mains[fld d 0 16]?).map fun g => (o.hash, g)
  match decl with
  | none => refuse 2
  | some (hash, gs) =>
    let used := sourcesOf d
    let tiles := sourceTiles d (used.headD 0)
    if (List.range 4).any (sourceIllegal d) || used.isEmpty || maskedSources gs != used then refuse 7
    else if used.any fun j => sourceTiles d j != tiles then refuse 6
    else
      match allPages s c d with
      | none => none
      | some none => refuse 3
      | some (some pages) =>
        if slotRuns s (nodeClusters n) (fld d 16 4) then refuse 4
        else if 4096 ≤ s.dev.mains.length then refuse 5
        else
          let held := handlesHeld s c
          let free := ((List.range 4097).map (· + 1)).find? fun h => decide (h ∉ held)
          let h := keep.getD (free.getD 0)
          let key := match ctxOf s c with | some x => x.key | none => 0
          let m : Main :=
            { id := s.dev.nextMain, ctx := c, handle := h, node := n.ref, owner := c, slot := fld d 16 4, home := homeOf s key, key := key,
              hash := hash, stages := gs, desc := d, pages := pages, n := tiles, share := bit d 24, bound := true, faulted := false,
              attach := none, join := 0, pos := [], pipe := [], source := 0, rows := [], parked := none, part := part }
          let add := fun (m : Main) => { s with dev := { s.dev with mains := s.dev.mains ++ [m], nextMain := s.dev.nextMain + 1 } }
          match candidate s m with
          | none => none
          | some none => some (bindValue 0 0 0 h, add m)
          | some (some (k, a)) =>
            let p := posAt s a k
            let pos := (List.range (gs.length + 1)).foldl (fun t j => tset 0 t j p) []
            some (bindValue p 1 k h, add { m with attach := some (a.id, k), join := p, pos := pos })

/-- A main of a context by its handle. -/
def byHandle (s : State) (c h : Nat) : Option Main := s.dev.mains.find? fun m => m.bound && m.ctx == c && m.handle == h

/-- Every main attached to a main, directly or through others. -/
def attachedAll (s : State) : Nat → List Main → List Main
  | 0, ms => ms
  | fuel + 1, ms => attachedAll s fuel (ms ++ (ms.flatMap (attachedTo s)).filter fun b => ms.all fun m => m.id != b.id)

/-- The priority of a node (R351): its own, and where others are attached to its mains the highest declared among their nodes, with its own
only while such a main of it is bound. -/
def nodePriority (s : State) (n : Node) : Nat :=
  let mine := s.dev.mains.filter fun m => decide (m.node = n.ref) && !(attachedTo s m).isEmpty
  let own := if mine.isEmpty || mine.any Main.bound then n.prio else 0
  (attachedAll s s.dev.mains.length (mine.flatMap (attachedTo s))).foldl (fun p b =>
    match nodeOf s b.node with | some k => max p k.prio | none => p) own

/-! ## The home's answers to a tile (R342, R348, R349) -/

/-- The next operation of the focused tile for the home: they go in trigger order. -/
def homeOp (t : Tile) : Option LnkOp := t.lnk.find? fun o => o.code == 9 || o.code == 10 || o.code == 11

/-- An operation of lnk or sys answered. -/
def answerLnk (sock : Nat) (o : LnkOp) (v : Nat) (t : Tile) : Tile :=
  answer { t with lnk := t.lnk.filter fun x => x.serial != o.serial } sock o.serial 0 (toVec v)

/-- The value of mpos (R348). -/
def mposValue (s : State) (c h : Nat) : Nat :=
  match byHandle s c h with
  | none => 2 ^ 64 - 1
  | some m =>
    let cur := match m.attach with
      | some (p, k) => match mainOf s p with | some a => posAt s a k | none => 0
      | none => tget 0 m.pos 0
    cur * 2 ^ 32 + m.join

/-- The positions that the focused tile asks for next, read at the home. -/
def homeReads : Nat → State → State
  | 0, s => s
  | fuel + 1, s =>
    match homeOp s.cur with
    | none => s
    | some o =>
      if o.code ≠ 11 then s
      else homeReads fuel (onCur (answerLnk 18 o (mposValue s (ctxNum s.cur) (fld o.arg 0 16))) s)

/-- The oldest bind of the focused tile, once it may take effect as a release (R342, R373). -/
def serveBind (s : State) : State :=
  match homeOp s.cur, curNode s with
  | some o, some n =>
    if o.code = 9 ∧ lsDone s o.serial 3 then
      match bindMain n s.cur.place.part o.arg none s with
      | some (v, s) => homeReads s.cur.lnk.length (onCur (answerLnk 18 o v) s)
      | none => s
    else s
  | _, _ => s

/-- The oldest detach of the focused tile (R349). -/
def serveDetach (s : State) : State :=
  match homeOp s.cur with
  | some o =>
    if o.code = 10 then
      let r := match byHandle s (ctxNum s.cur) (fld o.arg 0 16) with
        | some m => (0, detachMain m s)
        | none => (1, s)
      homeReads r.2.cur.lnk.length (onCur (answerLnk 18 o r.1) r.2)
    else s
  | none => s

/-- The function of a node. -/
def funcOf (s : State) (n : Node) : Option Func := (objectOf s n).bind fun o => o.funcs[n.decl.fn]?

/-- An image that a reader refuses (R336): a wrong magic, container version or state, a mandatory field that it does not know, or a field of a
version above its own. -/
def imageRefused (i : Image) : Bool :=
  let b := i.bytes
  let entry := fun (k : Nat) =>
    let o := leField b 40 8 + 16 * k
    let id := leField b o 2
    if 1 ≤ id ∧ id ≤ 17 then decide (1 < leField b (o + 2) 2) else decide (id < 0x8000)
  leField b 0 4 != 0x31474D49 || leField b 4 2 != 1 || leField b 8 1 != 1 || (List.range (leField b 12 4)).any entry

/-- An image resumes into code of its level (R84); a fault image only on its stepping of origin, on the dies where it was taken (R314,
R337). -/
def imageSuits (s : State) (n : Node) (level : Nat) (i : Image) : Bool :=
  i.state == 1 && i.level == level && !imageRefused i &&
    (i.kind == 0 || n.parts.all fun q => (s.dev.dies[q.1]?).map Die.stepping == some i.step && i.tiles.any fun t => t.id.die == q.1)

/-- The image that a stopped node resumes from: the last sealed one that suits (R84, R336). -/
def resumeImage (s : State) (n : Node) : Option Image :=
  match decide (n.resume = true), funcOf s n with
  | true, some f =>
    (n.images.filter (imageSuits s n f.level)).foldl (fun b i => match b with | some j => if j.seq < i.seq then some i else b | none => some i) none
  | _, _ => none

/-- The mains that a restored node has still to bind again (R353). -/
def rebinds (s : State) (n : Node) : List ImageMain :=
  match resumeImage s n with
  | some i => i.mains.filter fun q => s.dev.mains.all fun m => !(decide (m.node = n.ref) && m.handle == q.handle && m.bound)
  | none => []

/-- The mains of a restored node bound again, each with its handle, in the order of the image; one that waits holds the others. A
refusal leaves the main unbound. -/
def rebindNode (r : NodeRef) (s : State) : State :=
  match nodeOf s r with
  | none => s
  | some n =>
    if !n.resume || n.parts.isEmpty then s
    else
      ((rebinds s n).foldl (fun (x : Bool × State) q =>
        if x.1 then x
        else match bindMain n q.part q.desc (some q.handle) x.2 with
          | some (_, s) => (false, s)
          | none => (true, x.2)) (false, s)).2

/-! ## Pumps (R345, R402, R403) -/

/-- An element of a pump enters q3 or the spillway (R402): no interrupt, no message counted. -/
def pumpEnter (v : Vec) (t : Tile) : Option Tile :=
  let cur := tget [] t.net.q 3
  if spillCount t 3 = 0 ∧ cur.length < 16 then some { t with net := { t.net with q := tset [] t.net.q 3 (cur ++ [v]) } }
  else if t.net.spill.length < 512 then some (spillIn 3 v t)
  else none

/-- Elements offered to a tile in order: those that the tile takes leave. -/
def offerList : List Vec → Tile → List Vec × Tile
  | [], t => ([], t)
  | v :: vs, t => match pumpEnter v t with | some t => offerList vs t | none => (v :: vs, t)

/-- The elements of a main that wait for a destination offered; where the tile runs no node any more they are gone. -/
def offerPipe (id i : Nat) (j : TileId) (s : State) : State :=
  match mainOf s id with
  | none => s
  | some m =>
    let vs := tget [] m.pipe i
    let t := tileAt s j
    let r := if t.place.node.isNone then ([], t) else offerList vs t
    putMain { m with pipe := tset [] m.pipe i r.1 } (onTile j (fun s => { s with cur := r.2 }) s)

/-- The tile of a number. -/
def tileOfIndex (i : Nat) : TileId := { die := i / 256, row := i / 16 % 16, col := i % 16 }

/-- Every element that waits offered again (R402). -/
def offerAgain (id : Nat) (s : State) : State :=
  match mainOf s id with
  | none => s
  | some m => settleMains (m.pipe.foldl (fun s e => offerPipe id e.1 (tileOfIndex e.1) s) s)

/-- The elements of a tile of data (R402). -/
def elemsOf (bs : List Byte) : List Vec := (List.range (ceilDiv bs.length 128)).map fun i => bytesVec (slice bs (128 * i) 128)

/-- Elements sent to a stage of a main. -/
def sendTo (id : Nat) (i : TileId) (vs : List Vec) (s : State) : State :=
  match mainOf s id with
  | none => s
  | some m => offerPipe id (tileIndex i) i (putMain { m with pipe := tset [] m.pipe (tileIndex i) (tget [] m.pipe (tileIndex i) ++ vs) } s)

/-- The position after the one at a key: cyclic sources wrap, once sources stop at n (R346, R347). -/
def nextPos (m : Main) (key : Nat) : Nat := let p := tget 0 m.pos key + 1; if hasOnce m.desc then p else p % max 1 m.n
/-- A once source has no tile left (R347). -/
def spent (m : Main) (key : Nat) : Bool := hasOnce m.desc && decide (m.n ≤ tget 0 m.pos key)

/-- The cluster and port of the pump of a main's fetch role. -/
def fetchPump (s : State) (m : Main) : Nat × Nat := let k := (pumpOf s m 0).getD 0; (k / 64, k / 16 % 4)

/-- The translation of a source's page by the pump of the fetch role (R220); a context that is gone leaves the pages found at the bind. -/
def fetchTrans (s : State) (m : Main) (j va : Nat) : Trans :=
  match ctxOf s m.ctx with
  | some _ => let p := fetchPump s m; pumpTranslate s p.1 p.2 m.ctx va true false
  | none =>
    match ((m.pages[j]?).getD [])[va / 65536 - (sourceOf m.desc j).1 / 65536]? with
    | some pa => .done (pa / 65536 * 65536 + va % 65536)
    | none => .fault 20

/-- n free bytes. -/
def freeBytes (n : Nat) (s : State) : List Byte × State :=
  let r := (List.range (ceilDiv n 8)).foldl (fun (r : List Byte × State) _ =>
    let f := freshValue r.2
    (r.1 ++ leBytes 8 f.1.toNat, f.2)) ([], s)
  (r.1.take n, r.2)

/-- A piece of a source tile inside one page, with the state after. The bytes of another device's memory, and those of a poisoned word, are free
(log 16). -/
def fetchPiece (s : State) (m : Main) (j va n : Nat) : Trans × List Byte × State :=
  match fetchTrans s m j va with
  | .done pa =>
    if addrStatus s pa ≠ 0 then (.done pa, [], s)
    else
      let s := let p := fetchPump s m; if (ctxOf s m.ctx).isSome then pumpWalked p.1 p.2 m.ctx va s else s
      if ownAddr s pa && !memPoisoned s pa n then (.done pa, memRead s pa n, s)
      else
        let r := freeBytes n s
        (.done pa, if ownAddr s pa then ((memRead s pa n).zip r.1).zipIdx.map fun q => if memPoisoned s (pa + q.2) 1 then q.1.2 else q.1.1 else r.1, r.2)
  | t => (t, [], s)

/-- The pieces of a range that end at 64 KiB boundaries: address and length. -/
def pagePieces (va n : Nat) : List (Nat × Nat) :=
  (List.range ((va + n - 1) / 65536 - va / 65536 + 1)).map fun i =>
    let a := max va ((va / 65536 + i) * 65536)
    (a, min (va + n) ((a / 65536 + 1) * 65536) - a)

/-- Why a source tile is not fetched: it waits on a migrating page (R219), or a fault with the tile's first virtual address and, for a bad
address, the domain address (R418). -/
inductive FetchStop where
  | waits
  | fault (cause va pa : Nat)
  deriving DecidableEq, Repr

/-- One source's tile at the main's next position as its bytes. -/
def fetchBytes (s : State) (m : Main) (j : Nat) : Except FetchStop (List Byte × State) :=
  let (va, _, tb, _) := sourceOf m.desc j
  let base := va + tget 0 m.pos 0 * 64 * tb
  (pagePieces base (64 * tb)).foldl (fun (r : Except FetchStop (List Byte × State)) q =>
    match r with
    | .ok (bs, s) =>
      match fetchPiece s m j q.1 q.2 with
      | (.done pa, more, s) => if addrStatus s pa ≠ 0 then .error (.fault 26 base pa) else .ok (bs ++ more, s)
      | (.migrating, _) => .error .waits
      | (.fault c, _) => .error (.fault c base 0)
    | r => r) (.ok ([], s))

/-- The next source tile: the sources of a position go in ascending number (R402). -/
def fetchNext (s : State) (m : Main) : Except FetchStop (List Vec × State) :=
  match (sourcesOf m.desc)[m.source]? with
  | none => .error .waits
  | some j => match fetchBytes s m j with | .ok (bs, s) => .ok (elemsOf bs, s) | .error e => .error e

/-- A main whose fetch role has fetched one source tile: the next source, or the next position. -/
def afterSource (m : Main) : Main :=
  if m.source + 1 < (sourcesOf m.desc).length then { m with source := m.source + 1 }
  else { m with source := 0, pos := tset 0 m.pos 0 (nextPos m 0) }

/-- The fetch role of a main may act: it runs stage 0, is not parked, its sources are not spent, a permit is held, and nothing waits
for the tile (R402, R418). -/
def fetchable (s : State) (m : Main) : Bool :=
  stageRuns s m 0 && m.parked.isNone && !spent m 0 && permitted s m 0 &&
    match stageTile s m 0 with | some i => (tget [] m.pipe (tileIndex i)).isEmpty | none => false

/-- One source tile fetched on one permit and delivered to stage 0 (R303, R402). -/
def fetchTile (id : Nat) (s : State) : State :=
  match mainOf s id with
  | none => s
  | some m =>
    if !fetchable s m then s
    else
      match fetchNext s m, stageTile s m 0 with
      | .ok (vs, s), some i => sendTo id i vs (spendPermit m 0 (putMain (afterSource m) s))
      | _, _ => s

/-- A refused fetch logged where it is refused, as a pump's read (R310); at an absent cistern on the pump's die. -/
def logFetch (m : Main) (i : TileId) (pa : Nat) (s : State) : State :=
  if !ownAddr s pa then s
  else
    logRefusal s (if inWindow pa then windowPlace s else if cisField pa ∈ s.dev.cisterns then 16 + cisField pa else i.die)
      { addr := BitVec.ofNat 64 pa, ctx := m.owner, pos := 0xFFFF, kind := 8, time := (dieOf s i).tsc, st := addrStatus s pa }

/-- The fetch role parks at the source tile that meets a fault (R418). -/
def parkFetch (id : Nat) (s : State) : State :=
  match mainOf s id with
  | none => s
  | some m =>
    if !fetchable s m then s
    else
      match fetchNext s m, stageTile s m 0, nodeOf s m.node with
      | .error (.fault cause addr pa), some i, some n =>
        let s := putMain { m with parked := some (cause, BitVec.ofNat 64 addr) } s
        let s := if cause = 26 then logFetch m i pa s else s
        let t := tileAt s i
        eventRecord m.owner
          (faultRecord 2 cause 0 (entryWord n.ref) (queueByte n) m.part (relRow t % 16 * 16 + relCol t % 16) 0 0 addr
            (dieOf s i).tsc.toNat (2 ^ 17 + if m.bound then m.handle else 0)) s
      | _, _, _ => s

/-- Other mains are attached where a main's pump sends at a depth: to it, or to one that it carries there (R344). -/
def sharesAt (s : State) (m : Main) (d : Nat) (b : Main) : Bool :=
  match b.attach with
  | some (p, k) => k == d && match mainOf s p with | some a => (carrier s a d).id == m.id | none => false
  | none => false

/-- The pump of a main multicasts at a depth (R345). -/
def multicasts (s : State) (m : Main) (d : Nat) : Bool := s.dev.mains.any (sharesAt s m d)

/-- The destinations of a stage's output at a depth: the main's own next stage, and that stage of every main attached there (R344). -/
def destinations (s : State) (m : Main) (d : Nat) : List Main :=
  (if stageRuns s m d then [m] else []) ++ s.dev.mains.filter fun b => sharesAt s m d b && stageRuns s b d

/-- The stage's output waits sealed in handle 767 of its origin tile, or is being read there (R403). -/
def outputReady (s : State) (m : Main) (d : Nat) : Option (TileId × Entry) :=
  (stageTile s m (d - 1)).bind fun i =>
    match tfind (tileAt s i).table 767 with
    | some e => let st := (hstateOf s e).st; if e.tracked ∧ (st = 2 ∨ (st = 3 ∧ (tfind m.rows d).isSome)) then some (i, e) else none
    | none => none

/-- The bytes of an output tile (R338). -/
def outputSize (m : Main) (j : Nat) (e : Entry) : Nat :=
  match m.stages[j]? with
  | some g => min e.size (fld g.oshape 0 16 * fld g.oshape 16 16 * 2 ^ fld g.oshape 32 8)
  | none => e.size

/-- Every destination of a main at a depth can take a tile: its pump holds a permit, and nothing waits for it (R345). -/
def destsTake (s : State) (m : Main) (d : Nat) : Bool :=
  (destinations s m d).all fun b => permitted s b d &&
    match stageTile s b d with | some i => (tget [] b.pipe (tileIndex i)).isEmpty | none => false

/-- A handover may happen at a depth (R345, R403): the stage before it is not the last and runs, its output is sealed, and every destination
can take it; one that has begun goes on. -/
def canHandOver (s : State) (m : Main) (d : Nat) : Bool :=
  (outputReady s m d).isSome &&
    ((tfind m.rows d).isSome ||
      (decide (0 < d ∧ d < m.stages.length) && stageRuns s m (d - 1) && !spent m d && !(destinations s m d).isEmpty && destsTake s m d))

/-- The rows of an output tile that the delivering pump has still to read (R16). -/
def handRows (m : Main) (d : Nat) (e : Entry) : List Nat := (tfind m.rows d).getD (rowsOf e.off (outputSize m (d - 1) e))

/-- The port of the pump that delivers at a depth. -/
def handPort (s : State) (m : Main) (d : Nat) : Nat := (((destinations s m d).head?.bind fun b => pumpOf s b d).getD 0) / 16 % 4

/-- The row that the delivering pump reaches now, in its own slot of the wheel (R16, R19). -/
def handRow (s : State) (m : Main) (d : Nat) : Option Nat :=
  (outputReady s m d).bind fun q => (handRows m d q.2).find? fun r => pumpOpen (focus q.1 s) (handPort s m d) (bankOf 1 r)

/-- A tile of data sent to the destinations of a main at a depth, one permit of each spent (R345). -/
def sendAll (m : Main) (d : Nat) (vs : List Vec) (s : State) : State :=
  let ds := destinations s m d
  let s := putMain { m with pos := tset 0 m.pos d (nextPos m d), rows := m.rows.filter fun e => e.1 != d } s
  let s := ds.foldl (fun s b => spendPermit b d s) s
  ds.foldl (fun s b => match stageTile s b d with | some j => sendTo b.id j vs s | none => s) s

/-- The handover of a stage's output at a depth (R403): the pump reads one row in its slot; with the last one the tile is delivered to every
destination, the handle released, and an arrival made at sluice 63. A poisoned word's bytes are free (log 16). -/
def handOver (id d : Nat) (s : State) : State :=
  match mainOf s id with
  | none => s
  | some m =>
    match canHandOver s m d, outputReady s m d, handRow s m d with
    | true, some (i, e), some r =>
      let left := (handRows m d e).erase r
      let s := onTile i (useSlot (handPort s m d)) s
      let s := if (tfind m.rows d).isNone then (handleEvent s e .read).getD s else s
      if !left.isEmpty then putMain { m with rows := tput m.rows d left } s
      else
        let n := outputSize m (d - 1) e
        let read := spaceRead s e.space e.off n
        let f := freeBytes n s
        let bs := (read.1.zip f.1).zipIdx.map fun q => if poisonHit (spacePoison s e.space) 8 (e.off + q.2) 1 then q.1.2 else q.1.1
        let s := sendAll m d (elemsOf bs) f.2
        let s := (handleEvent s e .release).getD s
        settleMains (onTile i (onCur (countUp false 63 1 0 false)) s)
    | _, _, _ => s

/-- The write-back role (R19, R303): one permit of the last stage's pump spent, an output tile of the main written at an address of a
cistern of this device, and sent to every main attached at the full depth, whose position advances (R345, R346). Where its bytes come from is
not stated, and handle 767 of a last stage is never read (R403), so they are free (log 16). -/
def writeBack (id : Nat) (dest : Nat) (s : State) : State :=
  match mainOf s id with
  | none => s
  | some m =>
    let nst := m.stages.length
    match m.stages[nst - 1]? with
    | none => s
    | some g =>
      let n := fld g.oshape 0 16 * fld g.oshape 16 16 * 2 ^ fld g.oshape 32 8
      if !stageRuns s m (nst - 1) || !permitted s m (nst - 1) || !destsTake s m nst || spent m nst || !ownAddr s dest || addrStatus s dest ≠ 0 ||
          addrStatus s (dest + n - 1) ≠ 0 then s
      else
        let r := freeBytes n (spendPermit m (nst - 1) s)
        sendAll m nst (elemsOf r.1) (memStore r.2 dest r.1)

/-! ## A home that fails (R340) -/

/-- A cistern fails: the nodes that hold mains of the groups it was home to are faulted, and their contexts receive device event 3. -/
def cisternFails (c : Nat) (s : State) : State :=
  let s := { s with dev := { s.dev with downC := c :: s.dev.downC.filter fun x => x != c } }
  let mine := s.dev.mains.filter fun m => m.home == c && m.key != 0
  let nodes := (mine.map Main.node).eraseDups
  let s := nodes.foldl (fun s r =>
    match nodeOf s r with
    | none => s
    | some n =>
      if n.state = .faulted then s else faultNodeQuiet n s) s
  let s := onMains (fun ms => ms.map fun m => if m.home = c ∧ m.key ≠ 0 then { m with faulted := true } else m) s
  ((mine.map Main.ctx).eraseDups).foldl (fun s x => deviceEvent x 3 0 s) s

/-! ## Events -/

/-- PUMP_TILE_DELIVERY (R402): elements that were refused, offered again; else the next position of the fetch role. -/
def execPumpTileDelivery (main : Nat) (s : State) : Host.Outcome State Fault Refusal :=
  event (match mainOf s main with
    | some m => if m.pipe.isEmpty then fetchTile main s else offerAgain main s
    | none => s)
/-- PUMP_HANDOVER (R403): a stage's output where no main is attached behind the stage. -/
def execPumpHandover (main stage : Nat) (s : State) : Host.Outcome State Fault Refusal :=
  event (match mainOf s main with
    | some m => if multicasts s m (stage + 1) then s else handOver main (stage + 1) s
    | none => s)
/-- MULTICAST_SEND (R345): a stage's output at a depth at which mains are attached. -/
def execMulticastSend (main depth : Nat) (s : State) : Host.Outcome State Fault Refusal :=
  event (match mainOf s main with
    | some m => if multicasts s m depth then handOver main depth s else s
    | none => s)
/-- FETCH_PARK (R418). -/
def execFetchPark (main : Nat) (s : State) : Host.Outcome State Fault Refusal := event (parkFetch main s)
/-- PUMP_WRITE_BACK (R19). -/
def execPumpWriteBack (main : Nat) (dest : Word) (s : State) : Host.Outcome State Fault Refusal := event (writeBack main dest.toNat s)
/-- MAIN_BIND_AT_HOME (R342). -/
def execMainBindAtHome (t : TileId) (s : State) : Host.Outcome State Fault Refusal := event (onTile t serveBind s)
/-- MAIN_DETACH_AT_HOME (R349). -/
def execMainDetachAtHome (t : TileId) (s : State) : Host.Outcome State Fault Refusal := event (onTile t serveDetach s)
/-- MAIN_REBIND_AT_RESTORE (R353). -/
def execMainRebindAtRestore (n : NodeRef) (s : State) : Host.Outcome State Fault Refusal := event (rebindNode n s)
/-- HOME_CISTERN_FAILURE (R340). -/
def execHomeCisternFailure (c : BitVec 4) (s : State) : Host.Outcome State Fault Refusal := event (cisternFails c.toNat s)

end Sys2Proof.Machine
end

