-- ==== Sys2Proof/Machine/Image.lean ====
section
/-!
DEFINITION. Machine/Image.lean: the context image (R326, R331-R337): what a stopped tile keeps, the container's bytes field by field,
and the restore of a tile from an image (R88, R373).
-/
namespace Sys2Proof.Machine

/-! ## What is saved (R326, R333) -/

/-- Everything live: a tile that stopped between strokes stands at no quiet bundle (log 17). -/
def liveAll : Live :=
  { pc := 0, inc := 0, xm := BitVec.allOnes 64, vm := BitVec.allOnes 64, jm := 0xFFFF, pm := 0x3FFE, fm := 0xFFFF, km := 0xFF, cm := 0xFF, misc := 7 }

/-- The liveness entry of the quiet bundle at which a tile stopped (R326). -/
def liveOf (t : Tile) : Live :=
  if t.run = .cut then (t.code.live.find? fun e => decide (256 + e.pc = t.ctl.quietAt)).getD liveAll else liveAll

/-- The stationary plane and the shadow plane (R186). -/
def stationary (m : Mx) : Plane := if m.front then m.p1 else m.p0
/-- The shadow plane. -/
def shadow (m : Mx) : Plane := if m.front then m.p0 else m.p1

/-- A table without the entries that a mask marks dead. -/
def keepLive {α : Type} {k : Nat} (mask : BitVec k) (t : Tab α) : Tab α := t.filter fun e => bit mask e.1

/-- A stopped tile with its dead registers at their reset values, as an image keeps it (R333). Parked copies stay with their cursors. -/
def savedTile (t : Tile) : Tile :=
  let l := liveOf t
  let m := t.mx
  let acc := m.acc.filter fun e => bit l.cm (e.1 / 4096)
  let a := if bit l.misc 0 then stationary m else Plane.reset
  let b := if bit l.misc 1 then shadow m else Plane.reset
  { t with
    regs := { t.regs with x := keepLive l.xm t.regs.x, v := keepLive l.vm t.regs.v, j := keepLive l.jm t.regs.j,
                          p := t.regs.p.filter fun e => bit l.pm e.1 || e.1 == 14 || e.1 == 15, k := keepLive l.km t.regs.k },
    streams := keepLive l.fm t.streams,
    mx := { Mx.reset with acc := acc, p0 := if m.front then b else a, p1 := if m.front then a else b, front := m.front },
    qnt := if bit l.misc 2 then t.qnt else Quant.reset,
    copies := t.copies.filter fun c => c.parked.isSome }

/-! ## Items (R334) -/

/-- An item, padded to a multiple of 8 bytes. -/
def pad8 (bs : List Byte) : List Byte := bs ++ List.replicate ((8 - bs.length % 8) % 8) 0
/-- An 8-byte item. -/
def item8 (n : Nat) : List Byte := leBytes 8 n
/-- A 128-byte item. -/
def item128 (v : Vec) : List Byte := vecBytes v

/-- The live indices of a mask. -/
def liveIdx {k : Nat} (mask : BitVec k) (n : Nat) : List Nat := (List.range n).filter fun i => bit mask i

/-- Field 1: x registers and the bank that is not mapped. -/
def field1 (l : Live) (t : Tile) : List Byte :=
  item8 l.xm.toNat ++ (liveIdx l.xm 64).flatMap (fun i => item8 (getX t i).toNat) ++
    (List.range 8).flatMap fun i => item8 (tget 0 t.regs.bank i).toNat
/-- Field 2: v registers. -/
def field2 (l : Live) (t : Tile) : List Byte := item8 l.vm.toNat ++ (liveIdx l.vm 64).flatMap fun i => item128 (tget 0 t.regs.v i)
/-- Field 3: j registers. -/
def field3 (l : Live) (t : Tile) : List Byte := item8 l.jm.toNat ++ (liveIdx l.jm 16).flatMap fun i => item128 (tget jReset t.regs.j i)
/-- Field 4: p and k registers. -/
def field4 (l : Live) (t : Tile) : List Byte :=
  item8 (l.pm.toNat + l.km.toNat * 65536) ++ pad8 ((liveIdx l.pm 16).flatMap fun i => leBytes 1 (getP t i).toNat) ++
    (liveIdx l.km 8).flatMap fun i => item8 (tget 0 t.regs.k i).toNat

/-- Field 5: the streams that are bound and live: bind words, elements transferred, elements buffered. -/
def field5 (l : Live) (t : Tile) : List Byte :=
  let bound := t.streams.filter fun e => bit l.fm e.1
  item8 (bound.map fun e => 2 ^ e.1).sum ++ bound.flatMap fun e =>
    let st := e.2
    let ctl := e.1 + (if st.write then 16 else 0) + st.esz * 32 + (st.counts.length - 1) * 256 + st.h * 65536
    item8 ctl ++ item8 (packNat 16 st.counts) ++ item8 (packNat 16 (st.strides.map (wrapInt 16))) ++ item8 st.base ++ item8 st.moved ++
      item8 st.buf.length ++ st.buf.flatMap fun q => pad8 (leBytes (sizeOf st.esz) q.1.toNat)

/-- The unread results of a port: a free-running socket keeps its current value. -/
def portResults (t : Tile) (sock y : Nat) : List Vec :=
  let p := portOf (sockOf t sock) y
  if sockFree t sock then [p.val] else p.fifo.map Result.val

/-- Field 6: operand ports and unread results. -/
def field6 (t : Tile) : List Byte :=
  ((List.range 19).map (· + 1)).flatMap fun sock =>
    let k := sockOf t sock
    let ys := (List.range (portCount sock)).map (portResults t sock)
    let present := (k.o.map fun e => 2 ^ e.1).sum
    let held := ((k.o.filter fun e => e.2.held).map fun e => 2 ^ e.1).sum
    leBytes 1 sock ++ leBytes 1 present ++ leBytes 1 held ++ leBytes 1 0 ++ leBytes 4 (packNat 4 (ys.map List.length)) ++
      k.o.flatMap (fun e => item128 e.2.val) ++ ys.flatMap fun rs => rs.flatMap item128

/-- Field 7: accumulators. -/
def field7 (l : Live) (t : Tile) : List Byte :=
  item8 l.cm.toNat ++ (liveIdx l.cm 8).flatMap fun i => (List.range 4096).flatMap fun j => leBytes 4 (tget 0 t.mx.acc (i * 4096 + j)).toNat

/-- A number in the internal form of R54: sign, biased exponent, significand. -/
def internalBits : Num → Nat
  | .nan => 0x3FF * 2 ^ 24 + 1
  | .inf neg => (if neg then 2 ^ 34 else 0) + 0x3FF * 2 ^ 24
  | .fin neg m e =>
    if m = 0 then 0
    else
      let n := bitLen m
      let sig := if n ≤ 24 then m * 2 ^ (24 - n) else m / 2 ^ (n - 24)
      (if neg then 2 ^ 34 else 0) + (e + (n : Int) - 1 + 511).toNat % 1024 * 2 ^ 24 + sig

/-- A plane of field 8: its tag, then its weights column by column. -/
def planeBytes (p : Plane) : List Byte :=
  let fmt := p.fmt
  item8 (p.layout + (if p.int then 4 else 0) + fmt % 8 * 16 + p.ncol % 128 * 256) ++ (List.range p.ncol).flatMap fun c =>
    let ws := planeWeights p c
    ws.flatMap (fun e => item8 (internalBits e.2)) ++ if p.layout = 0 then [] else pad8 (ws.flatMap fun e => leBytes 1 (e.1 % 8))
where
  /-- The stored weights of a column: S of them, a stored zero of an unwritten sparse plane at its group's first positions. -/
  planeWeights (p : Plane) (c : Nat) : List (Nat × Num) :=
    let es := (p.w.filter fun e => e.1 / 256 == c).map fun e => (e.1 % 256, e.2)
    if p.layout = 0 then (List.range 64).map fun i => (i, tget (.fin false 0 0) es i) else es

/-- Field 8: planes. -/
def field8 (l : Live) (t : Tile) : List Byte :=
  (if bit l.misc 0 then planeBytes (stationary t.mx) else []) ++ if bit l.misc 1 then planeBytes (shadow t.mx) else []

/-- A number as binary32. -/
def asBinary32 (x : Num) : Nat := encodePlain 0 0 x

/-- Field 9: quantiser state. -/
def field9 (l : Live) (t : Tile) : List Byte :=
  let q := t.qnt
  if !bit l.misc 2 then []
  else
    leBytes 1 q.tau ++ leBytes 1 (if q.t6 then 1 else 0) ++ leBytes 1 q.fe ++ leBytes 1 q.fb ++ leBytes 1 q.fs ++
      leBytes 1 (if q.configured then 1 else 0) ++ leBytes 2 0 ++ item8 q.elems ++ item8 q.blocks ++ item8 q.sat ++
      pad8 (leBytes 1 q.pending.length) ++ pad8 (leBytes 1 (if q.bound.isSome then 1 else 0)) ++
      pad8 (leBytes 2 (wrapInt 16 (q.emax.getD 0))) ++ pad8 (leBytes 2 (wrapInt 16 (q.emin.getD 0))) ++
      pad8 (leBytes 4 ((q.bound.map asBinary32).getD 0)) ++ pad8 (q.pending.flatMap fun x => leBytes 4 (asBinary32 x)) ++
      item8 q.ranges.length ++ q.ranges.flatMap fun r => item8 (match r with | some b => asBinary32 b | none => 2 ^ 32)

/-- Field 10: CSRs, sluices, semaphores, the event list. -/
def field10 (t : Tile) : List Byte :=
  let c := t.csr
  [c.fmt, c.sockmode, c.stc, c.qib, c.cutn, c.npt, c.npf, c.est, c.fstat, c.faddr, c.uivec, c.uicause, c.uiepc, statusWord t, c.cause,
      c.epc].flatMap (fun w => item8 w.toNat) ++
    (List.range 64).flatMap (fun i =>
      let x := tget Sluice.reset t.sluices i
      let row := if x.row = 16 then relRow t else x.row
      let col := if x.row = 16 then relCol t else x.col
      leBytes 5 x.c ++ leBytes 5 x.t ++ leBytes 1 x.p ++ leBytes 1 (if x.ovf then 1 else 0) ++
        leBytes 2 (row + col * 16 + x.lh * 256 + x.lw * 2048 + if x.span then 2 ^ 14 else 0) ++ leBytes 2 0) ++
    (List.range 16).flatMap (fun i => let x := tget Sem.reset t.sems i; item8 (x.val + if x.ovf then 2 ^ 32 else 0)) ++
    item8 t.ctl.events.length ++ t.ctl.events.flatMap fun e => item8 e.toNat

/-- Field 11: the PC and the loop levels, outermost first. -/
def field11 (t : Tile) : List Byte :=
  item8 t.pc.toNat ++ item8 t.ctl.loops.length ++ t.ctl.loops.reverse.flatMap fun l =>
    leBytes 2 l.top ++ leBytes 2 l.last ++ leBytes 1 l.stages ++ leBytes 3 0 ++ leBytes 8 l.trips ++ leBytes 8 l.pass ++
      (List.range 6).flatMap (fun i => leBytes 1 ((l.window[i]?).getD 0).toNat) ++ leBytes 2 0 ++ leBytes 8 l.strides.toNat ++ leBytes 8 0

/-- Field 12: the tile table with handle states. -/
def field12 (s : State) (t : Tile) : List Byte :=
  (List.range 1024).flatMap fun h =>
    match tfind t.table h with
    | none => List.replicate 32 0
    | some e =>
      let st := hstateOf s e
      leBytes 1 1 ++ leBytes 1 (if e.tracked then 1 else 0) ++ leBytes 1 (if e.tracked then st.st else 0) ++ leBytes 1 0 ++
        leBytes 2 (if e.tracked then st.count else 0) ++ leBytes 2 e.declared ++ leBytes 8 (shapeWord { e with declared := 0 }) ++ leBytes 8 e.size ++
        leBytes 8 (storageWord e 0).toNat

/-- Field 13: the contents of the handles whose storage the tile owns. -/
def field13 (blocks : List Block) (owner : Nat) (t : Tile) : List Byte :=
  t.table.flatMap fun e =>
    match blocks.find? fun b => b.owner == owner && b.key == storeKey e.2 with
    | some b => item8 e.1 ++ item8 e.2.size ++ pad8 (mread b.mem 0 e.2.size)
    | none => []

/-- Field 14: receive queues, cq, spillway. -/
def field14 (t : Tile) : List Byte :=
  (List.range 4).flatMap (fun q => let es := tget [] t.net.q q; item8 es.length ++ es.flatMap item128) ++
    item8 t.net.cq.length ++ t.net.cq.flatMap (fun w => item8 w.toNat) ++ item8 t.net.spill.length ++
    t.net.spill.flatMap fun e => item8 (e.1 % 4) ++ item128 e.2

/-- The cursor of a copy: its ten indices (R251). -/
def cursorOf (c : Copy) : List Nat :=
  ((List.range 10).foldl (fun (r : List Nat × Nat) k =>
    match (copyCounts c.desc)[k]? with
    | some n => (r.1 ++ [r.2 % max 1 n], r.2 / max 1 n)
    | none => (r.1 ++ [0], r.2)) ([], c.done)).1

/-- Field 15: parked copies. -/
def field15 (t : Tile) : List Byte :=
  item8 t.copies.length ++ t.copies.flatMap fun c =>
    item128 c.desc ++ (cursorOf c).flatMap (fun i => leBytes 2 i) ++ leBytes 4 0 ++ item8 c.bytes ++ item8 c.poi

/-- The cq element of a completion (R279). -/
def completionElem (p : Parent) : Nat := p.st * 2 ^ 24 + p.tag % 2 ^ 16

/-- A tile holds shadow results or a captured FMT write (R99): its image is a fault image (R314). -/
def holdsShadow (t : Tile) : Bool := !t.ctl.captured.isEmpty || !t.ctl.capturedFmt.isEmpty

/-- Field 16: captured results with their remaining latencies, then the pending FMT write; where more than one is pending, each in the same
form (log 17). -/
def field16 (t : Tile) : List Byte :=
  let pend := fun (p : Nat × FmtWrite) => item8 p.1 ++ item8 p.2.field ++ item8 p.2.val ++ item8 p.2.rem
  item8 t.ctl.captured.length ++
    t.ctl.captured.flatMap (fun c => leBytes 1 c.sock ++ leBytes 1 c.port ++ leBytes 2 c.op.rem ++ leBytes 4 0 ++ item128 c.op.val) ++
    if t.ctl.capturedFmt.isEmpty then pend (0, { rem := 0, field := 0, val := 0 }) else t.ctl.capturedFmt.flatMap fun p => pend (1, p)

/-- Field 17: node-wide. -/
def field17 (n : Node) (tiles : List Tile) (held : List Parent) : List Byte :=
  item8 (n.decl.lh + n.decl.lw * 8 + n.decl.span * 256) ++
    tiles.flatMap (fun t => item8 t.net.sent.toNat ++ item8 t.net.received.toNat ++ item8 t.net.lost.toNat) ++
    item8 held.length ++ held.flatMap (fun p => item8 (completionElem p)) ++
    (List.range 8).flatMap fun i => item8 ((n.params[i]?).getD 0).toNat

/-! ## The container (R332, R333) -/

/-- The position word of a field. -/
def fieldPos (t : Tile) : Nat := t.place.part * 256 + relRow t % 16 * 16 + relCol t % 16

/-- The field table and the contents: id, position and bytes of each field. -/
def layFields : List (Nat × Nat × List Byte) → Nat → List Byte × List Byte
  | [], _ => ([], [])
  | f :: fs, off =>
    let body := pad8 f.2.2
    let r := layFields fs (off + body.length)
    (leBytes 2 f.1 ++ leBytes 2 1 ++ leBytes 2 f.2.1 ++ leBytes 2 0 ++ leBytes 4 f.2.2.length ++ leBytes 4 off ++ r.1, body ++ r.2)

/-- An image's bytes: header, field table, fields. The code gives the generation, `state` and `kind` are those of R332. -/
def imageBytes (gen step state kind level seq : Nat) (cut : Word) (hash : List Byte) (fields : List (Nat × Nat × List Byte)) : List Byte :=
  let n := fields.length
  let r := layFields fields (64 + 16 * n)
  leBytes 4 0x31474D49 ++ leBytes 2 1 ++ leBytes 1 gen ++ leBytes 1 step ++ leBytes 1 state ++ leBytes 1 kind ++ leBytes 1 level ++ leBytes 1 0 ++
    leBytes 4 n ++ leBytes 8 seq ++ leBytes 8 cut.toNat ++ slice hash 0 8 ++ leBytes 8 64 ++ leBytes 8 (64 + 16 * n + r.2.length) ++ leBytes 8 0 ++
    r.1 ++ r.2

/-- The storage of a node's handles, each once, owned by the first tile that maps it. -/
def nodeBlocks (n : Node) (s : State) : List Block :=
  ((nodeTiles n).zipIdx.foldl (fun (bs : List Block) q =>
    (tileAt s q.1).table.foldl (fun bs e =>
      let k := storeKey e.2
      if bs.any fun b => b.key == k then bs.map fun b => if b.key = k then { b with size := max b.size e.2.size } else b
      else
        bs ++ onTileBlock q.1 q.2 e.2 s) bs) [])
where
  /-- One block, read with the tile in focus. -/
  onTileBlock (i : TileId) (owner : Nat) (e : Entry) (s : State) : List Block :=
    let s := focus i s
    let size := (s.dev.allocs.find? fun a => a.space == e.space && a.off == e.off).map Alloc.size |>.getD e.size
    let m := (spaceMem s e.space).filter fun c => decide (e.off ≤ c.1 ∧ c.1 < e.off + size)
    let ps := (spacePoison s e.space).filter fun w => decide (e.off ≤ w * 8 ∧ w * 8 < e.off + size)
    let st := hstateOf s e
    [{ key := storeKey e, owner := owner, level := e.level, size := size, mem := m.map fun c => (c.1 - e.off, c.2),
       poison := ps.map fun w => w - e.off / 8, st := st.st, count := st.count }]

/-- The image of a stopped node (R331-R334), sealed; one of a tile that holds shadow results is a fault image, whose cut is the tile's CUTN
(R314, R332). -/
def makeImage (n : Node) (s : State) : Image :=
  let tiles := (nodeTiles n).map fun i => tileAt s i
  let kind := if tiles.any holdsShadow then 1 else 0
  let cut := if kind = 1 then ((tiles.find? holdsShadow).map fun t => t.csr.cutn).getD 0 else n.target.getD 0
  let blocks := nodeBlocks n s
  let held := s.dev.hw.completions.filter fun p => decide (p.ref = n.ref)
  let mains := (s.dev.mains.filter fun m => decide (m.node = n.ref) && m.bound).map fun m =>
    { handle := m.handle, part := m.part, serial := m.id, desc := m.desc }
  let perTile := tiles.zipIdx.flatMap fun q =>
    let t := savedTile q.1
    let l := liveOf q.1
    let p := fieldPos q.1
    [(1, p, field1 l t), (2, p, field2 l t), (3, p, field3 l t), (4, p, field4 l t), (5, p, field5 l t), (6, p, field6 t), (7, p, field7 l t),
     (8, p, field8 l t), (9, p, field9 l t), (10, p, field10 t), (11, p, field11 t), (12, p, field12 s t), (13, p, field13 blocks q.2 t),
     (14, p, field14 t), (15, p, field15 t)] ++ if kind = 1 then [(16, p, field16 t)] else []
  let obj := objectOf s n
  let level := ((funcOf s n).map Func.level).getD 1
  let step := match n.parts with | q :: _ => ((s.dev.dies[q.1]?).map Die.stepping).getD 3 | [] => 3
  let seq := 1 + n.images.foldl (fun m i => if i.state = 1 then max m i.seq else m) 0
  { seq := seq, state := 1, kind := kind, level := level, step := step, cut := cut,
    bytes := imageBytes ((obj.map CodeObject.gen).getD 1) step 1 kind level seq cut ((obj.map CodeObject.hash).getD [])
      (perTile ++ [(17, 0xFFFF, field17 n tiles held)]),
    tiles := tiles.map savedTile, blocks := blocks, mains := mains }

/-- An image's header in a state of R332 that is not sealed: of what follows it nothing is read any more. -/
def headerOnly (state : Nat) (i : Image) : Image :=
  { i with state := state, bytes := setAt (i.bytes.take 64) 8 (BitVec.ofNat 8 state), tiles := [], blocks := [], mains := [] }

/-- The last sealed image. -/
def lastImage (n : Node) : Option Image :=
  n.images.foldl (fun (b : Option Image) i =>
    if i.state ≠ 1 then b else match b with | some j => if j.seq < i.seq then some i else b | none => some i) none

/-- The two image slots after a new image, written, sealed or torn (R331, R313): the last sealed one stays. -/
def putImage (i : Image) (n : Node) : Node := { n with images := (lastImage n).toList ++ [i] }

/-! ## Restore (R88, R333, R337, R373) -/

/-- A tile with its reset and placement values, and then the image's: the sluices and semaphores take the timebase of the die. -/
def restoreRegs (saved : Tile) (tsc : Word) (t : Tile) : Tile :=
  { t with
    regs := saved.regs, csr := { saved.csr with npos := t.csr.npos, param := t.csr.param, status := saved.csr.status },
    socks := saved.socks, streams := saved.streams, mx := saved.mx, qnt := saved.qnt, pc := saved.pc,
    run := if saved.run = .cut then .go else saved.run,
    ctl := { saved.ctl with stop := none, reported := none },
    code := { t.code with strokes := saved.code.strokes, running := saved.code.running },
    net := { t.net with q := saved.net.q, cq := saved.net.cq, spill := saved.net.spill, sent := saved.net.sent, received := saved.net.received,
                        lost := saved.net.lost },
    sluices := saved.sluices.map fun e => (e.1, { e.2 with ts := tsc }), sems := saved.sems.map fun e => (e.1, { e.2 with ts := tsc }),
    perf := { t.perf with quietGap := saved.perf.quietGap } }

/-- New storage for a block, from its owner's tile in focus: the new space and offset, with the contents and the handle state. -/
def placeBlock (b : Block) (s : State) : Option (Nat × Nat) × State :=
  match findSpace s b.level b.size with
  | none => (none, s)
  | some (space, off) =>
    let clear := (spaceMem s space).filter fun c => !decide (off ≤ c.1 ∧ c.1 < off + b.size)
    let m := b.mem.foldl (fun m c => mset m (off + c.1) c.2) clear
    let ps := (spacePoison s space).filter fun w => !decide (off ≤ w * 8 ∧ w * 8 < off + b.size)
    let s := putSpace s space m (ps ++ b.poison.map fun w => w + off / 8)
    let s := { s with dev := { s.dev with hstate := tset { st := 0, count := 0 } s.dev.hstate (space * 2 ^ 26 + off) { st := b.st, count := b.count } } }
    (some (space, off), { s with dev := { s.dev with allocs := s.dev.allocs ++ [{ space := space, off := off, size := b.size, refs := 0 }] } })

/-- Every block placed: the new place of each key. -/
def placeBlocks (ids : List TileId) (bs : List Block) (s : State) : List (Nat × Nat × Nat) × State :=
  bs.foldl (fun (r : List (Nat × Nat × Nat) × State) b =>
    match ids[b.owner]? with
    | none => r
    | some i =>
      let back := r.2.cur.id
      let q := placeBlock b (focus i r.2)
      (match q.1 with | some x => r.1 ++ [(b.key, x.1, x.2)] | none => r.1, focus back q.2)) ([], s)

/-- The table of a restored tile in focus, on the new storage; its parked copies name it again. -/
def restoreTable (saved : Tile) (where_ : List (Nat × Nat × Nat)) (s : State) : State :=
  let s := saved.table.foldl (fun s e =>
    match where_.find? fun q => q.1 == storeKey e.2 with
    | some q => putEntry e.1 (some { e.2 with space := q.2.1, off := q.2.2 }) s
    | none => s) s
  onCur (fun t => { t with copies := saved.copies.map fun c =>
    { c with src := resolveWord t (copySrc c.desc), dst := resolveWord t (copyDst c.desc), buf := [], put := 0, rows := none } }) s

end Sys2Proof.Machine
end

