-- ==== Sys2Proof/Machine/Routes.lean ====
section
/-!
DEFINITION. Machine/Routes.lean: routes that avoid dead links (R322, R324, R325): the routing tables that the supervisor writes, new routes and
transits of circuits, and whether traffic has a route at all.
-/
namespace Sys2Proof.Machine

/-! ## Reaching routers of a die -/

/-- A mesh port of a router leads to its neighbour over a link that is not dead. -/
def openPort (s : State) (d r p : Nat) : Option Nat := if (linkOf s (meshLink d r p)).dead then none else neighbour r p

/-- Distances to a router improved by one hop; 99 stands for none found. -/
def relax (s : State) (d : Nat) (ds : List Nat) : List Nat :=
  (List.range 16).map fun r => ((List.range 4).filterMap fun p => (openPort s d r p).map fun q => ds.getD q 99 + 1).foldl min (ds.getD r 99)

/-- The hops from every router of a die to one of them over living links. -/
def distances (s : State) (d dest : Nat) : List Nat :=
  (List.range 16).foldl (fun ds _ => relax s d ds) ((List.range 16).map fun r => if r = dest then 0 else 99)

/-- A router of a die reaches another. -/
def reaches (s : State) (d a b : Nat) : Bool := decide ((distances s d b).getD a 99 < 99)

/-- The die-to-die link between two dies, with the edge links at both of its adapters, lives. -/
def diesJoined (s : State) (a b : Nat) : Bool :=
  let x := adapterAt a b
  let y := adapterAt b a
  [meshLink a x.1 x.2, dieLink a b, meshLink b y.1 y.2].all fun k => !(linkOf s k).dead

/-- Two dies have a route, direct or over a third. -/
def diesRoute (s : State) (a b : Nat) : Bool :=
  diesJoined s a b || (List.range s.dev.dies.length).any fun z => z != a && z != b && diePresent s z && diesJoined s a z && diesJoined s z b

/-- The routers of a rectangle's clusters. -/
def rectRouters (row col h w : Nat) : List Nat := ((block row col h w).map fun q => q.1 / 4 * 4 + q.2 / 4).eraseDups

/-- The traffic of a rectangle on a die has routes: every router of it reaches every other. -/
def rectRoutes (s : State) (d row col h w : Nat) : Bool :=
  let rs := rectRouters row col h w
  rs.all fun a => rs.all fun b => reaches s d a b

/-- No link is dead. -/
def linksLive (s : State) : Bool := s.dev.links.all fun q => !q.2.dead

/-- The packets of a node whose parts stand so have routes (R325). -/
def partsRoute (s : State) (h w : Nat) (parts : List (Nat × Nat × Nat)) : Bool :=
  linksLive s || parts.all fun q => rectRoutes s q.1 q.2.1 q.2.2 h w && parts.all fun p => p.1 == q.1 || diesRoute s q.1 p.1

/-! ## Routing tables (R322) -/

/-- The table's route from a router to another meets no dead link; the fuel bounds the hops. -/
def tableClean (s : State) (d dest : Nat) : Nat → Nat → Bool
  | 0, _ => false
  | k + 1, r => r == dest || match openPort s d r (innerPort s d r dest) with | some q => tableClean s d dest k q | none => false

/-- One of several, by a free value: which route the supervisor takes is not given (log 19). -/
def pick {α : Type} (fresh : Nat) (xs : List α) : Option α := xs[(Config.freeValue fresh).toNat % max 1 xs.length]?

/-- The port that the supervisor writes for a router and a destination of its die: the table's own where its route is clean, else one of those
on a shortest route. -/
def newPort (s : State) (d fresh r dest : Nat) : Option Nat :=
  if tableClean s d dest 17 r then none
  else
    let ds := distances s d dest
    pick fresh ((List.range 4).filter fun p =>
      match openPort s d r p with | some q => decide (ds.getD q 99 + 1 = ds.getD r 99) | none => false)

/-- The die over which the traffic for another goes: the table's own where its links live, the other itself, or one that joins both. -/
def newVia (s : State) (d fresh y : Nat) : Option Nat :=
  let v := viaDie s d y
  if diesJoined s d v ∧ (v = y ∨ diesJoined s v y) then none
  else if diesJoined s d y then some y
  else pick fresh ((List.range s.dev.dies.length).filter fun z => z != d && z != y && diePresent s z && diesJoined s d z && diesJoined s z y)

/-- The routing tables of a die written so that they avoid every dead link (R322). -/
def rewriteTables (d : Nat) (s : State) : State :=
  match s.dev.dies[d]? with
  | none => s
  | some x =>
    let inner := (List.range 256).filterMap fun k => (newPort s d (s.fresh + k) (k / 16) (k % 16)).map fun p => (32 * (k / 16) + k % 16, p + 1)
    let outer := (List.range 8).filterMap fun y => if y = d then none else (newVia s d (s.fresh + 256 + y) y).map fun z => (512 + y, z + 1)
    { putDie s d { x with routes := (inner ++ outer).foldl (fun t e => tset 0 t e.1 e.2) x.routes } with fresh := s.fresh + 264 }

/-! ## Circuits (R324) -/

/-- The routes without repeated routers from a router to another over living links of a rectangle's routers; the fuel bounds the hops. -/
def simpleRoutes (s : State) (d : Nat) (rs : List Nat) (dest : Nat) : Nat → List Nat → Nat → List (List Output)
  | 0, _, _ => []
  | k + 1, seen, r =>
    if r = dest then [[(r / 4, r % 4, 4)]]
    else (List.range 4).flatMap fun p =>
      match openPort s d r p with
      | some q => if q ∈ seen ∨ q ∉ rs then [] else (simpleRoutes s d rs dest k (q :: seen) q).map fun w => (r / 4, r % 4, p) :: w
      | none => []

/-- The outputs from a source to a router, from the router backward: at each the first port in an order that leads nearer to the source. -/
def treeRoute (s : State) (d src : Nat) (order : List Nat) : Nat → Nat → List Output → List Output
  | 0, _, w => w
  | k + 1, r, w =>
    if r = src then w
    else
      let ds := distances s d src
      match order.filterMap (fun p => (openPort s d r p).bind fun q => if ds.getD q 99 + 1 = ds.getD r 99 then some (q, p) else none) with
      | (q, p) :: _ => treeRoute s d src order k q ((q / 4, q % 4, (p + 2) % 4) :: w)
      | [] => []

/-- The route sets that a circuit of a tile could take: the simple routes of a unicast circuit, shortest trees of a multicast one (log 19). -/
def routeChoices (s : State) (d : Nat) (rs : List Nat) (q : Nat × Circuit) : List (List (List Output)) :=
  let src := q.1 / 16 / 4 * 4 + q.1 % 16 / 4
  let dests := (circuitDests q.2).map fun x => x.1 / 4 * 4 + x.2 / 4
  if !q.2.multi then (dests.take 1).flatMap fun x => (simpleRoutes s d rs x 16 [src] src).map fun w => [w]
  else
    ([0, 1, 2, 3].permutations.map fun o => dests.map fun x => treeRoute s d src o 16 x [(x / 4, x % 4, 4)]).filter fun ws => ws.all fun w => !w.isEmpty

/-- A circuit's routes cross a dead link of its die. -/
def crossesDead (s : State) (d : Nat) (q : Nat × Circuit) : Bool :=
  (circuitRoutes q.1 q.2).any fun w => w.any fun o => decide (o.2.2 < 4) && (linkOf s (meshLink d (4 * o.1 + o.2.1) o.2.2)).dead

/-- The latency of the longest of some routes. -/
def routesLatency (ws : List (List Output)) : Nat := (ws.map fun w => Config.routeLatency w.length).foldl max 0

/-- A circuit rerouted beside others (R324): its transit stays where a conflict-free route of no greater latency exists, else it becomes the
least conflict-free value up to 4,095; none where there is none. -/
def rerouteCircuit (s : State) (d : Nat) (rs : List Nat) (rev fresh : Nat) (others : List (Nat × Circuit)) (q : Nat × Circuit) :
    Option (Nat × Circuit) :=
  let used := others.flatMap (occupied rev)
  let free := (routeChoices s d rs q).filter fun ws => (occupied rev (q.1, { q.2 with route := ws })).all fun o => decide (o ∉ used)
  match pick fresh (free.filter fun ws => decide (routesLatency ws ≤ q.2.transit)) with
  | some ws => some (q.1, { q.2 with route := ws })
  | none =>
    let least := (free.map routesLatency).foldl min 4096
    if 4095 < least then none
    else (free.find? fun ws => decide (routesLatency ws = least)).map fun ws => (q.1, { q.2 with route := ws, transit := least })

/-- The circuits of one part of a node on a die with those that cross a dead link rerouted one after the other (R324); none where one has no
conflict-free route (R325). -/
def rerouteAll (s : State) (d : Nat) (rs : List Nat) (rev fresh : Nat) : List (Nat × Circuit) → List (Nat × Circuit) → Option (List (Nat × Circuit))
  | done, [] => some done
  | done, q :: qs =>
    if crossesDead s d q then (rerouteCircuit s d rs rev fresh (done ++ qs.filter fun x => !crossesDead s d x) q).bind fun x =>
      rerouteAll s d rs rev (fresh + 1) (done ++ [x]) qs
    else rerouteAll s d rs rev (fresh + 1) (done ++ [q]) qs

/-- The circuits of one part of a node, by their positions on the die, have routes there (R325). -/
def circuitsRoute (s : State) (d : Nat) (rs : List Nat) (rev : Nat) (cs : List (Nat × Circuit)) : Bool :=
  linksLive s || (rerouteAll s d rs rev s.fresh [] cs).isSome

end Sys2Proof.Machine
end

