-- ==== Sys2Proof/Machine/Placement.lean ====
section
/-!
DEFINITION. Machine/Placement.lean: the intakes (R21, R25, R281-R286): free rectangles, placement rounds, queue rounds, reservations,
victims, and what an intake loads on a tile (R77, R78, R88-R90, R209, R273, R318, R353).
-/
namespace Sys2Proof.Machine

/-! ## Loading a tile (R88) -/

/-- A pos field names a tile of a part (R77, R398). -/
def posNames (pos part row col : Nat) : Bool :=
  bitsOf pos 15 1 == 1 && (bitsOf pos 14 1 == 0 || bitsOf pos 8 2 == part) && bitsOf pos 4 4 == row && bitsOf pos 0 4 == col

/-- What a pos field selects for a tile: the entries that name it, and those that name no tile where no stroke header names it. -/
def posSelects (f : Func) (part row col pos : Nat) : Bool :=
  if bitsOf pos 15 1 = 1 then posNames pos part row col else !(f.strokes.any fun k => posNames k.pos part row col)

/-- NPOS (R89). -/
def nposWord (s : State) (n : Node) (die part row col : Nat) : Word :=
  let m := ((s.dev.dies[die]?).map Die.m).getD false
  BitVec.ofNat 64 (n.cls % 4 * 2 ^ 22 + (if m then 0 else 2 ^ 21) + part % 4 * 2 ^ 18 + (n.decl.span - 1) % 4 * 2 ^ 16 + row % 16 * 2 ^ 12 +
    col % 16 * 2 ^ 8 + n.decl.lh % 8 * 16 + n.decl.lw % 8)

/-- A declared sluice armed on a tile (R273, R364). -/
def armSluice (row col : Nat) (d : Nat × Nat × Nat × Bool × Nat) (t : Tile) : Tile :=
  let (i, lh, lw, span, target) := d
  putSluice t i { Sluice.reset with t := target, row := row / 2 ^ lh * 2 ^ lh, col := col / 2 ^ lw * 2 ^ lw, lh := lh, lw := lw, span := span }

/-- A declared handle created on the tile in focus, its storage zeroed where another context ran there before (R78, R209). -/
def createHandle (zero : Bool) (d : HandleDecl) (s : State) : State :=
  let level := handleLevel d.h
  match findSpace s level (shapeSize d.shape) with
  | none => s
  | some (space, off) =>
    let e := mkEntry level space off d.shape false
    let s := putEntry d.h (some e) s
    if !zero then s
    else
      putSpace s space ((spaceMem s space).filter fun c => !decide (off ≤ c.1 ∧ c.1 < off + e.size))
        ((spacePoison s space).filter fun w => !decide (off ≤ w * 8 ∧ w * 8 < off + e.size))

/-- Contents of a data entry written into a declared handle (R78). -/
def writeData (d : HandleDecl) (bs : List Byte) (s : State) : State :=
  match tfind s.cur.table d.h with
  | none => s
  | some e => putSpace s e.space (mwrite (spaceMem s e.space) (e.off + d.off) bs) (poisonCleared (spacePoison s e.space) 8 (e.off + d.off) bs.length)

/-- What an intake does on a tile that a node is placed on (R88): every item in its reset state, then storage, CSRs, sluices, handles,
strokes and circuits. Where an image is restored, its table stands in place of the declared handles (R213). What the node's predecessors and
its parent have written is ordered before its accesses (R263). -/
def loadTile (n : Node) (f : Func) (restored : Bool) (part : Nat) (origin : TileId) (s : State) : State :=
  let t := s.cur
  let row := t.id.row - origin.row
  let col := t.id.col - origin.col
  let same := t.prevCtx == some n.ref.ctx
  let strokes := (f.strokes.filter fun k => posSelects f part row col k.pos).drop n.phase
  let period := if n.decl.wdog = 0 then 2 ^ 32 else n.decl.wdog
  let code : Code :=
    { ibuf := f.bundles.zipIdx.map fun q => (256 + q.2, q.1), loaded := f.bundles.length, strokes := strokes,
      running := false, live := f.live, period := period, bad := [] }
  let csr := { Csr.reset with
    qib := BitVec.ofNat 64 (n.decl.qib % 2 ^ 32 + if n.decl.qen then 2 ^ 32 else 0), est := BitVec.ofNat 64 (n.decl.est % 2 ^ 40),
    npos := nposWord s n t.id.die part row col,
    param := (n.params.zipIdx).foldl (fun p q => tset 0 p q.2 q.1) [], status := if n.decl.has 3 && !s.dev.variantH then 0x80 else 0 }
  let place : Place := { node := some n.ref, origin := origin, part := part, span := n.decl.span, lh := n.decl.lh, lw := n.decl.lw }
  let fresh := { Tile.reset t.id with
    place := place, code := code, csr := csr, net := { Net.reset with circuits := circuitsOf f row col, rev := f.rev }, wheel := t.wheel,
    serial := t.serial, prevCtx := t.prevCtx, know := (learn 1 (allWrites s) (learn 0 (allWrites s) (Tile.reset t.id))).know, perf := { t.perf with hang := 0, quietGap := 0, powerStall := 0 },
    well := if same then t.well else [], wellPoison := if same then t.wellPoison else [] }
  let s := { s with cur := n.decl.sluices.foldl (fun t d => armSluice row col d t) fresh }
  (if restored then [] else f.handles.filter fun d => posSelects f part row col d.pos).foldl (fun s d =>
    match d.bytes with
    | none => createHandle (!same) d s
    | some bs => writeData d bs s) s
where
  /-- The circuits of a tile of the rectangle. -/
  circuitsOf (f : Func) (row col : Nat) : List Circuit := (f.circuits.filter fun q => q.1 == row * 16 + col).map Prod.snd

/-- The tiles of a node with their part and origin, by part, row, column. -/
def placedTiles (n : Node) : List (TileId × Nat × TileId) :=
  n.parts.zipIdx.flatMap fun ((d, r, c), part) =>
    (block r c (2 ^ n.decl.lh) (2 ^ n.decl.lw)).map fun (a, b) =>
      ({ die := d, row := a, col := b }, part, { die := d, row := r, col := c })

/-- An image's tiles restored on a node's new tiles (R331, R333, R337). -/
def restoreNode (n : Node) (i : Image) (s : State) : State :=
  let ids := nodeTiles n
  let r := placeBlocks ids i.blocks s
  (ids.zip i.tiles).foldl (fun s q =>
    onTile q.1 (fun s => restoreTable q.2 r.1 (onCur (restoreRegs q.2 (tscOf s)) s)) s) r.2

/-- A main of the node still to be bound again waits on a migrating page (R219, R353). -/
def rebindWaits (n : Node) (s : State) : Bool := (rebinds s n).any fun q => (bindMain n q.part q.desc (some q.handle) s).isNone

/-- The dies' timebases raised by the release that a launched child's start synchronises with (R267, R373). -/
def raiseParts (n : Node) (s : State) : State :=
  match n.parent with
  | none => s
  | some p => n.parts.foldl (fun s q =>
      match s.dev.dies[q.1]? with
      | some d => if d.tsc.toNat < p.ts.toNat + 1 then putDie s q.1 { d with tsc := p.ts + 1 } else s
      | none => s) s

/-- A gang node that has no "go" does not start (R288). -/
def gangHolds (s : State) (r : NodeRef) : Bool := s.dev.hw.gangs.any fun g => decide (r ∈ g.nodes) && g.sent != some true

/-- The circuits of a part of a node on their die, with the positions of their tiles there. -/
def partCircuits (s : State) (n : Node) (q : Nat × Nat × Nat) : List (Nat × Circuit) :=
  (block q.2.1 q.2.2 (2 ^ n.decl.lh) (2 ^ n.decl.lw)).flatMap fun x => circuitsAt (tileAt s { die := q.1, row := x.1, col := x.2 })

/-- A part's circuits written back to their tiles: the routes and transits that the supervisor's slot tables give (R322, R324). -/
def writeCircuits (q : Nat × Nat × Nat) (cs : List (Nat × Circuit)) (s : State) : State :=
  cs.foldl (fun s x => onTile { die := q.1, row := x.1 / 16, col := x.1 % 16 } (onCur fun t =>
    { t with net := { t.net with circuits := t.net.circuits.map fun c =>
        if c.id = x.2.id then { c with route := x.2.route, transit := x.2.transit } else c } }) s) s

/-- The circuits of a node's part on a die rerouted (R324); none where one of them has no conflict-free route (R325). -/
def reroutePart (n : Node) (q : Nat × Nat × Nat) (s : State) : Option State :=
  let cs := partCircuits s n q
  let rev := (tileAt s { die := q.1, row := q.2.1, col := q.2.2 }).net.rev
  (rerouteAll s q.1 (rectRouters q.2.1 q.2.2 (2 ^ n.decl.lh) (2 ^ n.decl.lw)) rev s.fresh [] cs).map fun cs' =>
    { writeCircuits q cs' s with fresh := s.fresh + cs.length }

/-- The slot tables of a placed node that the intake writes: where a circuit's declared route crosses a dead link it takes another (R319, R325). -/
def routeParts (n : Node) (s : State) : State := n.parts.foldl (fun s q => (reroutePart n q s).getD s) s

/-- A placed node loaded on every tile of every part, which starts it (R280, R88): from its last sealed image that suits where it resumes (R84,
R336), else from its start; the owner learns that the last image was refused. The estimate runs from the header's (R285). -/
def loadNode (r : NodeRef) (s : State) : State :=
  match nodeOf s r with
  | none => s
  | some n =>
    match decide (n.state = .loading) && !gangHolds s r, funcOf s n with
    | true, some f =>
      let image := resumeImage s n
      let s := if image.isSome then rebindNode r s else s
      if image.isSome && rebindWaits n s then s
      else
        let s := (placedTiles n).foldl (fun s q => onTile q.1 (loadTile n f image.isSome q.2.1 q.2.2) s) s
        let s := if linksLive s then s else routeParts n s
        let s := match image with | some i => restoreNode n i s | none => s
        let s := if n.resume && image.map Image.seq != (lastImage n).map Image.seq then deviceEvent r.ctx 5 0 s else s
        let now := (cisternTsc s 0).toNat
        let est := (nodeTiles n).foldl (fun t i => tset 0 t (tileIndex i) (now + n.decl.est)) []
        let k := s.dev.hw.order
        let s := onHw (fun h => { h with order := k + 1 }) s
        raiseParts n (putNode { n with state := .running, resume := false, est := est, placed := k, sweep := none } s)
    | _, _ => s

/-! ## Free rectangles (R21, R281, R283, R284, R389) -/

/-- Two blocks of a die share a tile. -/
def overlaps (r c h w r' c' h' w' : Nat) : Bool := decide (r < r' + h' ∧ r' < r + h ∧ c < c' + w' ∧ c' < c + w)

/-- A node that the intake of a die may ever hold: class, logical mesh (R389), checked pairs (R272); a fault image is never migrated to another
die (R314). -/
def dieServes (s : State) (n : Node) (d : Nat) : Bool :=
  match s.dev.dies[d]? with
  | none => false
  | some x =>
    x.service && (n.cls == 2 || (n.cls == 0) == x.m) && !(x.m && s.dev.variantH) && (!x.reduced || decide (n.decl.lw ≤ 3)) &&
      (!n.decl.has 3 || (decide (1 ≤ n.decl.lw) && !s.dev.variantH)) &&
      match resumeImage s n with
      | some i => i.kind == 0 || (x.stepping == i.step && i.tiles.any fun t => t.id.die == d)
      | none => true

/-- The number of tiles that nodes hold in a block of a die. -/
def busyIn (s : State) (d r c h w : Nat) : Nat :=
  (s.dev.hw.nodes.map fun m =>
    (m.parts.map fun q =>
      if q.1 = d then
        (min (r + h) (q.2.1 + 2 ^ m.decl.lh) - max r q.2.1) * (min (c + w) (q.2.2 + 2 ^ m.decl.lw) - max c q.2.2)
      else 0).sum).sum

/-- A block is free for a node: nothing placed there, and no other node's reservation covers a tile of it (R283). -/
def blockFree (s : State) (n : Node) (d r c : Nat) : Bool :=
  let h := 2 ^ n.decl.lh
  let w := 2 ^ n.decl.lw
  busyIn s d r c h w == 0 &&
    match (s.dev.dies[d]?).bind Die.reserved with
    | none => true
    | some q => decide (q.node = n.ref) || (nodeOf s q.node).isNone || !overlaps r c h w q.row q.col (2 ^ q.lh) (2 ^ q.lw)

/-- The aligned origins of a node's shape on a die, lowest row first, then lowest column. -/
def origins (s : State) (n : Node) (d : Nat) : List (Nat × Nat) :=
  let cols := if ((s.dev.dies[d]?).map Die.reduced).getD false then 8 else 16
  let h := 2 ^ n.decl.lh
  let w := 2 ^ n.decl.lw
  (List.range (16 / h)).flatMap fun i => (List.range (cols / w)).map fun j => (i * h, j * w)

/-- The traffic of a part of a node has routes in a rectangle of a die: a node that needs a dead link is not placed there (R325). -/
def spotRoutes (s : State) (n : Node) (q : Nat × Nat × Nat) : Bool :=
  let h := 2 ^ n.decl.lh
  let w := 2 ^ n.decl.lw
  partsRoute s h w [q] &&
    match funcOf s n with
    | some f => circuitsRoute s q.1 (rectRouters q.2.1 q.2.2 h w) f.rev
        (f.circuits.map fun c => ((q.2.1 + c.1 / 16) * 16 + (q.2.2 + c.1 % 16), onDie q.2.1 q.2.2 c.2))
    | none => true

/-- The rectangle that a die can give a node now. -/
def spotOn (s : State) (n : Node) (d : Nat) : Option (Nat × Nat × Nat) :=
  if !dieServes s n d then none
  else ((origins s n d).find? fun q => blockFree s n d q.1 q.2 && spotRoutes s n (d, q.1, q.2)).map fun q => (d, q.1, q.2)

/-- The rectangles of all parts; none where too few dies can offer one. DESIGN CHOICE (log 24): R284 leaves the order of the intakes' offers
open, and with it which dies take the parts and in what order the part indices go; here the die of the round offers first, then the others
in ascending number. -/
def spotsFrom (s : State) (n : Node) (first : Nat × Nat × Nat) : Option (List (Nat × Nat × Nat)) :=
  let others := ((List.range s.dev.dies.length).filter fun d => d != first.1).filterMap fun d => spotOn s n d
  let all := (first :: others).take n.decl.span
  if all.length = n.decl.span ∧ partsRoute s (2 ^ n.decl.lh) (2 ^ n.decl.lw) all then some all else none

/-! ## The queues (R25, R282, R308) -/

/-- A node whose context's entries its queue hands out (R308). -/
def handedOut (s : State) (n : Node) : Bool := decide ((n.ref.ctx, n.cls, n.prio) ∉ s.dev.hw.frozenQ)

/-- The effective priority (R282). -/
def effective (n : Node) : Nat := min 7 (n.prio + n.rounds / 16)

/-- A node stands before another in a scan by an intake of a class (R25, R282): effective priority, the own class's queue first, ready
order. -/
def scansBefore (own : Nat) (a b : Node) : Bool :=
  let x := effective a
  let y := effective b
  decide (y < x) || (x == y && ((a.cls == own && b.cls != own) || ((a.cls == own) == (b.cls == own) && decide (a.seq < b.seq))))

/-- A node put into scan order. -/
def scanInsert (own : Nat) (n : Node) : List Node → List Node
  | [] => [n]
  | m :: ms => if scansBefore own n m then n :: m :: ms else m :: scanInsert own n ms

/-- A ready node stands in its package queue of 65,536; behind those it is in the ready pool and enters as room frees (R269). -/
def inQueue (s : State) (n : Node) : Bool :=
  decide ((s.dev.hw.nodes.filter fun m => decide (m.state = .ready ∧ m.cls = n.cls ∧ m.prio = n.prio ∧ m.seq < n.seq)).length < 65536)

/-- The nodes that an intake scans, in order. -/
def scanOrder (s : State) (d : Nat) : List Node :=
  let own := if ((s.dev.dies[d]?).map Die.m).getD false then 0 else 1
  (s.dev.hw.nodes.filter fun n => decide (n.state = .ready) && handedOut s n && inQueue s n && (n.cls == own || n.cls == 2)).foldr (scanInsert own) []

/-- Reservations of a node dropped on every die. -/
def dropReserved (r : NodeRef) (s : State) : State :=
  { s with dev := { s.dev with dies := s.dev.dies.map fun d =>
    match d.reserved with | some q => if q.node = r then { d with reserved := none } else d | none => d } }

/-- A reservation whose node is no longer ready is over. -/
def cleanReserved (s : State) : State :=
  { s with dev := { s.dev with dies := s.dev.dies.map fun d =>
    match d.reserved with
    | some q => (match nodeOf s q.node with | some n => if n.state = .ready then d else { d with reserved := none } | none => { d with reserved := none })
    | none => d } }

/-- A node placed on its rectangles, all parts at once (R281, R284). -/
def placeNode (n : Node) (spots : List (Nat × Nat × Nat)) (s : State) : State :=
  dropReserved n.ref (putNode { n with state := .loading, parts := spots, chosen := none } s)

/-- A number of a queue: class and priority. -/
def queueKey (cls prio : Nat) : Nat := cls * 8 + prio

/-- A placement round of a die completes for one queue; with it, perhaps, a queue round (R282). -/
def queueRound (d : Nat) (cls prio : Nat) (s : State) : State :=
  let key := queueKey cls prio
  let h := s.dev.hw
  let scanners := (List.range s.dev.dies.length).filter fun i =>
    match s.dev.dies[i]? with | some x => x.service && (cls == 2 || (cls == 0) == x.m) | none => false
  let seen := Nat.lor (tget 0 h.seen key) (2 ^ d)
  if scanners.all fun i => bitsOf seen i 1 == 1 then
    onHw (fun h => { h with
      seen := tset 0 h.seen key 0, queueRounds := tset 0 h.queueRounds key (tget 0 h.queueRounds key + 1),
      nodes := h.nodes.map fun n =>
        if n.state = .ready ∧ n.cls = cls ∧ n.prio = prio ∧ handedOut s n then { n with rounds := n.rounds + 1 } else n }) s
  else onHw (fun h => { h with seen := tset 0 h.seen key seen }) s

/-- The end of a die's placement round (R282). -/
def roundDone (d : Nat) (s : State) : State :=
  match s.dev.dies[d]? with
  | none => s
  | some x =>
    let s := putDie s d { x with rounds := x.rounds + 1 }
    let own := if x.m then 0 else 1
    (List.range 8).foldl (fun s p => queueRound d 2 p (queueRound d own p s)) s

/-! ## Reservations (R283) -/

/-- How many dies hold a reservation of a node. -/
def reservedOn (s : State) (r : NodeRef) : Nat := (s.dev.dies.filter fun d => (d.reserved.map fun q => decide (q.node = r)).getD false).length

/-- The aligned rectangle of a node's shape with the fewest busy tiles. -/
def leastBusy (s : State) (n : Node) (d : Nat) : Option (Nat × Nat) :=
  ((origins s n d).foldl (fun (b : Option (Nat × Nat × Nat)) q =>
    let k := busyIn s d q.1 q.2 (2 ^ n.decl.lh) (2 ^ n.decl.lw)
    match b with
    | some x => if k < x.1 then some (k, q.1, q.2) else b
    | none => some (k, q.1, q.2)) none).map fun x => (x.2.1, x.2.2)

/-- A die without a reservation takes that of the first node it scans that has been ready for 64 queue rounds. -/
def reserveAged (d : Nat) (s : State) : State :=
  match s.dev.dies[d]? with
  | none => s
  | some x =>
    if x.reserved.isSome then s
    else
      match (scanOrder s d).find? fun n => decide (64 ≤ n.rounds) && dieServes s n d && decide (reservedOn s n.ref < n.decl.span) with
      | none => s
      | some n => match leastBusy s n d with | some q => putDie s d { x with reserved := some { node := n.ref, row := q.1, col := q.2, lh := n.decl.lh, lw := n.decl.lw } } | none => s

/-! ## Victims (R285, R351) -/

/-- What is left of a node's estimate in nanoseconds: the largest latest value of its tiles, counted down (R126, R285). -/
def estimateOf (s : State) (n : Node) : Nat :=
  let now := (cisternTsc s 0).toNat
  n.est.foldl (fun m e => max m (e.2 - now)) 0

/-- The SCHED fields in their units (R286): drain window in ns. -/
def drainWindow (s : State) : Nat := fld s.dev.hw.sched 32 16 * 1000

/-- A stop request with policy drain: the node runs to its end (R280, R285). -/
def beginDrain (n : Node) (s : State) : State := putNode { n with state := .draining, stopping := some .drain } s

/-- A stop request with policy checkpoint: every tile of every part is asked for a cut (R329). -/
def beginCut (n : Node) (s : State) : State :=
  let s := onNodeTiles n (fun t => { t with ctl := { t.ctl with stop := none, reported := none } }) s
  putNode { n with state := .cutting, stopping := some .checkpoint, target := none, saving := none } s

/-- A stop request with policy kill: the node goes back to its queue, from its start (R280). -/
def killNode (n : Node) (s : State) : State := requeueNode n.ref false (queueCompletion n 1 s)

/-- A stop request is still in progress at a node. -/
def stopRuns (n : Node) : Bool := n.state == .draining || n.state == .cutting

/-- The victims that a ready node finds on a die (R285): running nodes of its die class and of lower priority whose rectangle there contains one
of its shape, none that holds a main others are attached to (R351). -/
def victims (s : State) (n : Node) (d : Nat) : List Node :=
  s.dev.hw.nodes.filter fun v =>
    decide (v.state = .running ∧ v.cls = n.cls) && decide (nodePriority s v < n.prio) && !holdsAttached s v.ref && (v.parts.any fun q => q.1 == d) &&
      decide (n.decl.lh ≤ v.decl.lh ∧ n.decl.lw ≤ v.decl.lw)

/-- The lowest priority, then the youngest placement. -/
def worst (s : State) (vs : List Node) : Option Node :=
  vs.foldl (fun (b : Option Node) v =>
    match b with
    | none => some v
    | some w =>
      let p := nodePriority s v
      let q := nodePriority s w
      if p < q ∨ (p = q ∧ w.placed < v.placed) then some v else b) none

/-- The tokens of a node's context. -/
def tokensOf (s : State) (n : Node) : Nat := ((ctxOf s n.ref.ctx).map Ctx.tokens).getD 0

/-- A victim killed for a node: the kill price passes from the node's context to the victim's (R285). -/
def payKill (n v : Node) (s : State) : State :=
  let pay := fun (c : Nat) (f : Nat → Nat) (s : State) =>
    match ctxOf s c with | some x => putCtx { x with tokens := f x.tokens } s | none => s
  killNode v (pay v.ref.ctx (· + v.decl.kill) (pay n.ref.ctx (· - v.decl.kill) s))

/-- The policy table of R285 applied to a victim. -/
def stopVictim (n v : Node) (s : State) : State :=
  if estimateOf s v ≤ drainWindow s then beginDrain v s
  else if v.decl.has 0 then beginCut v s
  else if v.decl.has 1 ∧ v.decl.kill ≤ tokensOf s n then payKill n v s
  else beginDrain v s

/-- A ready node chooses a victim on a die, where it may (R285): the state after, with its reservation of the victim's rectangle. -/
def chooseVictim (n : Node) (d : Nat) (s : State) : Option State :=
  match s.dev.dies[d]? with
  | none => none
  | some x =>
    let mine := match x.reserved with | some q => decide (q.node = n.ref) | none => true
    let waiting := match n.chosen.bind (nodeOf s) with | some v => stopRuns v | none => false
    if !mine || waiting || !dieServes s n d then none
    else
      match worst s (victims s n d) with
      | none => none
      | some v =>
        match v.parts.find? fun q => q.1 == d with
        | none => none
        | some q =>
          let s := stopVictim n v s
          let s := match nodeOf s n.ref with | some m => putNode { m with chosen := some v.ref } s | none => s
          match s.dev.dies[d]? with
          | some x =>
            some (putDie s d { x with reserved := some { node := n.ref, row := q.2.1, col := q.2.2, lh := v.decl.lh, lw := v.decl.lw } })
          | none => some s

/-- The first of the nodes passed over that chooses a victim does. -/
def firstVictim (d : Nat) : List Node → State → State
  | [], s => s
  | n :: ns, s => match chooseVictim n d s with | some s => s | none => firstVictim d ns s

/-! ## A placement round (R281) -/

/-- The scan: the first node that can be placed, and the nodes passed over before it. -/
def scan (s : State) (d : Nat) : List Node → List Node → Option (Node × List (Nat × Nat × Nat)) × List Node
  | [], passed => (none, passed)
  | n :: ns, passed =>
    match (spotOn s n d).bind (spotsFrom s n) with
    | some q => (some (n, q), passed)
    | none => scan s d ns (if dieServes s n d then passed ++ [n] else passed)

/-- The origins of a node's shape inside a reserved rectangle, lowest row first, then lowest column. -/
def originsIn (n : Node) (q : Reservation) : List (Nat × Nat) :=
  (List.range (2 ^ (q.lh - n.decl.lh))).flatMap fun i => (List.range (2 ^ (q.lw - n.decl.lw))).map fun j =>
    (q.row + i * 2 ^ n.decl.lh, q.col + j * 2 ^ n.decl.lw)

/-- The reserved node of a die placed in its rectangle when that is free (R283); the round's scan follows. -/
def placeReserved (d : Nat) (s : State) : State :=
  match (s.dev.dies[d]?).bind Die.reserved with
  | none => s
  | some q =>
    match nodeOf s q.node with
    | none => s
    | some n =>
      if n.state = .ready ∧ handedOut s n ∧ dieServes s n d ∧ busyIn s d q.row q.col (2 ^ q.lh) (2 ^ q.lw) = 0 then
        match ((originsIn n q).find? fun o => spotRoutes s n (d, o.1, o.2)).bind fun o => spotsFrom s n (d, o.1, o.2) with
        | some l => placeNode n l s
        | none => s
      else s

/-- One placement round of a die's intake; none while the package has no scheduler or the die is out of service (R14, R26). -/
def placementRound (d : Nat) (s : State) : State :=
  if s.dev.hw.active.isNone || !(((s.dev.dies[d]?).map Die.service).getD false) then s
  else
    let s := placeReserved d (reserveAged d (cleanReserved s))
    let r := scan s d (scanOrder s d) []
    let s := match r.1 with | some (n, q) => placeNode n q s | none => s
    roundDone d (firstVictim d r.2 s)

/-! ## Events -/

/-- PLACEMENT_ROUND (R281). -/
def execPlacementRound (die : BitVec 3) (s : State) : Host.Outcome State Fault Refusal := event (placementRound die.toNat s)
/-- NODE_LOADED (R88). -/
def execNodeLoaded (n : NodeRef) (s : State) : Host.Outcome State Fault Refusal := event (loadNode n s)

end Sys2Proof.Machine
end

