-- ==== Sys2Proof/Machine/Headworks.lean ====
section
/-!
DEFINITION. Machine/Headworks.lean: the headworks (R26, R275-R288, R300-R302, R313, R329-R331): kicks, ready nodes and their hand-off
migrations (R222), launches, completions, the end of a node, stop requests, cuts and images, failover, gangs.
-/
namespace Sys2Proof.Machine

/-! ## Reading a context's memory -/

/-- Bytes at a virtual address, as the headworks reads them: none while a page migrates (R219), else the bytes or nothing where they
cannot be read. The bytes of another device's memory are free. -/
def readVa (s : State) (ctx va n : Nat) : Option (Option (List Byte)) :=
  (pagePieces va n).foldl (fun r q =>
    match r with
    | some (some bs) =>
      match translate s ctx q.1 true false with
      | .migrating => none
      | .fault _ => some none
      | .done pa =>
        if addrStatus s pa ≠ 0 then some none
        else if ownAddr s pa then (if memPoisoned s pa q.2 then some none else some (some (bs ++ memRead s pa q.2)))
        else
          let far := (List.range (ceilDiv q.2 8)).flatMap fun i => leBytes 8 (Config.freeValue (s.fresh + i)).toNat
          some (some (bs ++ far.take q.2))
    | r => r) (some (some []))

/-! ## Kicks (R275, R276) -/

/-- A record of a kick (R278). -/
def kickRecord (type cause : Nat) (word : Word) (s : State) : List Byte :=
  faultRecord type cause 0 (if type = 8 then fld word 48 16 * 2 ^ 48 else 0) 0 0 0 0 0 word.toNat (cisternTsc s 0).toNat 0

/-- A kick or a command of a page joins the order in which the page's work came (R383). -/
def pushOrder (page : Nat) (kick : Bool) (s : State) : State :=
  { s with dev := { s.dev with window := { s.dev.window with order := tset [] s.dev.window.order page (tget [] s.dev.window.order page ++ [kick]) } } }
/-- The oldest kick or command of a page leaves that order. -/
def popOrder (page : Nat) (s : State) : State :=
  { s with dev := { s.dev with window := { s.dev.window with order := tset [] s.dev.window.order page ((tget [] s.dev.window.order page).drop 1) } } }
/-- The next of a page's work is a kick, or a command (R383). -/
def nextIs (s : State) (page : Nat) (kick : Bool) : Bool := (tget [] s.dev.window.order page).head? == some kick

/-- A store to a context's kick register: the 65th waiting kick is dropped with a record (R269, R275). -/
def storeKick (c : Nat) (word : Word) (s : State) : State :=
  match ctxOf s c with
  | none => s
  | some x =>
    if x.kicks.length < 64 then pushOrder c true (putCtx { x with kicks := x.kicks ++ [word] } s)
    else eventRecord c (kickRecord 9 0 word s) s

/-- A patch table (R275): a wait, a refusal cause, or the patches in order. -/
def readPatches (s : State) (c va nslot : Nat) : Option (Except Nat (List (Nat × Word))) :=
  if va = 0 then some (.ok [])
  else if va % 64 ≠ 0 then some (.error 2)
  else
    match readVa s c va 64 with
    | none => none
    | some none => some (.error 3)
    | some (some head) =>
      let count := leField head 0 8
      if 4096 < count then some (.error 4)
      else
        match readVa s c va (64 + 16 * count) with
        | none => none
        | some none => some (.error 3)
        | some (some bs) =>
          let entries := (List.range count).map fun i => (leField bs (64 + 16 * i) 2, leField bs (66 + 16 * i) 6, leField bs (72 + 16 * i) 8)
          if leField head 8 56 ≠ 0 ∨ entries.any (fun e => e.2.1 != 0) then some (.error 5)
          else if entries.any fun e => decide (nslot ≤ e.1) then some (.error 6)
          else some (.ok (entries.map fun e => (e.1, BitVec.ofNat 64 e.2.2)))

/-- The parameters of a graph node: the slots its map names (R90). -/
def paramsOf (d : NodeDecl) (slots : List Word) : List Word :=
  (List.range 8).map fun i => let k := (d.pmap[i]?).getD 0xFFFF; if k = 0xFFFF then 0 else (slots[k]?).getD 0

/-- A node of a replay, waiting. -/
def newNode (r : NodeRef) (d : NodeDecl) (prio : Nat) (params : List Word) (parent : Option Parent) : Node :=
  { ref := r, decl := d, state := .waiting, cls := d.cls, prio := prio, rounds := 0, seq := 0, parts := [], params := params, est := [],
    stopping := none, target := none, images := [], resume := false, saving := none, sweep := none, parent := parent, placed := 0,
    chosen := none, phase := 0, failing := false, migrated := [], moving := none }

/-- Ended nodes that hold nothing any more and whose replay is over. -/
def cleanNodes (s : State) : State :=
  onHw (fun h => { h with nodes := h.nodes.filter fun n =>
    !(n.state == .ended && n.parts.isEmpty &&
      !(h.replays.any fun r => r.ctx == n.ref.ctx && r.graph == n.ref.graph && r.num == n.ref.replay)) }) s

/-- The edges into a node, with their numbers. -/
def edgesInto (g : Graph) (node : Nat) : List (EdgeDecl × Nat) := g.edges.zipIdx.filter fun e => e.1.dst == node

/-- The graph of an entry. -/
def graphOf (s : State) (r : NodeRef) : Option Graph := (ctxOf s r.ctx).bind fun c => c.graphs.find? fun g => g.num == r.graph

/-- The kick at the head of a context's queue accepted or refused (R276); it waits behind 16 replays and behind a migrating page. -/
def acceptKick (c : Nat) (s : State) : State :=
  let s := cleanNodes s
  match s.dev.hw.active, ctxOf s c with
  | some _, some x =>
    match x.kicks with
    | [] => s
    | word :: rest =>
      if nextIs s c false then s
      else
      let refuse := fun (cause : Nat) => eventRecord c (kickRecord 8 cause word s) (popOrder c (putCtx { x with kicks := rest } s))
      match x.graphs.find? fun g => g.num == fld word 48 16 with
      | none => refuse 1
      | some g =>
        let held := (s.dev.hw.replays.filter fun r => r.ctx == c && r.graph == g.num).map Replay.num
        match readPatches s c (fld word 0 48) g.slots.length with
        | none => s
        | some (.error cause) => refuse cause
        | some (.ok patches) =>
          match (List.range 16).find? fun i => decide (i ∉ held) with
          | none => s
          | some num =>
            let s := retag c g.num num s
            let slots := patches.foldl (fun l e => setAt l e.1 e.2) g.slots
            let nodes := g.nodes.zipIdx.map fun q =>
              newNode { ctx := c, graph := g.num, replay := num, node := q.2, serial := 0 } q.1 q.1.prio (paramsOf q.1 slots) none
            let s := popOrder c (putCtx { x with kicks := rest } s)
            let s := onHw (fun h => { h with nodes := h.nodes ++ nodes,
                                             replays := h.replays ++ [{ ctx := c, graph := g.num, num := num, slots := slots }] }) s
            let s := doneRecord c (completionRecord 1 0 (g.num * 2 ^ 48 + num * 2 ^ 40) word.toNat 0 (cisternTsc s 0).toNat 0) s
            (nodes.filter fun n => (edgesInto g n.ref.node).isEmpty).foldl (fun s n =>
              match nodeOf s n.ref with | some m => makeReady m false s | none => s) s
  | _, _ => s

/-! ## Hand-off migration (R222) -/

/-- The leaf that maps a virtual address: the address of its entry, the log2 of the page size, the entry. -/
def findLeaf (s : State) (va : Nat) : Nat → Nat → Nat → Option (Nat × Nat × Nat)
  | 0, _, _ => none
  | fuel + 1, l, table =>
    let (sh, iw, _) := levelShift l
    if !ownAddr s table || addrStatus s table ≠ 0 then none
    else
      let ea := table + 8 * bitsOf va sh iw
      let e := memWord s ea
      if bitsOf e 0 1 = 0 then none
      else if bitsOf e 1 1 = 1 then some (ea, sh, e)
      else if l = 3 then none
      else findLeaf s va fuel (l + 1) (e / 256 * 256)

/-- A page's bytes, poison, cells and the addresses that accesses on their way carry, moved to a new place. -/
def movePage (old new size : Nat) (s : State) : State :=
  let inOld := fun (a : Nat) => decide (old ≤ a ∧ a < old + size)
  let moved := s.dev.mem.filter fun c => inOld c.1
  let mem := moved.foldl (fun m c => mset m (new + (c.1 - old)) c.2) (s.dev.mem.filter fun c => !decide (new ≤ c.1 ∧ c.1 < new + size))
  let bad := s.dev.poison.filter fun w => inOld (w * 32)
  let poison := bad.map (fun w => w - old / 32 + new / 32) ++ s.dev.poison.filter fun w => !decide (new ≤ w * 32 ∧ w * 32 < new + size)
  let cells := s.dev.cells.map fun c => if inOld c.addr then { c with addr := new + (c.addr - old) } else c
  let shift := fun (t : Tile) => { t with gm := t.gm.map fun g => { g with lanes := g.lanes.map fun q => if inOld q.2 then (q.1, new + (q.2 - old)) else q } }
  { s with cur := shift s.cur, peers := s.peers.map shift, dev := { s.dev with mem := mem, poison := poison, cells := cells, hist := s.dev.hist.filter fun e => !inOld e.1 && !decide (new ≤ e.1 ∧ e.1 < new + size) } }

/-- The translations of a range of a context dropped from every cache of the package: of its tiles, of the pumps and of the walk units
(R220). -/
def dropTranslations (c va len : Nat) (s : State) : State :=
  let hit := fun (unit i : Nat) => decide (i * unit < va + len ∧ va < (i + 1) * unit)
  let drop := fun (t : Tile) =>
    if ctxNum t = c then { t with walk := { cached := t.walk.cached.filter fun e => !hit 65536 e.1 } } else t
  let pumps := (s.dev.pumpCache.map fun p => (p.1, p.2.filter fun e => !(e.1 == c && hit 65536 e.2.1))).filter fun p => !p.2.isEmpty
  let unit := fun (d : Die) =>
    { d with walk := d.walk.filter fun e => !(e.1 == c && hit (2 ^ (levelShift (e.2.1 / 2 ^ 48)).1) (e.2.1 % 2 ^ 48)) }
  { s with cur := drop s.cur, peers := s.peers.map drop, dev := { s.dev with pumpCache := pumps, dies := s.dev.dies.map unit } }

/-- A frame of the pool for a page: in the cistern whose turn it is, the first in table order with room (R222, R273). -/
def poolPlace (pool : List Nat) (used : Tab Nat) (c size : Nat) : Option (Nat × Nat) :=
  (pool.zipIdx.find? fun q =>
    cisField q.1 == c && (if size = 65536 then decide (tget 0 used q.2 < 32) else tget 0 used q.2 == 0)).map fun q =>
      (q.2, q.1 + tget 0 used q.2 * 65536)

/-- The destination cisterns of a hand-off to a node of a class: G for an M node, H for a B node (R222). -/
def handOffDests (s : State) (cls : Nat) : List Nat :=
  (if cls = 0 then [8, 9, 10, 11] else [0, 1, 2, 3, 4, 5, 6, 7]).filter fun c => decide (c ∈ s.dev.cisterns ∧ c ∉ s.dev.downC)

/-- The pool of an edge (R273): none while a page of the table migrates (R219); a table that cannot be read holds no frame. -/
def readPool (s : State) (c va : Nat) : Option (List Nat) :=
  match readVa s c va 8 with
  | none => none
  | some none => some []
  | some (some h) =>
    match readVa s c va (8 + 8 * leNat h) with
    | none => none
    | some none => some []
    | some (some bs) => some ((List.range (leNat h)).map fun i => leField bs (8 + 8 * i) 8)

/-- A predecessor of a node in its replay has ended. -/
def predEnded (s : State) (n : Node) (src : Nat) : Bool :=
  match nodeOf s { n.ref with node := src, serial := 0 } with
  | some m => m.state == .ended
  | none => false

/-- The hand-offs into a node that are still to be done, of predecessors that have ended. -/
def handOffs (s : State) (n : Node) : List (EdgeDecl × Nat) :=
  match graphOf s n.ref with
  | none => []
  | some g => if s.dev.variantH then [] else
      (edgesInto g n.ref.node).filter fun e => e.1.handoff && decide (e.2 ∉ n.migrated) && predEnded s n e.1.src

/-- The page at an address of a region gets its place in the pool (R222): the place and the use of the frames after, or none where the pool
lacks a frame or its cistern cells, or the page is of 1 GiB. -/
def pagePlace (s : State) (cls : Nat) (pool : List Nat) (m : Moving) (size old : Nat) : Option (Nat × Tab Nat) :=
  let dests := handOffDests s cls
  if size = 2 ^ 30 then none
  else
    match (dests[m.page % max 1 dests.length]?).bind fun d => poolPlace pool m.used d size with
    | none => none
    | some (k, new) =>
      let moving := (s.dev.cells.filter fun x => decide (old ≤ x.addr ∧ x.addr < old + size)).length
      if 2 ^ 18 < cellsUsed s new + moving then none else some (new, tset 0 m.used k (tget 0 m.used k + size / 65536))

/-- A hand-off at its end: complete, or given up, of which the owner learns by device event 4 (R222). -/
def endHandOff (n : Node) (edge : Nat) (complete : Bool) (s : State) : State :=
  let s := putNode { n with migrated := n.migrated ++ [edge], moving := none } s
  if complete then s else deviceEvent n.ref.ctx 4 0 s

/-- The next step of the first hand-off that waits at a node (R222): a page's leaf takes mig, the page is copied, or the leaf takes the new
address; each of the leaf's changes is followed by the invalidation of R220. None where it waits on a page that migrates already (R219). -/
def handOffStep (n : Node) (s : State) : Option State :=
  match decide (n.state = .waiting), handOffs s n, ctxOf s n.ref.ctx with
  | true, (e, k) :: _, some c =>
    let m := n.moving.getD { edge := k, va := e.rva.toNat, page := 0, used := [], dest := none, copied := false }
    if e.rva.toNat + e.rlen.toNat ≤ m.va then some (endHandOff n k true s)
    else
      match findLeaf s m.va 4 0 c.root.toNat with
      | none => some (putNode { n with moving := some { m with va := m.va + 65536, page := m.page + 1, dest := none, copied := false } } s)
      | some (ea, sh, leaf) =>
        let size := 2 ^ sh
        let old := leaf / 256 * 256
        let put := fun (v : Nat) (s : State) => dropTranslations c.num m.va size (memStore s ea (leBytes 8 v))
        match m.dest with
        | none =>
          if bitsOf leaf 6 1 = 1 then none
          else
            match readPool s c.num e.pool.toNat with
            | none => none
            | some pool =>
              match pagePlace s n.cls pool m size old with
              | none => some (endHandOff n k false s)
              | some (new, used) => some (putNode { n with moving := some { m with dest := some new, used := used } } (put (leaf + 64) s))
        | some new =>
          if !m.copied then some (putNode { n with moving := some { m with copied := true } } (movePage old new size s))
          else
            let next := { m with va := (m.va / size + 1) * size, page := m.page + 1, dest := none, copied := false }
            some (putNode { n with moving := some next } (put (new + leaf % 64 + leaf / 128 % 2 * 128) s))
  | _, _, _ => none

/-- A step of the hand-off that waits at a node (R222). -/
def handOff (r : NodeRef) (s : State) : State := ((nodeOf s r).bind fun n => handOffStep n s).getD s

/-- A waiting node may become ready (R280): every predecessor has ended and every hand-off is done. -/
def readyNow (s : State) (n : Node) : Bool :=
  n.state == .waiting && n.ref.serial == 0 &&
    match graphOf s n.ref with
    | none => false
    | some g => ((edgesInto g n.ref.node).all fun e => predEnded s n e.1.src) && (handOffs s n).isEmpty

/-! ## Launches and estimates (R126, R300, R301) -/

/-- A die of a class is in service (R301: FEAT). -/
def classPresent (s : State) (cls : Nat) : Bool :=
  s.dev.dies.any fun d => d.service && (cls == 2 || (cls == 0) == d.m)

/-- A launch that still stands in the comparator (R311). -/
def launchBlocked (t : Tile) (o : LnkOp) : Bool := t.checked.any fun c => c.kind == 2 && c.serial == o.serial

/-- The child of a launch record (R274, R300). -/
def childOf (s : State) (parent : Node) (g : Graph) (d : NodeDecl) (rec' : Vec) : Node :=
  let par := (List.range 7).map fun i => BitVec.ofNat 64 (fld rec' (64 * (i + 1)) 64)
  let slots := match s.dev.hw.replays.find? fun r => r.ctx == parent.ref.ctx && r.graph == g.num && r.num == parent.ref.replay with
    | some r => r.slots | none => []
  let k := (d.pmap[7]?).getD 0xFFFF
  let last : Word := if k = 0xFFFF then 0 else (slots[k]?).getD 0
  let t := s.cur
  let ref : NodeRef := { parent.ref with node := fld rec' 0 16, serial := s.dev.hw.serial % (2 ^ 24 - 1) + 1 }
  newNode ref d (min (fld rec' 16 3) parent.prio) (par ++ [last])
    (some { child := ref, ref := parent.ref, part := t.place.part, row := relRow t, col := relCol t, slu := fld rec' 48 6, ui := bit rec' 24,
            tag := fld rec' 32 16, st := 0, ts := tscOf s })

/-- An answer to a launch, and to its copy at the partner of a checked tile. -/
def answerLaunch (o : LnkOp) (v : Nat) (s : State) : State :=
  let s := onCur (answerLnk 18 o v) s
  onTile (partnerOf s.cur.id) (onCur fun t =>
    match t.lnk.find? fun x => x.code == 0 && x.arg == toVec o.serial with
    | some x => if bit t.csr.status 7 then answerLnk 18 x v t else t
    | none => t) s

/-- The oldest launch of the focused tile accepted or refused (R301), once every earlier LS access has been performed at package scope. -/
def acceptLaunch (s : State) : State :=
  match s.dev.hw.active, s.cur.lnk.find? (fun o => o.code == 8), curNode s with
  | some _, some o, some n =>
    if !lsDone s o.serial 3 || launchBlocked s.cur o then s
    else
      match graphOf s n.ref with
      | none => answerLaunch o 1 s
      | some g =>
        match g.tmpls[fld o.arg 0 16]? with
        | none => answerLaunch o 1 s
        | some d =>
          if !classPresent s d.cls then answerLaunch o 2 s
          else
            let c := childOf s n g d o.arg
            let s := onHw (fun h => { h with nodes := h.nodes ++ [c], serial := h.serial + 1 }) s
            answerLaunch o 0 (makeReady c false s)
  | _, _, _ => s

/-- The oldest published estimate of the focused tile reaches the headworks, which acknowledges it (R126, R285). -/
def publishEst (s : State) : State :=
  match s.dev.hw.active, s.cur.lnk.find? (fun o => o.code == 113) with
  | some _, some o =>
    let s := match curNode s with
      | some n => putNode { n with est := tset 0 n.est (tileIndex s.cur.id) ((cisternTsc s 0).toNat + fld o.arg 0 40) } s
      | none => s
    onCur (answerLnk 19 o 0) s
  | _, _ => s

/-! ## Completions (R279, R302) -/

/-- A completion to the context completion queue. -/
def recordCompletion (p : Parent) (s : State) : State :=
  doneRecord p.ref.ctx (completionRecord 3 p.st (entryWord p.child) p.tag 0 (cisternTsc s 0).toNat 0) s

/-- A completion at the launching tile: a unit on its sluice, with which the child's writes are ordered before the observer (R263), the cq
element, the interrupt. -/
def landCompletion (q : Node) (p : Parent) (s : State) : State :=
  match q.parts[p.part]? with
  | none => recordCompletion p s
  | some (d, r, c) =>
    let i : TileId := { die := d, row := r + p.row, col := c + p.col }
    let full := decide (16 ≤ (tileAt s i).net.cq.length)
    let s := onTile i (onCur fun t =>
      let t := carryView false p.slu (allWrites s) (countUp false p.slu 1 0 true t)
      let t := if full then t else { t with net := { t.net with cq := t.net.cq ++ [BitVec.ofNat 64 (completionElem p)] } }
      if p.ui then addEvent t 3 p.tag else t) s
    if full then recordCompletion p s else s

/-- The completion of a child delivered (R302): to the parent's tile while the parent runs, held while the parent is cut, else to the
context. -/
def deliverCompletion (child : NodeRef) (s : State) : State :=
  match s.dev.hw.completions.find? fun p => decide (p.child = child) with
  | none => s
  | some p =>
    let gone := onHw (fun h => { h with completions := h.completions.erase p }) s
    match nodeOf s p.ref with
    | none => recordCompletion p gone
    | some q =>
      match q.state with
      | .running | .draining | .faulted => landCompletion q p gone
      | .cutting => s
      | .ready | .loading => if q.resume then s else recordCompletion p gone
      | .waiting | .ended => recordCompletion p gone

/-! ## The end of a node (R287, R350) -/

/-- A tile has reached strokeend with no stroke left to start. -/
def tileDone (t : Tile) : Bool := t.run == .idle && t.code.strokes.isEmpty && !t.code.running

/-- The idle flag of a tile. -/
def idleFlag (t : Tile) : Bool :=
  tileDone t && t.ctl.late.isEmpty && t.streams.all fun e => !e.2.write || e.2.buf.isEmpty

/-- The tiles of a node that take part in its sweeps. -/
def sweptTiles (s : State) (n : Node) : List Tile := ((nodeTiles n).map fun i => tileAt s i).filter fun t => (heldPrefix s t).isNone

/-- A replay ends when all its nodes have ended (R280). -/
def endReplay (r : NodeRef) (s : State) : State :=
  let mine := fun (n : Node) => n.ref.ctx == r.ctx && n.ref.graph == r.graph && n.ref.replay == r.replay
  let running := s.dev.hw.replays.any fun x => x.ctx == r.ctx && x.graph == r.graph && x.num == r.replay
  if running && (s.dev.hw.nodes.all fun n => !mine n || n.state == .ended) then
    let s := doneRecord r.ctx (completionRecord 2 0 (r.graph * 2 ^ 48 + r.replay * 2 ^ 40) 0 0 (cisternTsc s 0).toNat 0) s
    cleanNodes (onHw (fun h => { h with replays := h.replays.filter fun x => !(x.ctx == r.ctx && x.graph == r.graph && x.num == r.replay) }) s)
  else s

/-- The completion record of a graph node (R269, R280). DESIGN CHOICE (log 24): of R278's types only type 3 names a node; its key is 0. -/
def recordEnd (n : Node) (s : State) : State :=
  if n.parent.isSome then s else doneRecord n.ref.ctx (completionRecord 3 0 (entryWord n.ref) 0 0 (cisternTsc s 0).toNat 0) s

/-- A node declared ended: its mains detach, its completion goes to its parent or its context, its rectangle frees unless a held prefix keeps
it. -/
def endNode (n : Node) (s : State) : State :=
  let s := detachNode n.ref (putNode { n with state := .ended, stopping := none, target := none, sweep := none, est := [] } s)
  let s := recordEnd n (queueCompletion n 0 s)
  let s := if pinned s n.ref then s else match nodeOf s n.ref with | some m => leaveTiles m s | none => s
  endReplay n.ref s

/-- One end sweep of a node (R287, R323). -/
def sweepNode (r : NodeRef) (s : State) : State :=
  match nodeOf s r with
  | none => s
  | some n =>
    let ts := sweptTiles s n
    if !(n.state == .running || n.state == .draining) || !ts.all tileDone then s
    else
      let sent := (ts.map fun t => t.net.sent.toNat).sum
      let got := (ts.map fun t => t.net.received.toNat + t.net.lost.toNat).sum
      if !ts.all idleFlag || sent != got then putNode { n with sweep := none } s
      else if n.sweep = some (sent, got) then endNode n s
      else putNode { n with sweep := some (sent, got) } s

/-! ## Stops and cuts (R280, R329-R331, R313) -/

/-- A stop request (R280, R285, R351). -/
def stopNode (r : NodeRef) (policy : StopPolicy) (s : State) : State :=
  match nodeOf s r with
  | none => s
  | some n =>
    if holdsAttached s r then detachNode r s
    else
      match n.state, policy with
      | .running, .drain => beginDrain n s
      | .running, .checkpoint => if n.decl.has 0 then beginCut n s else s
      | .running, .kill => if n.decl.has 1 then killNode n s else s
      | .loading, _ => putNode { n with state := .ready, parts := [] } s
      | _, _ => s

/-- A tile that takes part in a cut: a stroke of its node is left (R329). -/
def takesPart (t : Tile) : Bool := t.code.running || !t.code.strokes.isEmpty

/-- A tile stopped by the cut, or held between strokes by it. -/
def cutStopped (t : Tile) : Bool :=
  match t.run with
  | .cut => true
  | .idle | .between => cutHolds t
  | _ => false

/-- M broadcast (R329, R330): tiles stopped short of it resume. -/
def broadcastCut (n : Node) (m : Nat) (s : State) : State :=
  let s := onNodeTiles n (fun t =>
    if !takesPart t then t
    else
      let t := { t with ctl := { t.ctl with stop := some (BitVec.ofNat 64 m), reported := none } }
      if t.run = .cut ∧ t.csr.cutn.toNat < m then { t with run := .go } else t) s
  putNode { n with target := some (BitVec.ofNat 64 m) } s

/-- The largest cut number of some tiles. -/
def maxCut (ns : List Nat) : Nat := ns.foldl max 0

/-! ## A failed link of a span node (R312) -/

/-- The strokes that every tile of every part has ended since the start of the node: the phases completed (log 24). -/
def phasesDone (s : State) (n : Node) : Nat :=
  match funcOf s n with
  | none => n.phase
  | some f =>
    let ended := (nodeTiles n).map fun i =>
      let t := tileAt s i
      let all := (f.strokes.filter fun k => posSelects f t.place.part (relRow t) (relCol t) k.pos).length
      all - t.code.strokes.length - if t.code.running then 1 else 0
    match ended with
    | [] => n.phase
    | k :: ks => ks.foldl min k

/-- A tile stands at the end of a phase, or has stopped. -/
def phaseRests (t : Tile) : Bool :=
  match t.run with
  | .go | .stall _ | .frozen | .drain | .waiting .. | .ending .. => false
  | _ => true

/-- Every part of a failing span node has stopped. -/
def spanRests (s : State) (n : Node) : Bool := n.failing && (nodeTiles n).all fun i => phaseRests (tileAt s i)

/-- A failing span node whose parts have stopped: placed again from its first phase that not every part completed, or faulted (R312). -/
def finishSpan (n : Node) (s : State) : State :=
  let record := fun (flags : Nat) => eventRecord n.ref.ctx
    (faultRecord 5 0 flags (entryWord n.ref) (queueByte n) 0 0 0 0 0 (cisternTsc s 0).toNat 0)
  if !spanRests s n then s
  else if n.decl.has 2 then
    let k := phasesDone s n
    let s := requeueNode n.ref false (record 8 s)
    match nodeOf s n.ref with | some m => putNode { m with phase := k, failing := false } s | none => s
  else faultNode { n with failing := false } 0 0 (record 1) s

/-- The die-to-die link of a span node has failed (R312): every part goes on to its next phase boundary, but one that cannot reach it without
traffic over the link, which stops at once; which part can is free (log 24). -/
def failSpan (n : Node) (s : State) : State :=
  if n.failing then s
  else
    let s := (placedTiles n).foldl (fun s q => if Config.freeBit (s.fresh + q.2.1) then s else onTile q.1 (onCur (stopTile .stopped)) s) s
    let n := { n with failing := true }
    finishSpan n { putNode n s with fresh := s.fresh + n.decl.span }

/-- The save of a node that has stopped at one cut number begins: its image's header is written with state 0 (R332). -/
def beginSave (n : Node) (s : State) : State :=
  putNode (putImage (headerOnly 0 (makeImage n s)) { n with saving := some (cisternTsc s 0).toNat }) s

/-- One round of a cut (R329, R330): the first M from the reports; then, when every tile has stopped, a further round or the start of the
save. A node of which no tile takes part any more has stopped. -/
def cutRoundOf (r : NodeRef) (s : State) : State :=
  match nodeOf s r with
  | none => s
  | some n =>
    let ts := ((nodeTiles n).map fun i => tileAt s i).filter takesPart
    if n.state ≠ .cutting ∨ n.saving.isSome then s
    else if ts = [] then beginSave n s
    else
      match n.target with
      | none =>
        if ts.all fun t => t.ctl.reported.isSome then
          broadcastCut n (maxCut (ts.map fun t => (t.ctl.reported.getD 0).toNat)) s
        else s
      | some m =>
        if !ts.all cutStopped then s
        else
          let k := maxCut (ts.map fun t => t.csr.cutn.toNat)
          if k = m.toNat then beginSave n s else broadcastCut n k s

/-- A stopped tile has nothing left in flight: its copies are parked, its operations and FMT writes done, its transfers delivered (R24, R73,
R331). -/
def tileRests (s : State) : Bool :=
  (s.cur.copies.all fun c => c.parked.isSome) && s.cur.ctl.fmtPending.isEmpty && socketsDone s.cur && transfersDone s

/-- The image of a node can be sealed (R331). -/
def sealReady (s : State) (n : Node) : Bool :=
  n.state == .cutting && n.saving.isSome && (nodeTiles n).all fun i => tileRests (focus i s)

/-- The image of a node that has stopped at its cut is written and sealed, once its copies have run to completion or parked (R331); the
node goes back to its queue, marked resume (R280). -/
def sealImage (r : NodeRef) (s : State) : State :=
  match nodeOf s r with
  | none => s
  | some n => if sealReady s n then requeueNode r true (putNode (putImage (makeImage n s) n) s) else s

/-- Every queue of a context stops handing out its entries. -/
def freezeAll (c : Nat) (s : State) : State :=
  let all := (List.range 3).flatMap fun k => (List.range 8).map fun p => (c, k, p)
  onHw (fun h => { h with frozenQ := all ++ h.frozenQ.filter fun q => q.1 != c }) s

/-- A save has lasted for the watchdog period of its node (R313): in cycles of 3.0 GHz, of which three pass in one unit of the timebase. -/
def saveLate (s : State) (n : Node) : Bool :=
  match n.state, n.saving with
  | .cutting, some start => decide ((if n.decl.wdog = 0 then 2 ^ 32 else n.decl.wdog) ≤ 3 * ((cisternTsc s 0).toNat - start))
  | _, _ => false

/-- A node of a killed context stops where it stands; its mains detach (R313, R349). -/
def stopKilled (m : Node) (s : State) : State :=
  if m.state = .running ∨ m.state = .draining ∨ m.state = .cutting ∨ m.state = .loading then
    detachNode m.ref (putNode { m with state := .faulted, stopping := none, target := none, saving := none } (onNodeTiles m (stopTile .stopped) s))
  else s

/-- The watchdog of a save expires (R313): a torn image, the context killed. -/
def saveExpires (r : NodeRef) (s : State) : State :=
  match nodeOf s r with
  | none => s
  | some n =>
    if !saveLate s n then s
    else
      let s := putNode (putImage (headerOnly 2 (makeImage n s)) n) s
      let s := (s.dev.hw.nodes.filter fun m => m.ref.ctx == r.ctx).foldl (fun s m =>
        match nodeOf s m.ref with | some m => stopKilled m s | none => s) s
      eventRecord r.ctx (faultRecord 6 25 5 (entryWord r) (queueByte n) 0 0 0 0 0 (cisternTsc s 0).toNat 0) (freezeAll r.ctx s)

/-! ## Failover (R26) and gangs (R288) -/

/-- Three missed heartbeats (R26): the standby takes over; a second failure leaves no scheduler. -/
def failover (s : State) : State :=
  match s.dev.hw.active with
  | some 0 => deviceEventAll 1 0 (onHw (fun h => { h with active := some 1 }) s)
  | some _ => deviceEventAll 7 0 (onHw (fun h => { h with active := none }) s)
  | none => s

/-- A change of a gang. -/
def onGang (k : Nat) (f : Gang → Gang) (s : State) : State :=
  onHw (fun h => { h with gangs := h.gangs.map fun g => if g.num = k then f g else g }) s

/-- This device's headworks coordinates a gang: it is the lowest-numbered device (R288). -/
def coordinates (s : State) (g : Gang) : Bool := g.devs.all fun d => decide (s.dev.fabric.dev ≤ d)

/-- The rectangles of a gang's nodes on this device are free for them: the nodes stand in them, loading (R288). -/
def gangStands (s : State) (g : Gang) : Bool :=
  g.nodes.all fun r => match nodeOf s r with | some n => n.state == .loading | none => true

/-- A "ready" of a device reaches the coordinator (R288), this device's own once its rectangles are free; after a "defer" it opens the next
attempt, whose start time the gang declares. -/
def readyGang (k dev : Nat) (s : State) : State :=
  match s.dev.hw.gangs.find? fun g => g.num == k with
  | none => s
  | some g =>
    if dev ∉ g.devs ∨ (dev = s.dev.fabric.dev ∧ !gangStands s g) then s
    else
      match g.sent with
      | none => onGang k (fun g => { g with ready := dev :: g.ready.filter fun d => d != dev }) s
      | some true => s
      | some false =>
        let f := freshValue s
        onGang k (fun g => { g with ready := [dev], start := f.1, sent := none }) f.2

/-- The time by which a gang's "ready"s count: the start time with the grace (R286, R288). -/
def gangLimit (s : State) (g : Gang) : Nat := g.start.toNat + fld s.dev.hw.sched 16 16 * 1000
/-- Every device of a gang is ready. -/
def gangReady (g : Gang) : Bool := g.devs.all fun d => decide (d ∈ g.ready)

/-- The coordinator sends "go" once it holds every "ready" in time; on another device its message arrives (R288). -/
def goGang (k : Nat) (s : State) : State :=
  match s.dev.hw.gangs.find? fun g => g.num == k with
  | none => s
  | some g =>
    if g.sent.isNone && (!coordinates s g || (gangReady g && decide ((cisternTsc s 0).toNat ≤ gangLimit s g))) then
      onGang k (fun g => { g with sent := some true }) s
    else s

/-- The stop of a gang node's victim escalated as far as the conditions of R285 allow (R288); a victim that others have attached to is only
detached (R351). -/
def escalate (n : Node) (s : State) : State :=
  match n.chosen.bind (nodeOf s) with
  | none => s
  | some v =>
    if holdsAttached s v.ref then detachNode v.ref s
    else if v.state = .draining ∧ v.decl.has 0 then beginCut v s
    else if v.state = .cutting ∧ v.decl.has 1 ∧ v.decl.kill ≤ tokensOf s n then payKill n v s
    else s

/-- The coordinator sends "defer" where a "ready" is missing after the grace; on another device its message arrives (R286, R288):
reservations go, loading nodes return to ready, the late device escalates. -/
def deferGang (k : Nat) (s : State) : State :=
  match s.dev.hw.gangs.find? fun g => g.num == k with
  | none => s
  | some g =>
    if g.sent.isNone && (!coordinates s g || (!gangReady g && decide (gangLimit s g ≤ (cisternTsc s 0).toNat))) then
      let late := decide (s.dev.fabric.dev ∉ g.ready)
      let s := onGang k (fun g => { g with sent := some false }) s
      g.nodes.foldl (fun s r =>
        let s := dropReserved r s
        match nodeOf s r with
        | none => s
        | some n =>
          let s := if late then escalate n s else s
          match nodeOf s r with
          | some n => if n.state = .loading then putNode { n with state := .ready, parts := [] } s else s
          | none => s) s
    else s

/-! ## Events -/

/-- KICK_REGISTER (R275). -/
def execKickRegister (ctx : BitVec 12) (word : Word) (s : State) : Host.Outcome State Fault Refusal := event (if s.dev.fabric.assigned then storeKick ctx.toNat word s else s)
/-- KICK_ACCEPT (R276). -/
def execKickAccept (ctx : BitVec 12) (s : State) : Host.Outcome State Fault Refusal := event (acceptKick ctx.toNat s)
/-- NODE_READY (R280). -/
def execNodeReady (n : NodeRef) (s : State) : Host.Outcome State Fault Refusal :=
  event (match nodeOf s n with | some m => if readyNow s m then makeReady m false s else s | none => s)
/-- HAND_OFF_MIGRATION (R222). -/
def execHandOffMigration (n : NodeRef) (s : State) : Host.Outcome State Fault Refusal := event (handOff n s)
/-- LAUNCH_ACCEPT (R301). -/
def execLaunchAccept (t : TileId) (s : State) : Host.Outcome State Fault Refusal := event (onTile t acceptLaunch s)
/-- EST_PUBLISH (R126). -/
def execEstPublish (t : TileId) (s : State) : Host.Outcome State Fault Refusal := event (onTile t publishEst s)
/-- CHILD_COMPLETION_DELIVERY (R302). -/
def execChildCompletionDelivery (n : NodeRef) (s : State) : Host.Outcome State Fault Refusal := event (deliverCompletion n s)
/-- END_SWEEP (R287). -/
def execEndSweep (n : NodeRef) (s : State) : Host.Outcome State Fault Refusal := event (sweepNode n s)
/-- STOP_REQUEST (R329). -/
def execStopRequest (n : NodeRef) (policy : StopPolicy) (s : State) : Host.Outcome State Fault Refusal := event (stopNode n policy s)
/-- CUT_ROUND (R330, R312): the supervisors have found the tiles of a node stopped. -/
def execCutRound (n : NodeRef) (s : State) : Host.Outcome State Fault Refusal :=
  event (match nodeOf s n with | some m => if m.failing then finishSpan m s else cutRoundOf n s | none => s)
/-- IMAGE_SEALED (R331). -/
def execImageSealed (n : NodeRef) (s : State) : Host.Outcome State Fault Refusal := event (sealImage n s)
/-- SAVE_WATCHDOG_EXPIRY (R313). -/
def execSaveWatchdogExpiry (n : NodeRef) (s : State) : Host.Outcome State Fault Refusal := event (saveExpires n s)
/-- HEADWORKS_FAILOVER (R26). -/
def execHeadworksFailover (s : State) : Host.Outcome State Fault Refusal := event (failover s)
/-- GANG_READY (R288). -/
def execGangReady (gang : Nat) (dev : BitVec 12) (s : State) : Host.Outcome State Fault Refusal := event (readyGang gang dev.toNat s)
/-- GANG_GO (R288). -/
def execGangGo (gang : Nat) (s : State) : Host.Outcome State Fault Refusal := event (goGang gang s)
/-- GANG_DEFER (R288). -/
def execGangDefer (gang : Nat) (s : State) : Host.Outcome State Fault Refusal := event (deferGang gang s)

end Sys2Proof.Machine
end

