-- ==== Sys2Proof/Machine/Sha3.lean ====
section
/-!
DEFINITION. Machine/Sha3.lean: SHA3-256 (FIPS 202), which R74 and R385 name. The standard stands outside the spec (log 18).
-/
namespace Sys2Proof.Machine

/-- A Keccak state: 25 lanes, lane x + 5 y. -/
abbrev Keccak := List (BitVec 64)

/-- A lane of a state. -/
def kLane (a : Keccak) (i : Nat) : BitVec 64 := (a[i]?).getD 0

/-- The rotation of each lane, x + 5 y. -/
def kRot : List Nat := [0, 1, 62, 28, 27, 36, 44, 6, 55, 20, 3, 10, 43, 25, 39, 41, 45, 15, 21, 8, 18, 2, 61, 56, 14]

/-- The 24 round constants. -/
def kRound : List (BitVec 64) :=
  [0x0000000000000001, 0x0000000000008082, 0x800000000000808A, 0x8000000080008000, 0x000000000000808B, 0x0000000080000001,
    0x8000000080008081, 0x8000000000008009, 0x000000000000008A, 0x0000000000000088, 0x0000000080008009, 0x000000008000000A] ++
  [0x000000008000808B, 0x800000000000008B, 0x8000000000008089, 0x8000000000008003, 0x8000000000008002, 0x8000000000000080,
    0x000000000000800A, 0x800000008000000A, 0x8000000080008081, 0x8000000000008080, 0x0000000080000001, 0x8000000080008008]

/-- Step theta. -/
def kTheta (a : Keccak) : Keccak :=
  let c := (List.range 5).map fun x => kLane a x ^^^ kLane a (x + 5) ^^^ kLane a (x + 10) ^^^ kLane a (x + 15) ^^^ kLane a (x + 20)
  let d := (List.range 5).map fun x => kLane c ((x + 4) % 5) ^^^ (kLane c ((x + 1) % 5)).rotateLeft 1
  (List.range 25).map fun i => kLane a i ^^^ kLane d (i % 5)

/-- Steps rho and pi: lane (x, y) of the result comes from lane (x + 3 y, x). -/
def kRhoPi (a : Keccak) : Keccak :=
  (List.range 25).map fun i =>
    let j := (i % 5 + 3 * (i / 5)) % 5 + 5 * (i % 5)
    (kLane a j).rotateLeft ((kRot[j]?).getD 0)

/-- Step chi. -/
def kChi (a : Keccak) : Keccak :=
  (List.range 25).map fun i =>
    let y := i / 5 * 5
    kLane a i ^^^ (~~~kLane a (y + (i + 1) % 5) &&& kLane a (y + (i + 2) % 5))

/-- One round. -/
def kStep (a : Keccak) (rc : BitVec 64) : Keccak :=
  let b := kChi (kRhoPi (kTheta a))
  setAt b 0 (kLane b 0 ^^^ rc)

/-- Keccak-f[1600]. -/
def kPermute (a : Keccak) : Keccak := kRound.foldl kStep a

/-- A block of 136 bytes absorbed. -/
def kAbsorb (a : Keccak) (block : List Byte) : Keccak :=
  kPermute ((List.range 25).map fun i => if i < 17 then kLane a i ^^^ BitVec.ofNat 64 (leField block (8 * i) 8) else kLane a i)

/-- The padded message of SHA3-256: 01 and pad10*1 to a multiple of 136 bytes. -/
def kPad (bs : List Byte) : List Byte :=
  let n := 136 - bs.length % 136
  bs ++ if n = 1 then [0x86] else 0x06 :: (List.replicate (n - 2) 0 ++ [0x80])

/-- Blocks absorbed one after the other; the fuel is the number of blocks. -/
def kAbsorbAll : Nat → Keccak → List Byte → Keccak
  | 0, a, _ => a
  | k + 1, a, bs => kAbsorbAll k (kAbsorb a (bs.take 136)) (bs.drop 136)

/-- The 32-byte SHA3-256 hash of bytes. -/
def sha3 (bs : List Byte) : List Byte :=
  let p := kPad bs
  ((kAbsorbAll (p.length / 136) (List.replicate 25 0) p).take 4).flatMap fun w => leBytes 8 w.toNat

end Sys2Proof.Machine
end

