-- ==== Sys2Proof/Machine/Upload.lean ====
section
/-!
DEFINITION. Machine/Upload.lean: what a graph upload reads, checks and translates (R74-R82, R271-R274, R318, R319, R326, R338). A
parser answers nothing where the object or the image is refused.
-/
namespace Sys2Proof.Machine

/-- Go on only where a check holds. -/
def check (b : Bool) : Option Unit := if b then some () else none

/-- All or nothing. -/
def allSome {α : Type} : List (Option α) → Option (List α)
  | [] => some []
  | none :: _ => none
  | some x :: xs => (allSome xs).map fun ys => x :: ys

/-- Bytes of a list that all lie inside it. -/
def inside (bs : List Byte) (start n : Nat) : Option (List Byte) := if start + n ≤ bs.length then some (slice bs start n) else none

/-- A run of entries of one size. -/
def entriesOf (bs : List Byte) (start size n : Nat) : Option (List (List Byte)) :=
  allSome ((List.range n).map fun i => inside bs (start + size * i) size)

/-! ## Tile level, slot table, liveness (R77, R318, R326) -/

/-- A pos field without its part of `at` clauses keeps its other bits; reserved bits are zero (R77). -/
def posLegal (p : Nat) : Bool := bitsOf p 10 4 == 0

/-- Stroke headers one after the other; the rest begins after the last. DESIGN CHOICE (log 13): a listed wait on a semaphore above 15, which
no tile has, is accepted, and waits on a counter that nothing adds to. -/
def readStrokes (bs : List Byte) (nb : Nat) : Nat → Nat → Option (List Stroke × Nat)
  | 0, at' => some ([], at')
  | k + 1, at' => do
    let h ← inside bs at' 32
    let nwait := leField h 2 2
    let w ← inside bs (at' + 32) (2 * nwait)
    let waits := (List.range nwait).map fun i => leField w (2 * i) 2
    let first := leField h 4 4
    let len := leField h 8 4
    check (posLegal (leField h 0 2) && decide (nwait ≤ 255 ∧ 1 ≤ len ∧ len ≤ 7936 ∧ first + len ≤ nb) && leField h 24 8 == 0 &&
      waits.all fun x => bitsOf x 6 9 == 0)
    let r ← readStrokes bs nb k (at' + ceilDiv (32 + 2 * nwait) 8 * 8)
    pure ({ pos := leField h 0 2, first := first, len := len, cycm := leField h 12 4, cycb := leField h 16 4, nquiet := leField h 20 4,
            waits := waits.map fun x => (bitsOf x 15 1 == 1, bitsOf x 0 6) } :: r.1, r.2)

/-- A tile-level section: strokes and bundles (R77). DESIGN CHOICE (log 13): the 32-byte-aligned offset of the bundles counts from the start of
the section. -/
def readTileLevel (bs : List Byte) : Option (List Stroke × List (BitVec 256)) := do
  let h ← inside bs 0 16
  let ns := leField h 0 4
  let nb := leField h 4 4
  check (decide (1 ≤ ns ∧ ns ≤ 4096 ∧ 1 ≤ nb ∧ nb ≤ 7936) && leField h 8 8 == 0)
  let (ss, at') ← readStrokes bs nb ns 16
  let ws ← entriesOf bs (ceilDiv at' 32 * 32) 32 nb
  pure (ss, ws.map fun w => BitVec.ofNat 256 (leNat w))

/-- Numbers strictly rising. -/
def rising : List Nat → Bool
  | a :: b :: t => decide (a < b) && rising (b :: t)
  | _ => true

/-- A circuit entry of a revolution, inside a rectangle of h by w tiles (R318). -/
def readCircuit (rev h w : Nat) (bs : List Byte) : Option Circuit := do
  let kind := bitsOf (leField bs 0 1) 6 2
  let dq := leField bs 1 1
  let dest := leField bs 2 1
  let ext := leField bs 3 1
  let lh := bitsOf ext 4 3
  let lw := bitsOf ext 0 3
  let nslot := leField bs 6 1
  let offs := (List.range nslot).map fun i => leField bs (8 + i) 1
  let row := dest / 16
  let col := dest % 16
  check (decide (kind < 2 ∧ dq < 8) && (if kind = 1 then decide (lh ≤ 4 ∧ lw ≤ 4) && ext % 16 < 8 && decide (ext < 128) else ext == 0))
  check (decide (row + 2 ^ lh ≤ h ∧ col + 2 ^ lw ≤ w) && row % 2 ^ lh == 0 && col % 2 ^ lw == 0)
  check (decide (1 ≤ leField bs 4 2 ∧ leField bs 4 2 ≤ 4095 ∧ 2 ≤ nslot ∧ nslot ≤ 16) && nslot % 2 == 0 && leField bs 7 1 == 0)
  check (rising offs && (offs.all fun o => decide (o < rev)) && leField bs (8 + nslot) (16 - nslot) == 0 && leField bs 24 8 == 0)
  pure { id := bitsOf (leField bs 0 1) 0 6, multi := kind == 1, q := dq % 4, ui := bitsOf dq 2 1 == 1, row := row, col := col, lh := lh,
         lw := lw, transit := leField bs 4 2, offs := offs, route := [] }

/-- The blocks of a slot table: the position of each, and its circuits. -/
def readBlocks (rev h w : Nat) (bs : List Byte) : Nat → Nat → Option (List Nat × List (Nat × Circuit))
  | 0, _ => some ([], [])
  | k + 1, at' => do
    let b ← inside bs at' 8
    let pos := leField b 0 1
    let n := leField b 1 1
    check (decide (n ≤ 64 ∧ pos / 16 < h ∧ pos % 16 < w) && leField b 2 6 == 0)
    let es ← entriesOf bs (at' + 8) 32 n
    let cs ← allSome (es.map (readCircuit rev h w))
    let r ← readBlocks rev h w bs k (at' + 8 + 32 * n)
    check (decide (pos ∉ r.1))
    pure (pos :: r.1, (cs.map fun c => (pos, c)) ++ r.2)

/-- A slot table of a rectangle of h by w tiles has one block for each of its tiles, and its circuits end inside it (R290, R318). -/
def slotsFit (h w : Nat) (blocks : List Nat) (cs : List (Nat × Circuit)) : Bool :=
  (blocks.isEmpty || (blocks.length == h * w && blocks.all fun p => decide (p / 16 < h ∧ p % 16 < w))) &&
    cs.all fun q => decide (q.2.row + 2 ^ q.2.lh ≤ h ∧ q.2.col + 2 ^ q.2.lw ≤ w)

/-- A slot-table section of a rectangle: revolution, blocks and circuits by tile (R318, R319). -/
def readSlots (h w : Nat) (bs : List Byte) : Option (Nat × List Nat × List (Nat × Circuit)) := do
  let b ← inside bs 0 16
  let rev := leField b 0 2
  let n := leField b 2 2
  check (decide (1 ≤ rev ∧ rev ≤ 256 ∧ 1 ≤ n ∧ n ≤ 256) && leField b 4 12 == 0)
  let (ps, cs) ← readBlocks rev h w bs n 16
  check (routesApart rev cs [] && transitsCover cs)
  pure (rev, ps, cs)

/-- A liveness entry (R326). -/
def readLive (bs : List Byte) : Option Live := do
  let pm := leField bs 22 2
  check (pm % 2 == 0 && decide (pm < 2 ^ 14) && leField bs 29 3 == 0 && decide (leField bs 28 1 < 8))
  let f := fun (w at' n : Nat) => BitVec.ofNat w (leField bs at' n)
  pure { pc := leField bs 0 2, inc := leField bs 2 2, xm := f 64 4 8, vm := f 64 12 8, jm := f 16 20 2, pm := BitVec.ofNat 16 pm, fm := f 16 24 2,
         km := f 8 26 1, cm := f 8 27 1, misc := f 8 28 1 }

/-- The indices of the quiet bundles (R30, R121). -/
def quietBundles (ws : List (BitVec 256)) : List Nat := (ws.zipIdx.filter fun q => bit q.1 28).map Prod.snd

/-- A liveness section: one entry for each quiet bundle, in ascending order (R326). -/
def readLiveness (ws : List (BitVec 256)) (bs : List Byte) : Option (List Live) := do
  let b ← inside bs 0 4
  let es ← entriesOf bs 4 32 (leField b 0 4)
  let ls ← allSome (es.map readLive)
  check (ls.map Live.pc == quietBundles ws)
  pure ls

/-! ## The other sections (R76, R78, R79, R338) -/

/-- The socket and code of a move word whose destination is a trigger (R38), whatever its source, and whether or not this generation has the
code. -/
def triggerPair (w : BitVec 32) : Option (Nat × Nat) :=
  let n := w.toNat
  if bitsOf n 12 1 = 1 ∧ 8 ≤ bitsOf n 0 7 then some (bitsOf n 7 5, bitsOf n 0 7) else none

/-- The pairs of socket and code that bundles trigger (R75, R76). -/
def usedPairs (ws : List (BitVec 256)) : List (Nat × Nat) :=
  (ws.flatMap fun w => (List.range 7).filterMap fun i =>
    let n := match litOf (bitsOf w.toNat 26 2) with | some l => slotCount l | none => 0
    if i < n then triggerPair (bundleWord w (i + 1)) else none).eraseDups

/-- Two lists with the same members. -/
def sameMembers {α : Type} [DecidableEq α] (xs ys : List α) : Bool := (xs.all fun x => decide (x ∈ ys)) && ys.all fun y => decide (y ∈ xs)

/-- The experimental opcodes of generation 1 (R80). -/
def experimental : List (Nat × Nat) := [(6, 17), (7, 16), (14, 11)]
/-- The deprecated opcodes of generation 1 with their removal generation (R80). -/
def deprecated : List ((Nat × Nat) × Nat) := [((1, 33), 3), ((2, 33), 3), ((6, 10), 3)]

/-- Handle entries of a handle section (R78). -/
def readHandle (bs : List Byte) : Option HandleDecl := do
  let shape := BitVec.ofNat 64 (leField bs 8 8)
  check (posLegal (leField bs 0 2) && decide (leField bs 2 2 < 1024) && leField bs 4 4 == 0 && !shapeIllegal shape && fld shape 48 16 == 0 &&
    decide (shapeSize shape ≤ levelMax (handleLevel (leField bs 2 2))))
  pure { pos := leField bs 0 2, h := leField bs 2 2, shape := shape, off := 0, bytes := none }

/-- Data entries one after the other: each names a handle that an entry of the same pos declares (R78). -/
def readData (hs : List HandleDecl) (bs : List Byte) : Nat → Nat → Option (List HandleDecl)
  | 0, _ => some []
  | k + 1, at' => do
    let b ← inside bs at' 16
    let len := leField b 8 4
    let data ← inside bs (at' + 16) len
    let off := leField b 4 4
    check (leField b 12 4 == 0 && hs.any fun h => h.pos == leField b 0 2 && h.h == leField b 2 2 && decide (off + len ≤ shapeSize h.shape))
    let r ← readData hs bs k (at' + 16 + ceilDiv len 8 * 8)
    pure ({ pos := leField b 0 2, h := leField b 2 2, shape := 0, off := off, bytes := some data } :: r)

/-- A handle section (R78). -/
def readHandles (bs : List Byte) : Option (List HandleDecl) := do
  let b ← inside bs 0 8
  let es ← entriesOf bs 8 16 (leField b 0 4)
  let hs ← allSome (es.map readHandle)
  let ds ← readData hs bs (leField b 4 4) (8 + 16 * leField b 0 4)
  pure (hs ++ ds)

/-- A shape byte: log2 of the height and of the width (R79, R272). -/
def shapeByte (n : Nat) : Option (Nat × Nat) :=
  if bitsOf n 7 1 = 0 ∧ bitsOf n 3 1 = 0 ∧ bitsOf n 4 3 ≤ 4 ∧ bitsOf n 0 3 ≤ 4 then some (bitsOf n 4 3, bitsOf n 0 3) else none

/-- A node-shape section: class, shape byte, span (R79). -/
def readShape (bs : List Byte) : Option (Nat × Nat × Nat) := do
  let b ← inside bs 0 8
  let _ ← shapeByte (leField b 1 1)
  check (decide (leField b 0 1 ≤ 2 ∧ 1 ≤ leField b 2 1 ∧ leField b 2 1 ≤ 4) && leField b 3 5 == 0)
  pure (leField b 0 1, leField b 1 1, leField b 2 1)

/-- One stage entry of a main declaration of a rectangle of h by w tiles: its sub-rectangle obeys R21 (R338). -/
def readStage (nfunc h w : Nat) (first : Bool) (bs : List Byte) : Option StageDecl := do
  let sub := leField bs 4 2
  let flags := leField bs 6 1
  let shapeOk := fun (at' : Nat) => decide (leField bs (at' + 4) 1 ≤ 7) && leField bs (at' + 5) 3 == 0
  check (decide (bitsOf sub 12 4 + 2 ^ bitsOf sub 5 3 ≤ h ∧ bitsOf sub 8 4 + 2 ^ bitsOf sub 2 3 ≤ w) && bitsOf sub 12 4 % 2 ^ bitsOf sub 5 3 == 0 &&
    bitsOf sub 8 4 % 2 ^ bitsOf sub 2 3 == 0)
  check (decide (leField bs 0 2 < nfunc ∧ bitsOf sub 5 3 ≤ 4 ∧ bitsOf sub 2 3 ≤ 4) && bitsOf sub 0 2 == 0 && bitsOf flags 1 3 == 0 && leField bs 7 1 == 0)
  check (decide (leField bs 8 1 ≤ 47 ∧ leField bs 8 1 + leField bs 9 1 ≤ 48 ∧ leField bs 12 4 < 2 ^ 22) && leField bs 10 2 == 0 && shapeOk 16 && shapeOk 24 &&
    (first || decide (flags < 16)))
  pure { fn := leField bs 0 2, stroke := leField bs 2 2, sub := BitVec.ofNat 16 sub, pure := flags % 2 == 1, sources := flags / 16,
         pofs := leField bs 8 1, plen := leField bs 9 1, fmt := leField bs 12 4, ishape := BitVec.ofNat 64 (leField bs 16 8),
         oshape := BitVec.ofNat 64 (leField bs 24 8) }

/-- Main declarations one after the other (R338). -/
def readMains (nfunc h w : Nat) (bs : List Byte) : Nat → Nat → Option (List (List StageDecl))
  | 0, _ => some []
  | k + 1, at' => do
    let b ← inside bs at' 8
    let n := leField b 0 1
    check (decide (1 ≤ n ∧ n ≤ 16) && leField b 1 7 == 0)
    let es ← entriesOf bs (at' + 8) 32 n
    let gs ← allSome (es.zipIdx.map fun e => readStage nfunc h w (e.2 == 0) e.1)
    let r ← readMains nfunc h w bs k (at' + 8 + 32 * n)
    pure (gs :: r)

/-- A section of kind 7 (R75, R338). -/
def readMainSection (nfunc h w : Nat) (bs : List Byte) : Option (List (List StageDecl)) := do
  let b ← inside bs 0 8
  check (leField b 2 6 == 0)
  readMains nfunc h w bs (leField b 0 2) 8

/-! ## Code objects (R74, R75, R82) -/

/-- The compute dies of a class that the package has, in service or not (R82, R83); class 2 is either. -/
def diesOfClass (s : State) (cls : Nat) : List Die := s.dev.dies.filter fun d => !(s.dev.variantH && d.m) && (cls == 2 || (cls == 0) == d.m)

/-- The sockets that some tile of a class's dies lacks (R316). -/
def absentSockets (s : State) (cls : Nat) : List Nat :=
  ((diesOfClass s cls).flatMap fun d => (d.engines.filter fun e => e.2 == 32).map fun e => e.1 % 32).eraseDups

/-- The tile level is usable on this package (R82). -/
def tileUsable (s : State) (gen flags step cls : Nat) (pairs : List (Nat × Nat)) : Bool :=
  decide (gen ≤ 1) && (deprecated.all fun d => decide (d.1 ∉ pairs ∨ 1 < d.2)) &&
    (bitsOf flags 0 1 == 0 || (diesOfClass s cls).all fun d => d.stepping == step) &&
    pairs.all fun p => decide (p.1 ∉ absentSockets s cls)

/-- What a translation uses passes checks 2-4 of R82. -/
def translationFits (s : State) (step cls : Nat) (ws : List (BitVec 256)) : Bool :=
  let pairs := usedPairs ws
  tileUsable s 1 (if experimental.any fun p => decide (p ∈ pairs) then 1 else 0) step cls pairs

/-- The part and position of the tiles that a stroke header's `at` clause names, in a node of a span (R395, R398). -/
def clauseTiles (span pos : Nat) : List (Nat × Nat × Nat) :=
  if bitsOf pos 15 1 = 0 then []
  else (if bitsOf pos 14 1 = 1 then [bitsOf pos 8 2] else List.range span).map fun p => (p, bitsOf pos 4 4, bitsOf pos 0 4)

/-- Every `at` clause names positions inside the rectangle and the span, and no two name one tile (R395, R398). -/
def clausesLegal (h w span : Nat) (ss : List Stroke) : Bool :=
  let ts := ss.flatMap fun k => clauseTiles span k.pos
  (ts.all fun q => decide (q.1 < span ∧ q.2.1 < h ∧ q.2.2 < w)) && decide ts.Nodup

/-- What the sections of a tile level give: strokes, bundles, revolution and circuits, liveness. -/
def readNative (h w span : Nat) (tile : List Byte) (slots : Option (List Byte)) (live : List Byte) :
    Option (List Stroke × List (BitVec 256) × (Nat × List Nat × List (Nat × Circuit)) × List Live) := do
  let (ss, ws) ← readTileLevel tile
  let slots ← match slots with | some bs => readSlots h w bs | none => some (1, [], [])
  let ls ← readLiveness ws live
  check (clausesLegal h w span ss)
  pure (ss, ws, slots, ls)

/-- A translated level of a function, for the present steppings and units of its class's dies (R82, R83). -/
def readTranslated (s : State) (step cls h w span level : Nat) (bs cross tile : List Byte) :
    Option (Nat × List Stroke × List (BitVec 256) × (Nat × List Nat × List (Nat × Circuit)) × List Live) := do
  let (t, sl, l) ← Config.translateLevel level cls ((diesOfClass s cls).map Die.stepping) (absentSockets s cls) bs cross tile
  let r ← readNative h w span t (if sl = [] then none else some sl) l
  check (translationFits s step cls r.2.1)
  pure (level, r)

/-- The section of a kind of a function. -/
def sectionOf (secs : List (Nat × Nat × List Byte)) (fn kind : Nat) : Option (List Byte) :=
  (secs.find? fun q => q.1 == kind && q.2.1 == fn).map fun q => q.2.2

/-- How many sections of a kind a function has. -/
def sectionCount (secs : List (Nat × Nat × List Byte)) (fn kind : Nat) : Nat := (secs.filter fun q => q.1 == kind && q.2.1 == fn).length

/-- The numbers of sections that R75 asks of a function. -/
def sectionsLegal (secs : List (Nat × Nat × List Byte)) (fn : Nat) : Bool :=
  let n := sectionCount secs fn
  decide (n 1 ≤ 1 ∧ n 2 ≤ n 1 ∧ n 3 = n 1 ∧ n 4 ≤ 1 ∧ n 5 = 1 ∧ n 7 ≤ 1 ∧ n 8 = n 1 ∧ n 9 ≤ 1 ∧ n 10 ≤ 1) &&
    n 6 == if n 1 + n 4 = 0 then 0 else 1

/-- A function of an object, checked and translated (R75-R79, R82): with the pairs its tile level uses. -/
def readFunc (s : State) (gen flags step nfunc : Nat) (secs : List (Nat × Nat × List Byte)) (fn : Nat) : Option (Func × List (Nat × Nat)) := do
  let sec := sectionOf secs fn
  check (sectionsLegal secs fn)
  let shape ← match sec 10 with | some b => (readShape b).map some | none => some none
  let (h, w) := match shape with | some q => (2 ^ bitsOf q.2.1 4 3, 2 ^ bitsOf q.2.1 0 3) | none => (16, 16)
  let cls := match shape with | some q => q.1 | none => 2
  let span := match shape with | some q => q.2.2 | none => 4
  let handles ← match sec 9 with | some b => readHandles b | none => some []
  let mains ← match sec 7 with | some b => readMainSection nfunc h w b | none => some []
  let native ← match sec 1, sec 3, sec 8 with
    | some t, some l, some p => do
      let r ← readNative h w span t (sec 2) l
      let pairs := Config.summaryPairs p
      check (sameMembers pairs (usedPairs r.2.1))
      pure (some (r, pairs))
    | _, _, _ => some none
  let pairs := match native with | some q => q.2 | none => []
  check (step != 0 || experimental.all fun p => decide (p ∉ pairs))
  let level := fun (k : Nat) => (sec k).bind fun b => readTranslated s step cls h w span k b ((sec 6).getD []) ((sec 1).getD [])
  let other := match level 4 with | some r => some r | none => level 5
  let chosen ← match native with
    | some q => if tileUsable s gen flags step cls q.2 then some (1, q.1) else other
    | none => other
  let (level, ss, ws, (rev, ps, cs), ls) := chosen
  check (shape.isNone || slotsFit h w ps cs)
  pure ({ level := level, strokes := ss, bundles := ws, rev := rev, circuits := cs, blocks := ps, live := ls, handles := handles, shape := shape,
          mains := mains }, pairs)

/-- The section table of an object (R75): vendor-optional entries are ignored. DESIGN CHOICE (log 13): an entry of the kinds 1-10 whose function
index is not below the number of functions, or whose section lies outside the object, refuses the object. -/
def readSections (bs : List Byte) (nfunc at' : Nat) : Option (List (Nat × Nat × List Byte)) := do
  let b ← inside bs at' 8
  let n := leField b 0 4
  check (decide (1 ≤ n ∧ n ≤ 1048576 ∧ n ≤ bs.length) && leField b 4 4 == 0)
  let es ← entriesOf bs (at' + 8) 16 n
  allSome ((es.filter fun e => decide (leField e 0 2 < 0x8000)).map fun e => do
    let kind := leField e 0 2
    check (decide (1 ≤ kind ∧ kind ≤ 10) && decide (leField e 2 2 < nfunc))
    let body ← inside bs (leField e 8 8) (leField e 4 4)
    pure (kind, leField e 2 2, body))

/-- A Grafy object (R74-R82). -/
def readObject (s : State) (bs : List Byte) : Option CodeObject := do
  let h ← inside bs 0 64
  let step := leField h 7 1
  let flags := leField h 8 4
  let nfunc := leField h 12 4
  check (leField h 0 4 == 0x59465247 && leField h 4 2 == 1 && decide (step ≤ 3 ∧ flags < 8 ∧ 1 ≤ nfunc ∧ nfunc ≤ 65535))
  check (decide (1 ≤ leField h 6 1) && leField h 24 8 == bs.length)
  check (slice h 32 32 == sha3 (bs.take 32 ++ List.replicate 32 0 ++ bs.drop 64))
  let secs ← readSections bs nfunc (leField h 16 8)
  let fs ← allSome ((List.range nfunc).map (readFunc s (leField h 6 1) flags step nfunc secs))
  let pairs := fs.flatMap Prod.snd
  check ((bitsOf flags 0 1 == 1) == (experimental.any fun p => decide (p ∈ pairs)) &&
    (bitsOf flags 1 1 == 1) == (deprecated.any fun p => decide (p.1 ∈ pairs)))
  pure { hash := slice h 32 32, gen := leField h 6 1, step := step, funcs := fs.map Prod.fst }

/-! ## The graph image (R271-R274) -/

/-- Sluice declarations of a node (R273). -/
def readSluice (bs : List Byte) : Option (Nat × Nat × Nat × Bool × Nat) := do
  let g := leField bs 1 1
  check (decide (leField bs 0 1 < 64 ∧ g < 128 ∧ bitsOf g 0 3 ≤ 4 ∧ bitsOf g 3 3 ≤ 4 ∧ leField bs 8 8 < 2 ^ 40) && leField bs 2 6 == 0)
  pure (leField bs 0 1, bitsOf g 0 3, bitsOf g 3 3, bitsOf g 6 1 == 1, leField bs 8 8)

/-- A node entry or a template (R272, R274). -/
def readNode (s : State) (image : List Byte) (objs : List CodeObject) (nslot : Nat) (tmpl : Bool) (bs : List Byte) : Option NodeDecl := do
  let f := leField bs
  let (lh, lw) ← shapeByte (f 6 1)
  let pmap := (List.range 8).map fun i => f (40 + 2 * i) 2
  let o ← objs[f 0 2]?
  let fn ← o.funcs[f 2 2]?
  check (decide (f 4 1 ≤ 2 ∧ f 5 1 < 8 ∧ 1 ≤ f 7 1 ∧ f 7 1 ≤ 4 ∧ f 8 4 < 16 ∧ f 16 8 < 2 ^ 40 ∧ f 24 8 ≤ 2 ^ 40 ∧ f 36 1 < 2 ∧ f 37 1 ≤ 64))
  check (f 38 2 == 0 && (f 37 1 != 0 || f 56 8 == 0) && pmap.all fun k => decide (k = 0xFFFF ∨ k < nslot))
  check ((!tmpl || (pmap.take 7).all fun k => k == 0xFFFF) && (fn.shape.isNone || decide (fn.shape = some (f 4 1, f 6 1, f 7 1))))
  check (clausesLegal (2 ^ lh) (2 ^ lw) (f 7 1) fn.strokes && slotsFit (2 ^ lh) (2 ^ lw) fn.blocks fn.circuits)
  check (!s.dev.variantH || (bitsOf (f 8 4) 3 1 == 0 && f 4 1 != 0))
  let es ← entriesOf image (f 56 8) 16 (f 37 1)
  let sl ← allSome (es.map readSluice)
  check (sl.all fun d => decide (d.2.1 ≤ lh ∧ d.2.2.1 ≤ lw))
  pure { obj := f 0 2, fn := f 2 2, cls := f 4 1, prio := f 5 1, lh := lh, lw := lw, span := f 7 1, flags := f 8 4, kill := f 12 4,
         est := f 16 8, wdog := f 24 8, qib := f 32 4, qen := f 36 1 == 1, pmap := pmap, sluices := sl }

/-- An edge: a hand-off joins an M node and a B node (R273). -/
def readEdge (nodes : List NodeDecl) (bs : List Byte) : Option EdgeDecl := do
  let f := leField bs
  let a ← nodes[f 0 4]?
  let b ← nodes[f 4 4]?
  let hand := f 8 4 == 1
  check (decide (f 8 4 < 2) && f 12 4 == 0 && f 40 8 == 0 && f 16 8 % 65536 == 0 && f 24 8 % 65536 == 0)
  check (!hand || (a.cls == 0 && b.cls == 1) || (a.cls == 1 && b.cls == 0))
  pure { src := f 0 4, dst := f 4 4, handoff := hand, rva := BitVec.ofNat 64 (f 16 8), rlen := BitVec.ofNat 64 (f 24 8),
         pool := BitVec.ofNat 64 (f 32 8) }

/-- Nodes without an edge from a node that is left, taken away round by round; a cycle leaves some. -/
def peel (edges : List EdgeDecl) : Nat → List Nat → List Nat
  | 0, left => left
  | k + 1, left => peel edges k (left.filter fun n => edges.any fun e => e.dst == n && decide (e.src ∈ left))

/-- The edges form no cycle (R271). -/
def acyclic (n : Nat) (edges : List EdgeDecl) : Bool := (peel edges n (List.range n)).isEmpty

/-- A graph image, checked and translated whole (R271). -/
def readGraph (s : State) (num : Nat) (bs : List Byte) : Option Graph := do
  let h ← inside bs 0 64
  let f := leField h
  check (f 0 4 == 0x31475247 && f 4 2 == 1 && decide (1 ≤ f 6 2 ∧ f 6 2 ≤ 256 ∧ 1 ≤ f 8 4 ∧ f 8 4 ≤ 65535 ∧ f 12 4 ≤ 1048576) &&
    decide (f 16 2 ≤ 4096 ∧ f 18 2 ≤ 4096) && f 20 4 == 0)
  let os ← entriesOf bs (f 24 8) 16 (f 6 2)
  let objs ← allSome (os.map fun o => (inside bs (leField o 0 8) (leField o 8 8)).bind (readObject s))
  let ns ← entriesOf bs (f 32 8) 64 (f 8 4)
  let nodes ← allSome (ns.map (readNode s bs objs (f 16 2) false))
  let es ← entriesOf bs (f 40 8) 48 (f 12 4)
  let edges ← allSome (es.map (readEdge nodes))
  let ss ← entriesOf bs (f 48 8) 8 (f 16 2)
  let ts ← entriesOf bs (f 56 8) 64 (f 18 2)
  let tmpls ← allSome (ts.map (readNode s bs objs (f 16 2) true))
  check (acyclic (f 8 4) edges)
  pure { num := num, objs := objs, nodes := nodes, edges := edges, slots := ss.map fun x => BitVec.ofNat 64 (leNat x), tmpls := tmpls }

end Sys2Proof.Machine
end

