-- ==== Sys2Proof/Machine/Command.lean ====
section
/-!
DEFINITION. Machine/Command.lean: the command window (R382-R386, R220, R271, R286, R308, R309): stores into it, the queues of its pages,
and every command.
-/
namespace Sys2Proof.Machine

/-! ## Records and queues (R278, R383) -/

/-- A command's record: to the completion queue of the page's context, or of page 0 to the device reply ring. -/
def commandRecord (page op st value why : Nat) (tag : BitVec 56) (s : State) : State :=
  let r := completionRecord 4 st 0 (op * 2 ^ 56 + tag.toNat) value (cisternTsc s 0).toNat why
  if page = 0 then replyRecord r s else doneRecord page r s

/-- A command done, with its result. -/
def commandDone (page op value : Nat) (tag : BitVec 56) (s : State) : State := commandRecord page op 0 value 0 tag s
/-- A command refused (R383). -/
def commandRefused (page op why : Nat) (tag : BitVec 56) (s : State) : State := commandRecord page op 1 0 why tag s

/-- A new reply-ring address or depth applies from the next device-page command (R383). -/
def syncReply (s : State) : State :=
  let w := s.dev.window
  let r := s.dev.hw.reply
  if r.addr = w.ringAddr ∧ r.depth = w.ringDepth.toNat then s
  else
    let s := onHw (fun h => { h with reply := { Ring.reset with addr := w.ringAddr, depth := w.ringDepth.toNat } }) s
    if w.ringAddr = 0 then s else memStore s w.ringAddr.toNat (leBytes 8 0)

/-- The commands waiting on a page. -/
def commandsOf (s : State) (page : Nat) : List (Word × List Word) := tget [] s.dev.window.cmds page

/-- A command of a page acts when a scheduler runs (R26, R383): where it stands at the head of the page's queue it leaves the queue, and
waits there behind an older kick. -/
def takeCommand (page op : Nat) (tag : BitVec 56) (args : List Word) (act : State → State) (s : State) : State :=
  let head := match commandsOf s page with
    | q :: _ => fld q.1 56 8 == op && decide (q.1.setWidth 56 = tag) && q.2.take args.length == args
    | [] => false
  if s.dev.hw.active.isNone || (head && nextIs s page true) then s
  else
    let s := if head then
        let w := { s.dev.window with cmds := tset [] s.dev.window.cmds page ((commandsOf s page).drop 1) }
        popOrder page { s with dev := { s.dev with window := w } }
      else s
    act (if page = 0 then syncReply s else s)

/-- A command of a context's page: one of no context is dropped (R383). -/
def takeContext (ctx op : Nat) (tag : BitVec 56) (args : List Word) (act : Ctx → State → State) (s : State) : State :=
  takeCommand ctx op tag args (fun s => match ctxOf s ctx with | some c => act c s | none => s) s

/-! ## Device commands -/

/-- A ring's address and depth (R277, R383). -/
def ringLegal (s : State) (addr depth : Word) : Bool :=
  let a := addr.toNat
  let last := a + 64 + 64 * depth.toNat - 1
  a % 64 == 0 && decide (64 ≤ depth.toNat ∧ depth.toNat ≤ 65536) && ownAddr s a && addrStatus s a == 0 && ownAddr s last && addrStatus s last == 0

/-- create context (R383). -/
def createContext (root key tokens cAddr cDepth eAddr eDepth : Word) (tag : BitVec 56) (s : State) : State :=
  if !ringLegal s cAddr cDepth || !ringLegal s eAddr eDepth then commandRefused 0 1 2 tag s
  else
    match ((List.range 4095).map Nat.succ).find? fun n => (ctxOf s n).isNone with
    | none => commandRefused 0 1 4 tag s
    | some n =>
      let c : Ctx :=
        { num := n, root := root, key := key, tokens := tokens.toNat, done := { Ring.reset with addr := cAddr, depth := cDepth.toNat },
          events := { Ring.reset with addr := eAddr, depth := eDepth.toNat }, kicks := [], graphs := [] }
      let s := memStore (memStore s cAddr.toNat (leBytes 8 0)) eAddr.toNat (leBytes 8 0)
      let s := onHw (fun h => { h with ctxs := h.ctxs ++ [c] }) s
      let s := if s.dev.fallback then deviceEvent n 1 0 s else s
      commandDone 0 1 n tag s

/-- A node of a destroyed context (R383): it stops without an image; what a held prefix pins stays until the prefix retires (R350). -/
def removeNode (r : NodeRef) (s : State) : State :=
  match nodeOf s r with
  | none => s
  | some n => onHw (fun h => { h with nodes := h.nodes.filter fun m => decide (m.ref ≠ r) }) (vacate n (dropReserved r s))

/-- destroy context (R383). -/
def destroyContext (ctx : Word) (tag : BitVec 56) (s : State) : State :=
  let c := ctx.toNat
  match ctxOf s c with
  | none => commandRefused 0 2 2 tag s
  | some _ =>
    let s := onHw (fun h => { h with ctxs := h.ctxs.filter fun x => x.num != c, completions := h.completions.filter fun p => p.ref.ctx != c,
                                     replays := h.replays.filter fun r => r.ctx != c, frozenQ := h.frozenQ.filter fun q => q.1 != c,
                                     gangs := h.gangs.map fun g => { g with nodes := g.nodes.filter fun r => r.ctx != c } }) s
    let s := (s.dev.hw.nodes.filter fun n => n.ref.ctx == c).foldl (fun s n => removeNode n.ref s) s
    let s := settleMains s
    let forget := fun (t : Tile) => if t.prevCtx = some c then { t with prevCtx := some 0 } else t
    let w := { s.dev.window with cmds := tset [] s.dev.window.cmds c [], order := tset [] s.dev.window.order c [] }
    let s := { s with cur := forget s.cur, peers := s.peers.map forget,
                      dev := { s.dev with cells := s.dev.cells.filter fun x => x.ctx != c, window := w } }
    commandDone 0 2 0 tag (dropTranslations c 0 (2 ^ 48) s)

/-- write SCHED: reserved bits read zero (R286). -/
def writeSched (v : Word) (tag : BitVec 56) (s : State) : State :=
  commandDone 0 3 0 tag (onHw (fun h => { h with sched := v &&& 0x0000FFFFFFFF0000 }) s)

/-- Every gauge and counter of R374 and R375, and the violation logs (R310), as numbers. -/
def allCounters (s : State) : List Nat :=
  (s.dev.islands.flatMap fun e => [e.1, e.2.slack.toNat, e.2.least.toNat, e.2.near.toNat, e.2.steps.toNat]) ++
    ((s.cur :: s.peers).flatMap fun t => [tileIndex t.id, t.perf.issue.toNat, t.perf.freeze.toNat, t.perf.split.toNat, t.perf.wait.toNat]) ++
    (s.dev.links.flatMap fun e => [e.1, e.2.repair.toNat]) ++
    s.dev.errors.flatMap fun e => [e.1, e.2.correctable.toNat, e.2.uncorrectable.toNat, e.2.refused.toNat, e.2.overwritten.toNat] ++
      e.2.log.flatMap fun l => [l.addr.toNat, l.ctx, l.pos, l.kind, l.time.toNat, l.st]

/-- Bytes put into a buffer at a domain address of the device; an address outside its memory is refused. -/
def fillBuffer (op : Nat) (buf : Word) (bs : List Byte) (tag : BitVec 56) (s : State) : State :=
  let a := buf.toNat
  let last := a + bs.length - 1
  if ownAddr s a && addrStatus s a == 0 && ownAddr s last && addrStatus s last == 0 then commandDone 0 op 0 tag (memStore s a bs)
  else commandRefused 0 op 2 tag s

/-- read counters (R383). -/
def readCounters (sel buf : Word) (tag : BitVec 56) (s : State) : State :=
  fillBuffer 4 buf (Config.counterReport sel.toNat (allCounters s)) tag s

/-- What an attestation report signs (R385): nonce, device number, the hash of each firmware image that runs, FEAT and stepping of each
die. -/
def attested (nonce : List Byte) (s : State) : List Byte :=
  nonce ++ leBytes 8 s.dev.fabric.dev ++ (s.dev.firmware.flatMap fun e => sha3 e.2) ++
    s.dev.dies.zipIdx.flatMap fun q => leBytes 8 (featOf s { die := q.2, row := 0, col := 0 }).toNat ++ leBytes 8 q.1.stepping

/-- attestation report (R385). -/
def attest (n0 n1 n2 n3 buf : Word) (tag : BitVec 56) (s : State) : State :=
  let body := attested ([n0, n1, n2, n3].flatMap fun n => leBytes 8 n.toNat) s
  fillBuffer 5 buf (body ++ slice (Config.attestationSignature body) 0 2420) tag s

/-! ## Context commands -/

/-- upload graph (R271): the image stands in the context's address space; a migrating page holds the command (R219). -/
def uploadWaits (ctx : Nat) (addr len : Word) (s : State) : Bool := (readVa s ctx addr.toNat len.toNat).isNone
/-- The upload itself: refused, or stored under the lowest free number. DESIGN CHOICE (log 13): R74 has the refusal's record name the object, and
R278 gives no field for it; the record holds the opcode, the reply tag, which names the upload, and why = 3. -/
def uploadGraph (c : Ctx) (addr len : Word) (tag : BitVec 56) (s : State) : State :=
  if len = 0 then commandRefused c.num 0x10 2 tag s
  else
    match readVa s c.num addr.toNat len.toNat with
    | some (some bs) =>
      match (List.range 65536).find? fun n => c.graphs.all fun g => g.num != n with
      | none => commandRefused c.num 0x10 4 tag s
      | some n =>
        match readGraph s n bs with
        | none => commandRefused c.num 0x10 3 tag s
        | some g => commandDone c.num 0x10 n tag (putCtx { c with graphs := c.graphs ++ [g] } s)
    | _ => commandRefused c.num 0x10 2 tag s

/-- invalidate (R220). -/
def invalidate (c : Ctx) (va len : Word) (tag : BitVec 56) (s : State) : State :=
  commandDone c.num 0x11 0 tag (dropTranslations c.num va.toNat len.toNat s)

/-- The nodes of a queue entry (R308) that a context answers for: its own, and those that hold a prefix which the context owns, whatever
context bound it (R350). -/
def entryNodes (s : State) (ctx : Nat) (w : Word) : List Node :=
  s.dev.hw.nodes.filter fun n => entryWord n.ref == w.toNat &&
    (frozenCtx s n == ctx || s.dev.mains.any fun m => !m.bound && m.owner == ctx && decide (m.node = n.ref))

/-- A node has faulted, or has ended with a held prefix that faulted. -/
def isFaulted (s : State) (n : Node) : Bool :=
  n.state == .faulted || (n.state == .ended && s.dev.mains.any fun m => decide (m.node = n.ref) && m.faulted)

/-- A faulted node discarded: its rectangle frees, its mains are gone (R308). -/
def discardNode (n : Node) (s : State) : State :=
  let s := onMains (fun ms => ms.filter fun m => decide (m.node ≠ n.ref)) (detachNode n.ref s)
  let s := match nodeOf s n.ref with | some m => leaveTiles m s | none => s
  settleMains s

/-- thaw (R308): the frozen entries are handed out again and the node is discarded. -/
def thawNode (c : Ctx) (entry : Word) (tag : BitVec 56) (s : State) : State :=
  match (entryNodes s c.num entry).find? (isFaulted s) with
  | none => commandRefused c.num 0x12 5 tag s
  | some n =>
      let s := onHw (fun h => { h with frozenQ := h.frozenQ.filter fun q => decide (q ≠ (c.num, n.cls, n.prio)) }) s
      commandDone c.num 0x12 0 tag (discardNode n s)

/-- drop (R308): the node is discarded and the entries stay frozen. -/
def dropNode (c : Ctx) (entry : Word) (tag : BitVec 56) (s : State) : State :=
  match (entryNodes s c.num entry).find? fun n => isFaulted s n && !n.parts.isEmpty with
  | none => commandRefused c.num 0x13 5 tag s
  | some n => commandDone c.num 0x13 0 tag (discardNode n s)

/-- The tile that an answer names (R309, R383). -/
def answeredTile (n : Node) (pos : Word) : Option TileId :=
  match n.parts[fld pos 8 2]? with
  | none => none
  | some (d, r, c) =>
    if fld pos 4 4 < 2 ^ n.decl.lh ∧ fld pos 0 4 < 2 ^ n.decl.lw ∧ fld pos 10 54 = 0 then
      some { die := d, row := r + fld pos 4 4, col := c + fld pos 0 4 }
    else none

/-- The answer to a tile that waits in the trap runtime (R309): the bundle is issued again, or the node faults. -/
def answerTile (resolve : Bool) (s : State) : Option State :=
  match s.cur.run, s.cur.ctl.owner with
  | .owner, some f =>
    if resolve then some (onCur returnException s)
    else some (faultCurNode f.cause f.addr (onCur (fun t => { t with ctl := { t.ctl with owner := none } }) s))
  | _, _ => none

/-- The answer to the oldest parked copy of the focused tile with a tag (R251, R309). -/
def answerCopy (resolve : Bool) (tag : Nat) (s : State) : Option State :=
  match s.cur.copies.find? fun c => copyTag c.desc == tag && c.parked.isSome with
  | none => none
  | some c =>
    if resolve then some (onCur (putCopy c.serial fun c => { c with parked := none }) s)
    else some (faultCurNode (c.parked.getD 0) (stopWord c c.atDst) (onCur (endCopy c.serial) s))

/-- The answer to the parked fetch of a main (R309, R418): handle 0 names that of a held prefix at the tile. -/
def answerFetch (resolve : Bool) (c : Ctx) (n : Node) (i : TileId) (h : Nat) (s : State) : Option State :=
  match s.dev.mains.find? fun m => decide (m.node = n.ref) && m.parked.isSome &&
      (if h = 0 then !m.bound && m.owner == c.num && stageTile s m 0 == some i else m.bound && m.ctx == c.num && m.handle == h) with
  | none => none
  | some m =>
    let s1 := putMain { m with parked := none } s
    if resolve then some s1
    else
      match m.parked with
      | some (cause, addr) => some (onTile i (faultCurNode cause addr) s1)
      | none => some s1

/-- resolved and abandon (R309). -/
def answerItem (resolve : Bool) (c : Ctx) (entry pos item : Word) (tag : BitVec 56) (s : State) : State :=
  let op := if resolve then 0x14 else 0x15
  let hit := (entryNodes s c.num entry).findSome? fun n => (answeredTile n pos).bind fun i =>
    let mine := recordCtx s (tileAt s i) n == c.num
    if fld item 18 46 ≠ 0 then none
    else match fld item 16 2, fld item 0 16 with
      | 0, 0 => if mine then (answerTile resolve (focus i s)).map (focus s.cur.id) else none
      | 1, k => if mine then (answerCopy resolve k (focus i s)).map (focus s.cur.id) else none
      | 2, k => answerFetch resolve c n i k s
      | _, _ => none
  match hit with
  | some s => commandDone c.num op 0 tag s
  | none => commandRefused c.num op 5 tag s

/-! ## Stores into the window (R382, R383) -/

/-- The argument words of a page. -/
def pageArgs (s : State) (page : Nat) : List Word := (List.range 7).map fun i => tget 0 s.dev.window.args (page * 8 + i)

/-- A store of the command word (R383): the command joins the page's queue of 16 with the page's arguments, or is dropped. A page without a
context takes none. -/
def storeCommand (page : Nat) (word : Word) (s : State) : State :=
  if page ≠ 0 ∧ (ctxOf s page).isNone then s
  else if (commandsOf s page).length < 16 then
    let w := { s.dev.window with cmds := tset [] s.dev.window.cmds page (commandsOf s page ++ [(word, pageArgs s page)]) }
    pushOrder page false { s with dev := { s.dev with window := w } }
  else if page = 0 then commandRefused 0 (fld word 56 8) 6 (word.setWidth 56) s
  else deviceEvent page 6 0 s

/-- What an aligned 8-byte store to an offset of a page does; nothing at an undefined offset (R382). -/
def storePage (page off : Nat) (v : Word) (s : State) : Option State :=
  if off = 0 ∧ page ≠ 0 then some (storeKick page v s)
  else if off = 0x40 then some (storeCommand page v s)
  else if 0x48 ≤ off ∧ off ≤ 0x78 ∧ off % 8 = 0 then
    some { s with dev := { s.dev with window := { s.dev.window with args := tset 0 s.dev.window.args (page * 8 + (off - 0x48) / 8) v } } }
  else if off = 8 ∧ page = 0 then some { s with dev := { s.dev with window := { s.dev.window with ringAddr := v } } }
  else if off = 16 ∧ page = 0 then some { s with dev := { s.dev with window := { s.dev.window with ringDepth := v } } }
  else none

/-- A refusal at the window logged (R310). -/
def logWindow (s : State) (offset kind st : Nat) : State :=
  logRefusal s (windowPlace s)
    { addr := BitVec.ofNat 64 (s.dev.fabric.dev * 2 ^ 52 + 0xFF0000000000 + offset), ctx := 0, pos := 0xFFFF, kind := kind, time := cisternTsc s 0, st := st }

/-- A store of an endpoint into the window: its status and effect (R381, R382). The first endpoint that writes a page holds it (log 14). -/
def windowStore (sender offset size : Nat) (v : Word) (s : State) : Nat × State :=
  let page := offset / 4096
  let owner := tget 0 s.dev.window.grants page
  if !s.dev.fabric.assigned then (1, s)
  else if owner ≠ 0 ∧ owner ≠ sender + 1 then (5, logWindow s offset 10 5)
  else
    match if size = 8 then storePage page (offset % 4096) v s else none with
    | none => (7, logWindow s offset 10 7)
    | some s => (0, { s with dev := { s.dev with window := { s.dev.window with grants := tset 0 s.dev.window.grants page (sender + 1) } } })

/-- A reply that leaves through the fabric (R380). -/
def sendReply (q : FabricReq) (op st : Nat) (data : List Byte) (time : Word) (s : State) : State :=
  let r : FabricReq :=
    { op := BitVec.ofNat 8 op, st := BitVec.ofNat 8 st, sdev := BitVec.ofNat 16 s.dev.fabric.dev, ddev := q.sdev, addr := q.addr, tag := q.tag, ctl := 0,
      fn := 0, ts := time, data := data, len := data.length, tile := none }
  { s with dev := { s.dev with fabric := { s.dev.fabric with replies := s.dev.fabric.replies ++ [r] } } }

/-- A command-window write that arrives alone, answered (R382). -/
def windowWrite (sender : BitVec 16) (offset : BitVec 24) (size : Nat) (data : Word) (s : State) : State :=
  let x := windowStore sender.toNat offset.toNat size data s
  let q : FabricReq :=
    { op := 2, st := 0, sdev := sender, ddev := BitVec.ofNat 16 s.dev.fabric.dev,
      addr := BitVec.ofNat 64 (s.dev.fabric.dev * 2 ^ 52 + 0xFF0000000000 + offset.toNat), tag := 0, ctl := 0, fn := 0, ts := 0, data := leBytes size data.toNat,
      len := size, tile := none }
  sendReply q 0x82 x.1 [] (cisternTsc x.2 0) x.2

/-! ## The queues served -/

/-- The command at the head of a page's queue acts (R383); an unknown opcode is refused. -/
def serveCommand (page : Nat) (s : State) : State :=
  match commandsOf s page with
  | [] => s
  | (w, as) :: _ =>
    let a := fun (i : Nat) => (as[i]?).getD 0
    let op := fld w 56 8
    let tag := w.setWidth 56
    let go := takeCommand page op tag as
    let goCtx := takeContext page op tag as
    match page, op with
    | 0, 0x01 => go (createContext (a 0) (a 1) (a 2) (a 3) (a 4) (a 5) (a 6) tag) s
    | 0, 0x02 => go (destroyContext (a 0) tag) s
    | 0, 0x03 => go (writeSched (a 0) tag) s
    | 0, 0x04 => go (readCounters (a 0) (a 1) tag) s
    | 0, 0x05 => go (attest (a 0) (a 1) (a 2) (a 3) (a 4) tag) s
    | 0, _ => go (commandRefused 0 op 1 tag) s
    | _, 0x10 => if uploadWaits page (a 0) (a 1) s then s else goCtx (fun c => uploadGraph c (a 0) (a 1) tag) s
    | _, 0x11 => goCtx (fun c => invalidate c (a 0) (a 1) tag) s
    | _, 0x12 => goCtx (fun c => thawNode c (a 0) tag) s
    | _, 0x13 => goCtx (fun c => dropNode c (a 0) tag) s
    | _, 0x14 => goCtx (fun c => answerItem true c (a 0) (a 1) (a 2) tag) s
    | _, 0x15 => goCtx (fun c => answerItem false c (a 0) (a 1) (a 2) tag) s
    | _, _ => goCtx (fun c => commandRefused c.num op 1 tag) s

/-- A page whose head command can act now. -/
def commandReady (s : State) (page : Nat) : Bool :=
  s.dev.hw.active.isSome && !nextIs s page true &&
    match commandsOf s page with
    | [] => false
    | (w, as) :: _ => !(page != 0 && fld w 56 8 == 0x10 && uploadWaits page ((as[0]?).getD 0) ((as[1]?).getD 0) s)

/-! ## Events -/

/-- CREATE_CONTEXT (R383). -/
def execCreateContext (root key tokens cAddr cDepth eAddr eDepth : Word) (tag : BitVec 56) (s : State) : Host.Outcome State Fault Refusal :=
  event (takeCommand 0 1 tag [root, key, tokens, cAddr, cDepth, eAddr, eDepth] (createContext root key tokens cAddr cDepth eAddr eDepth tag) s)
/-- DESTROY_CONTEXT (R383). -/
def execDestroyContext (ctx : Word) (tag : BitVec 56) (s : State) : Host.Outcome State Fault Refusal :=
  event (takeCommand 0 2 tag [ctx] (destroyContext ctx tag) s)
/-- WRITE_SCHED (R286). -/
def execWriteSched (v : Word) (tag : BitVec 56) (s : State) : Host.Outcome State Fault Refusal :=
  event (takeCommand 0 3 tag [v] (writeSched v tag) s)
/-- READ_COUNTERS (R383). -/
def execReadCounters (sel buf : Word) (tag : BitVec 56) (s : State) : Host.Outcome State Fault Refusal :=
  event (takeCommand 0 4 tag [sel, buf] (readCounters sel buf tag) s)
/-- ATTESTATION_REPORT (R385). -/
def execAttestationReport (n0 n1 n2 n3 buf : Word) (tag : BitVec 56) (s : State) : Host.Outcome State Fault Refusal :=
  event (takeCommand 0 5 tag [n0, n1, n2, n3, buf] (attest n0 n1 n2 n3 buf tag) s)
/-- UPLOAD_GRAPH (R271). -/
def execUploadGraph (ctx : BitVec 12) (addr len : Word) (tag : BitVec 56) (s : State) : Host.Outcome State Fault Refusal :=
  event (if uploadWaits ctx.toNat addr len s then s
    else takeContext ctx.toNat 0x10 tag [addr, len] (fun c => uploadGraph c addr len tag) s)
/-- INVALIDATE (R220). -/
def execInvalidate (ctx : BitVec 12) (va len : Word) (tag : BitVec 56) (s : State) : Host.Outcome State Fault Refusal :=
  event (takeContext ctx.toNat 0x11 tag [va, len] (fun c => invalidate c va len tag) s)
/-- THAW (R308). -/
def execThaw (ctx : BitVec 12) (entry : Word) (tag : BitVec 56) (s : State) : Host.Outcome State Fault Refusal :=
  event (takeContext ctx.toNat 0x12 tag [entry] (fun c => thawNode c entry tag) s)
/-- DROP (R308). -/
def execDrop (ctx : BitVec 12) (entry : Word) (tag : BitVec 56) (s : State) : Host.Outcome State Fault Refusal :=
  event (takeContext ctx.toNat 0x13 tag [entry] (fun c => dropNode c entry tag) s)
/-- RESOLVED (R309). -/
def execResolved (ctx : BitVec 12) (entry pos item : Word) (tag : BitVec 56) (s : State) : Host.Outcome State Fault Refusal :=
  event (takeContext ctx.toNat 0x14 tag [entry, pos, item] (fun c => answerItem true c entry pos item tag) s)
/-- ABANDON (R309). -/
def execAbandon (ctx : BitVec 12) (entry pos item : Word) (tag : BitVec 56) (s : State) : Host.Outcome State Fault Refusal :=
  event (takeContext ctx.toNat 0x15 tag [entry, pos, item] (fun c => answerItem false c entry pos item tag) s)
/-- COMMAND_WINDOW_WRITE (R382). -/
def execCommandWindowWrite (sender : BitVec 16) (offset : BitVec 24) (size : Nat) (data : Word) (s : State) : Host.Outcome State Fault Refusal :=
  event (windowWrite sender offset size data s)
/-- COMMAND_WORD_STORE (R383). -/
def execCommandWordStore (page : BitVec 12) (word : Word) (s : State) : Host.Outcome State Fault Refusal :=
  event (if s.dev.fabric.assigned then storeCommand page.toNat word s else s)

end Sys2Proof.Machine
end

