-- ==== Sys2Proof/Machine/Cycle.lean ====
section
/-!
DEFINITION. Machine/Cycle.lean: one cycle of the focused tile (R23, R31, R96, R97, R111, R113, R307, R313, R328, R329): what the
sequencer does, and the work that advances at the end of every cycle or bundle step.
-/
namespace Sys2Proof.Machine

/-! ## Issue -/

/-- The bundle at the PC, or the slot of its first pattern that is no legal encoding: a reserved pattern, or in a slot before it a socket
that is absent or a firing move that breaks R43 (R49, R50). -/
def bundleAt (s : State) : Except Nat Bundle :=
  let t := s.cur
  let w := fetchBundle t t.pc.toNat
  match decodeBundle w with
  | .ok b => .ok b
  | .error (k, _) =>
    let earlier := (List.range (k - 1)).filterMap fun i => (decodeMove (bundleWord w (i + 1)) (bundleLit w)).toOption
    .error ((minSlot (illegalSlot s earlier) (some k)).getD k)

/-- The control operation of the bundle at the PC alone (R116, R124). -/
def controlAt (t : Tile) : Option Instr :=
  let w := fetchBundle t t.pc.toNat
  (decodeCtl (bundleWord w 0) ((bundleLit w).getD 0)).toOption

/-- A lost result waits to be reported (R98): its fault. -/
def lostFault (t : Tile) : Option FaultInfo := t.ctl.lost.map fun q => mkFault 9 q.1 0 0 0

/-- The mark of a lost result gone. -/
def clearLost (t : Tile) : Tile := { t with ctl := { t.ctl with lost := none } }

/-- The oldest late fault taken at a PC (R307). -/
def takeLate (pc : Nat) (inBundle : Bool) (s : State) : State :=
  match s.cur.ctl.late with
  | [] => s
  | f :: fs => takeException f pc false inBundle (onCur (fun t => { t with ctl := { t.ctl with late := fs } }) s)

/-- The bundle at the PC is tried (R96, R104, R307): late faults come before its own checks; the first bundle after a return re-arms what
the fault captured (R99); a bundle with an uncorrectable error raises the poisoned-data fault (R221; DESIGN CHOICE, log 12); a result lost at this step is reported inside the bundle unless it is in a drain wait (R98). -/
def issueAt (s : State) : State × CycleKind :=
  let t := s.cur
  if bit t.csr.status 6 then (onCur (fun t => { t with run := .halted 0 }) s, .step)
  else if t.ctl.late ≠ [] then (takeLate t.pc.toNat true s, .step)
  else if !targetLegal t (isSystem t) t.pc.toNat then (takeException (targetFault t.pc.toNat) t.pc.toNat false true s, .step)
  else if t.pc.toNat ∈ t.code.bad then (takeException (mkFault 17 0 0 0 0) t.pc.toNat false true s, .step)
  else
    let s := if t.ctl.rearms then onCur rearm s else s
    let r :=
      if t.ctl.controlOnly then
        match controlAt t with
        | some c => issueBundle true { ctl := c, moves := [] } s
        | none => (takeException (mkFault 1 0 0 0 0) t.pc.toNat false true s, .step)
      else
        match bundleAt s with
        | .ok b => issueBundle false b s
        | .error k => (takeException (mkFault 1 0 0 k 0) t.pc.toNat false true s, .step)
    match lostFault t with
    | none => r
    | some f =>
      let s := onCur clearLost s
      if r.1.cur.run = .drain then (takeLate t.pc.toNat true (onCur (fun t => addLate t f) s), .step)
      else (takeException f t.pc.toNat false true s, .step)

/-- The tile is about to issue its next bundle (R112, R121, R127, R329, R330): first the traps of the bundle before, then the hold or
stop of a consistent cut, then a user-level interrupt. -/
def aboutToIssue (s : State) : State × CycleKind :=
  if s.cur.ctl.traps ≠ [] then (takeTraps s.cur.pc.toNat false s, .step)
  else if s.cur.ctl.quietPoint ≠ 0 && cutHolds s.cur then
    (if s.cur.ctl.stop.isNone then s else onCur (fun t => { t with run := .cut, ctl := { t.ctl with reported := some t.csr.cutn } }) s, .step)
  else
    let s := tryInterrupt s
    if s.cur.run = .go then issueAt s else (s, .step)

/-! ## The sequencer -/

/-- The bundle after the wait or strokeend bundle at which the tile stands. -/
def afterPc (t : Tile) : Nat := (t.pc.toNat + 1) % 8192

/-- One cycle of a ctl wait (R111, R121, R364). -/
def waitCycle (sem : Bool) (idx n : Nat) (s : State) : State :=
  if s.cur.ctl.late ≠ [] then takeLate (afterPc s.cur) false s
  else
    let s := onCur completeAll s
    if satisfied s.cur sem idx then onCur (fun t => goOn n (setPc (t.pc.toNat + 1) t)) (consume sem idx s)
    else tryInterrupt s

/-- A stroke has ended. -/
def endStroke (t : Tile) : Tile :=
  { t with run := if t.code.strokes = [] then .idle else .between, code := { t.code with running := false } }

/-- One cycle of a strokeend (R113): the drain, the ports discarded, the interrupt point, the xstall cycles. -/
def endCycleOf (drained : Bool) (n : Nat) (s : State) : State :=
  if s.cur.ctl.late ≠ [] then takeLate (afterPc s.cur) false s
  else if !drained && !socketsDone s.cur then s
  else
    let s := tryInterrupt (if drained then s else onCur (fun t => { discardPorts t with run := .ending true n }) s)
    match s.cur.run with
    | .ending true k => onCur (fun t => if k ≤ (if drained then 1 else 0) then endStroke t else
        { t with run := .ending true (if drained then k - 1 else k) }) s
    | _ => s

/-- A report of the cut number to a stop request by a tile between strokes (R329), and its stop at M or past it (R330). -/
def reportIdle (s : State) : State :=
  match curNode s with
  | some n =>
    if n.state = .cutting ∧ s.cur.code.strokes ≠ [] ∧ (s.cur.ctl.reported.isNone ∨ cutHolds s.cur) then
      onCur (fun t => { t with ctl := { t.ctl with reported := some t.csr.cutn } }) s
    else s
  | none => s

/-- One cycle of a tile that runs no stroke (R23, R307). -/
def idleCycle (s : State) : State × CycleKind :=
  if s.cur.ctl.late ≠ [] then (takeLate (afterPc s.cur) false s, .step)
  else
    let s := reportIdle (tryInterrupt s)
    if s.cur.run = .idle ∨ s.cur.run = .between then
      let s := startStroke s
      if s.cur.run = .go then issueAt s else (s, .step)
    else (s, .step)

/-- A frozen bundle, or one in a drain wait, is tried again; a bundle that issues in parts stays frozen to its last one (R97). -/
def retryBundle (s : State) : State × CycleKind :=
  match s.cur.ctl.split with
  | some { left := k + 1, got := g } => (onCur (fun t => { t with ctl := { t.ctl with split := some { left := k, got := g } } }) s, .frozen)
  | _ => issueAt s

/-- What the sequencer of the focused tile does in a cycle that its partner leaves to it. A cycle of the firmware power limit is a freeze
(R388). -/
def ownCycle (s : State) : State × CycleKind :=
  if 0 < s.cur.perf.powerStall then
    (onCur (fun t => { t with perf := { t.perf with powerStall := t.perf.powerStall - 1 } }) s, .frozen)
  else
    match s.cur.run with
    | .idle | .between => idleCycle s
    | .go => aboutToIssue s
    | .stall n => (onCur (fun t => { t with run := if n ≤ 1 then .go else .stall (n - 1) }) s, .step)
    | .frozen | .drain => retryBundle s
    | .waiting sem idx n => (waitCycle sem idx n s, .step)
    | .ending d n => (endCycleOf d n s, .step)
    | .stopped => (settleHeld s, .step)
    | .halted n => (onCur (fun t => { t with run := .halted (n - 1) }) s, .step)
    | .owner | .cut => (s, .step)

/-- The states in which a freeze of the partner holds a tile: it issues, stalls, waits or drains. -/
def inStroke (r : Run) : Bool :=
  match r with
  | .go | .stall _ | .frozen | .drain | .waiting .. | .ending .. => true
  | _ => false

/-- The partner of a checked tile freezes in this cycle (R128): it has done so, where it has taken its turn, or would, where it has not. -/
def partnerFrozen (s : State) : Bool :=
  let p := tileAt s (partnerOf s.cur.id)
  bit s.cur.csr.status 7 && bit p.csr.status 7 &&
    if tookTurn s p then p.ctl.froze else (ownCycle (ringArrivals (focus p.id s))).2 == .frozen

/-- What the sequencer does in a cycle, and whether the tile itself froze: a tile that has issued couple or decouple is frozen until the
partner's operation meets it, and a freeze of one tile of a checked pair freezes both (R128). -/
def sequence (s : State) : State × CycleKind × Bool :=
  let s := if (pairing s.cur).isSome then meetPartner s else s
  if (pairing s.cur).isSome && s.cur.run != .stopped then (s, .frozen, false)
  else if inStroke s.cur.run && partnerFrozen s then (s, .frozen, false)
  else
    let r := ownCycle s
    (r.1, r.2, r.2 == .frozen)

/-! ## The end of a cycle -/

/-- A data-locked result comes due (R92, R173). -/
def tickLocked (t : Tile) : Tile :=
  if t.socks = [] then t
  else
    let due := t.socks.flatMap fun e => e.2.y.flatMap fun p => p.2.fifo.filter fun r => decide (r.due = .cycles 1 ∨ r.due = .cycles 0)
    let step := fun (r : Result) => match r.due with
      | .cycles n => { r with due := if n ≤ 1 then .ready else .cycles (n - 1) }
      | _ => r
    let t := { t with socks := t.socks.map fun e => (e.1, { e.2 with y := e.2.y.map fun p => (p.1, { p.2 with fifo := p.2.fifo.map step }) }) }
    due.foldl (fun t r => updateNpf t r.narrowed r.val) t

/-- The free-running results of a port that are due replace its value, in trigger order (R92, R96). -/
def dueOn (t : Tile) (sock y : Nat) (rs : List Free) : Tile :=
  rs.foldl (fun t r =>
    let k := sockOf t sock
    let p := portOf k y
    let t := if p.unread && bit t.csr.stc 1 && t.ctl.lost.isNone then { t with ctl := { t.ctl with lost := some (sock, y) } } else t
    updateNpf (putSock t sock (putPort k y { p with val := r.val, unread := true })) r.narrowed r.val) t

/-- A bundle step of the free-running pipelines (R96). -/
def tickFree (t : Tile) : Tile :=
  if nothingFlies t then t
  else
    let due := t.socks.flatMap fun e => e.2.y.filterMap fun p =>
      let rs := p.2.flight.filter fun o => decide (o.rem ≤ 1)
      if rs.isEmpty then none else some (e.1, p.1, rs)
    let left := fun (os : List Free) => (os.filter fun o => decide (1 < o.rem)).map fun o => { o with rem := o.rem - 1 }
    let t := { t with socks := t.socks.map fun e => (e.1, { e.2 with y := e.2.y.map fun p => (p.1, { p.2 with flight := left p.2.flight }) }) }
    due.foldl (fun t q => dueOn t q.1 q.2.1 q.2.2) t

/-- A bundle step ends: pipelines and FMT shadows advance; a result lost at a step in which no bundle issues belongs to an earlier
operation (R98). -/
def endStep (k : CycleKind) (t : Tile) : Tile :=
  match k with
  | .frozen => t
  | k =>
    let t := if k = .step then (match lostFault t with | some f => addLate (clearLost t) f | none => t) else t
    tickFmt (tickFree t)

/-- The tile has work (R313). -/
def hasWork (t : Tile) : Bool := t.code.running || !t.code.strokes.isEmpty

/-- The cycles that the hang watchdog leaves out (R313): of a halted tile, of the wait for an owner, and of a tile that its faulted node has
stopped. -/
def watchdogRests (t : Tile) : Bool :=
  match t.run with
  | .halted _ | .owner | .stopped => true
  | _ => false

/-- The cycles that count toward QIB (R328): all since the last quiet bundle or stroke start, but those of a ctl wait, of a user-level
interrupt handler and of a halt. A tile that has started no stroke yet, or has none left, has no interval (log 7). -/
def qibCounts (t : Tile) : Bool :=
  !bit t.csr.status 5 &&
    match t.run with
    | .waiting .. | .halted _ | .stopped | .idle => false
    | _ => hasWork t

/-- The interval has passed its bound (R328): the late fault of cause 11, once. -/
def qibCheck (t : Tile) : Tile :=
  if bit t.csr.qib 32 && decide (fld t.csr.qib 0 32 < t.perf.quietGap) && t.ctl.late.all fun f => f.cause != 11 then
    addLate t (mkFault 11 0 0 0 t.perf.quietGap)
  else t

/-- A 48-bit counter raised where a condition holds. -/
def tally (c : BitVec 48) (b : Bool) : BitVec 48 := if b then c + 1 else c

/-- The watchdog's count after a cycle (R313). -/
def hangAfter (k : CycleKind) (t : Tile) : Nat :=
  if k = .issued || !hasWork t then 0 else if watchdogRests t then t.perf.hang else t.perf.hang + 1

/-- The counters of a cycle (R375, R313, R328). -/
def countCycle (k : CycleKind) (waited split : Bool) (t : Tile) : Tile :=
  let p := t.perf
  let gap := if qibCounts t then p.quietGap + 1 else p.quietGap
  qibCheck { t with wheel := (t.wheel + 1) % 60,
                    perf := { p with issue := tally p.issue (k == .issued), freeze := tally p.freeze (k == .frozen && !split),
                                     split := tally p.split split, wait := tally p.wait waited, hang := hangAfter k t, quietGap := gap } }

/-- The hang watchdog (R313): the counter has reached the period. -/
def watchdogFires (t : Tile) : Bool := decide (t.code.period ≤ t.perf.hang) && !watchdogRests t

/-- The hang fault: cause 25 at the bundle where the tile stands. -/
def hangFault (s : State) : State :=
  if watchdogFires s.cur then
    takeException (mkFault 25 0 0 0 0) s.cur.pc.toNat false false (onCur (fun t => { t with perf := { t.perf with hang := 0 } }) s)
  else s

/-- A tile whose node has faulted in this cycle has taken its turn, and stops (R308). -/
def leaveNow (t : Tile) : Tile :=
  if t.ctl.leaving then let t := stopTile .stopped t; { t with ctl := { t.ctl with leaving := false } } else t

/-- The end of a cycle: the work that advances in every cycle (R96), what a bundle step advances, the counters. -/
def endCycle (k : CycleKind) (waited split : Bool) (s : State) : State :=
  let s := serveBanks s
  let mDie := (dieOf s s.cur.id).m
  let s := onCur (fun t => tickQnt (tickMx mDie t)) s
  let s := onCur ageZero (serveTt s.cur.tt.length s)
  let s := homeReads s.cur.lnk.length s
  let s := if s.cur.checked = [] then s else matchPair (onCur (ageChecked (tileAt s (partnerOf s.cur.id)).checked.length) s)
  onCur leaveNow (hangFault (onCur (fun t => countCycle k waited split (endStep k (tickLocked (completeAll t)))) s))

/-- Before a stroke starts, or in a ctl wait (R375). -/
def waits (t : Tile) : Bool :=
  match t.run with
  | .waiting .. => true
  | .idle | .between => !t.code.strokes.isEmpty
  | _ => false

/-- A frozen cycle of a bundle that issues in parts (R97, R375): its first part, or one before the last. -/
def splitCycle (before after : Tile) : Bool :=
  match before.ctl.split, after.ctl.split with
  | none, some _ => true
  | some b, some _ => decide (0 < b.left)
  | _, _ => false

/-- One cycle of the focused tile: the ring's arrivals, the sequencer, the work at the end. -/
def cycle (s : State) : State :=
  let s := ringArrivals s
  let waited := waits s.cur
  let r := sequence s
  let split := r.2.2 && splitCycle s.cur r.1.cur
  endCycle r.2.1 (waited && r.2.1 != .issued) split (onCur (fun t => { t with ctl := { t.ctl with froze := r.2.2 } }) r.1)

/-! ## The events of a tile -/

/-- The bundle at the PC tried again, where it froze or is in a drain wait. -/
def retry (s : State) : State :=
  match s.cur.run with
  | .frozen | .drain => (retryBundle s).1
  | _ => s

/-- FROZEN_BUNDLE_TAKES_EFFECT (R96). -/
def execFrozenBundleTakesEffect (t : TileId) (s : State) : Host.Outcome State Fault Refusal :=
  event (onTile t (fun s => if s.cur.run = .frozen then (retryBundle s).1 else s) s)
/-- DRAIN_WAIT_END (R96). -/
def execDrainWaitEnd (t : TileId) (s : State) : Host.Outcome State Fault Refusal :=
  event (onTile t (fun s => if s.cur.run = .drain then (retryBundle s).1 else s) s)
/-- SOCKMODE_WRITE_EFFECT (R94): the drain wait of the bundle that writes SOCKMODE ends, or the value of the bundle before applies. -/
def execSockmodeWriteEffect (t : TileId) (s : State) : Host.Outcome State Fault Refusal :=
  event (onTile t (fun s => if s.cur.ctl.mode.isSome then onCur endMoves s else if s.cur.run = .drain then (retryBundle s).1 else s) s)
/-- FMT_WRITE_EFFECT (R72): the writes that are due at the next bundle step. -/
def execFmtWriteEffect (t : TileId) (s : State) : Host.Outcome State Fault Refusal :=
  event (onTile t (onCur fun t =>
    let due := t.ctl.fmtPending.filter fun p => decide (p.rem ≤ 1)
    { t with csr := { t.csr with fmt := due.foldl (fun w p => setFmt w p.field p.val) t.csr.fmt },
             ctl := { t.ctl with fmtPending := t.ctl.fmtPending.filter fun p => decide (1 < p.rem) } }) s)
/-- FREE_RUNNING_RESULT_DUE (R96): the results of a socket that are due at the next bundle step. -/
def execFreeRunningResultDue (t : TileId) (sock : BitVec 5) (s : State) : Host.Outcome State Fault Refusal :=
  event (onTile t (onCur fun t =>
    let k := sockOf t sock.toNat
    let due := k.y.filterMap fun p =>
      let rs := p.2.flight.filter fun o => decide (o.rem ≤ 1)
      if rs.isEmpty then none else some (p.1, rs)
    let t := putSock t sock.toNat { k with y := k.y.map fun p => (p.1, { p.2 with flight := p.2.flight.filter fun o => decide (1 < o.rem) }) }
    due.foldl (fun t q => dueOn t sock.toNat q.1 q.2) t) s)

/-- The results of a socket that are due at the end of this cycle. -/
def lockedDue (sock : Nat) (t : Tile) : Tile :=
  let k := sockOf t sock
  let due := k.y.flatMap fun p => p.2.fifo.filter fun r => decide (r.due = .cycles 1 ∨ r.due = .cycles 0)
  let step := fun (r : Result) => if r.due = .cycles 1 ∨ r.due = .cycles 0 then { r with due := .ready } else r
  let t := putSock t sock { k with y := k.y.map fun p => (p.1, { p.2 with fifo := p.2.fifo.map step }) }
  due.foldl (fun t r => updateNpf t r.narrowed r.val) t

/-- The oldest access of a tile that no timing of the tile answers: a gm access or a fence of gm, an L2 access of lw. -/
def answerOldest (sock : Nat) (s : State) : State :=
  if sock = 13 then
    match s.cur.gm.find? fun e => !e.posted && if e.isFence then fenceDone s e else e.performed with
    | some e => if e.isFence then finishFence e.serial s else replyGm e.serial s
    | none => s
  else if sock = 11 ∨ sock = 12 then
    match tget [] s.cur.lw sock with
    | a :: rest =>
      if handleLevel a.h = 2 && !lwHeld s.cur sock a then performLw sock a (onCur (fun t => { t with lw := tset [] t.lw sock rest }) s) else s
    | [] => s
  else s

/-- DATA_LOCKED_COMPLETION (R92): the results of a socket that are due come to their ports; a memory socket's oldest answer does. -/
def execDataLockedCompletion (t : TileId) (sock : BitVec 5) (s : State) : Host.Outcome State Fault Refusal :=
  event (onTile t (fun s => answerOldest sock.toNat (onCur (lockedDue sock.toNat) s)) s)

/-- LATE_FAULT_REPORT (R307): the oldest late fault is taken inside the next bundle to issue, or at once where the tile issues none. -/
def execLateFaultReport (t : TileId) (s : State) : Host.Outcome State Fault Refusal :=
  event (onTile t (fun s =>
    match s.cur.run with
    | .go | .frozen | .drain => takeLate s.cur.pc.toNat true s
    | .waiting .. | .ending .. | .idle | .between => takeLate (afterPc s.cur) false s
    | _ => s) s)
/-- STORE_RESPONSE_ARRIVAL (R244): the answer to a posted access that has been performed. -/
def execStoreResponseArrival (t : TileId) (serial : Nat) (s : State) : Host.Outcome State Fault Refusal :=
  event (onTile t (fun s => if s.cur.gm.any fun e => e.serial == serial && e.posted then replyGm serial s else s) s)
/-- STROKE_START (R23). -/
def execStrokeStart (t : TileId) (s : State) : Host.Outcome State Fault Refusal :=
  event (onTile t (fun s => if s.cur.run = .idle ∨ s.cur.run = .between then startStroke s else s) s)
/-- WAIT_SATISFIED (R364). -/
def execWaitSatisfied (t : TileId) (s : State) : Host.Outcome State Fault Refusal :=
  event (onTile t (fun s =>
    match s.cur.run with
    | .waiting sem idx n =>
      let s := onCur completeAll s
      if satisfied s.cur sem idx then onCur (fun t => goOn n (setPc (t.pc.toNat + 1) t)) (consume sem idx s) else s
    | _ => s) s)
/-- STROKEEND_DRAIN_END (R113): the drain is over, the ports are discarded, and without xstall cycles the stroke ends. -/
def execStrokeendDrainEnd (t : TileId) (s : State) : Host.Outcome State Fault Refusal :=
  event (onTile t (fun s =>
    match s.cur.run with
    | .ending false n => if s.cur.ctl.late = [] then endCycleOf false n s else s
    | _ => s) s)
/-- USER_INTERRUPT_ENTRY (R122). -/
def execUserInterruptEntry (t : TileId) (s : State) : Host.Outcome State Fault Refusal := event (onTile t tryInterrupt s)
/-- HALT_RESUME (R117): the supervisor clears STATUS.halted; what is left of the halt bundle's cycles without issue follows (R31). -/
def execHaltResume (t : TileId) (s : State) : Host.Outcome State Fault Refusal :=
  event (onTile t (onCur fun t => match t.run with | .halted n => { putStatus t 6 false with run := stallRun n } | _ => t) s)
/-- HANG_WATCHDOG_EXPIRY (R313). -/
def execHangWatchdogExpiry (t : TileId) (s : State) : Host.Outcome State Fault Refusal := event (onTile t hangFault s)
/-- QIB_OVERRUN (R328). -/
def execQibOverrun (t : TileId) (s : State) : Host.Outcome State Fault Refusal := event (onTile t (onCur qibCheck) s)
/-- BANK_WHEEL_SLOT (R16): the accesses whose slot this is are served, and the wheel advances. -/
def execBankWheelSlot (t : TileId) (s : State) : Host.Outcome State Fault Refusal :=
  event (onTile t (fun s => onCur (fun t => { t with wheel := (t.wheel + 1) % 60 }) (serveBanks s)) s)
/-- An access of a stream's unit that may be made now. -/
def streamNow (write : Bool) (f : Nat) (s : State) : State :=
  match tfind s.cur.streams f with
  | some st => if st.write == write && (streamWants s.cur f st).isSome then performStream f s else s
  | none => s
/-- STREAM_FETCH (R231). -/
def execStreamFetch (t : TileId) (f : BitVec 4) (s : State) : Host.Outcome State Fault Refusal :=
  event (onTile t (streamNow false f.toNat) s)
/-- STREAM_STORE (R231). -/
def execStreamStore (t : TileId) (f : BitVec 4) (s : State) : Host.Outcome State Fault Refusal :=
  event (onTile t (streamNow true f.toNat) s)
/-- PAGE_WALK_COMPLETE (R218): the bundle that waits for its translations is tried. -/
def execPageWalkComplete (t : TileId) (s : State) : Host.Outcome State Fault Refusal := event (onTile t retry s)
/-- MIGRATION_WAIT_END (R219): the same once the page has moved. -/
def execMigrationWaitEnd (t : TileId) (s : State) : Host.Outcome State Fault Refusal := event (onTile t retry s)
/-- MX_ARRAY_START (R195). -/
def execMxArrayStart (t : TileId) (s : State) : Host.Outcome State Fault Refusal :=
  event (onTile t (onCur fun t => { t with mx := arrayStart t.mx }) s)
/-- The first mx operation of a kind that has taken its last row or unit completes. -/
def mxEnd (load : Bool) (t : Tile) : Tile :=
  match t.mx.ending.find? fun e => e.op.isLoad == load with
  | some e => completeMx { t with mx := { t.mx with ending := t.mx.ending.erase e } } e
  | none => t
/-- MX_ARRAY_COMPLETE (R178). -/
def execMxArrayComplete (t : TileId) (s : State) : Host.Outcome State Fault Refusal := event (onTile t (onCur (mxEnd false)) s)
/-- MX_LOAD_COMPLETE (R195). -/
def execMxLoadComplete (t : TileId) (s : State) : Host.Outcome State Fault Refusal := event (onTile t (onCur (mxEnd true)) s)
/-- MX_WSWAP_EFFECT (R186). -/
def execMxWswapEffect (t : TileId) (s : State) : Host.Outcome State Fault Refusal :=
  event (onTile t (onCur fun t => { t with mx := swapWork t.mx }) s)
/-- QNT_UNIT_WRITE (R206). -/
def execQntUnitWrite (t : TileId) (s : State) : Host.Outcome State Fault Refusal := event (onTile t (onCur writeUnit) s)
/-- CHECKED_MISMATCH (R311). -/
def execCheckedMismatch (t : TileId) (s : State) : Host.Outcome State Fault Refusal :=
  event (onTile t (fun s => if pairDiffers s then mismatch s else settleHeld s) s)
/-- CHECKED_WRITE_TIMEOUT (R311). -/
def execCheckedWriteTimeout (t : TileId) (s : State) : Host.Outcome State Fault Refusal :=
  event (onTile t (fun s => if waitsTooLong s then mismatch s else s) s)

end Sys2Proof.Machine
end

