-- ==== Sys2Proof/Machine/Fabric.lean ====
section
/-!
DEFINITION. Machine/Fabric.lean: packets of the fabric (R380, R381, R377): requests of other endpoints performed here, requests of this
device's tiles, replies, fence orders, management.
-/
namespace Sys2Proof.Machine

/-! ## Requests of other endpoints (R380, R323) -/

/-- A refusal of a request that came through the fabric ports logged (R310). -/
def edgeLog (s : State) (a kind st : Nat) : State :=
  let place := if st = 3 ∨ st = 4 then 16 + cisField a else windowPlace s
  logRefusal s place { addr := BitVec.ofNat 64 a, ctx := 0, pos := 0xFFFF, kind := kind, time := cisternTsc s 0, st := st }

/-- The request as an access of gm: trigger code, access word, operands, lanes; none where the packet is malformed. A reduction read has the
length of its lanes, a clear the length 0, an atomic of twice its size is a cas (log 14). -/
def edgeAccess (q : FabricReq) : Option GmReq :=
  let w : Word := BitVec.ofNat 64 (q.addr.toNat % 2 ^ 48 + q.fn.toNat * 2 ^ 48)
  let a := q.addr.toNat
  let size := sizeOf (gmSz w)
  let n := gmFx w + 1
  let lanes := fun (k size : Nat) => (List.range k).map fun l => (l, a + l * size)
  let mk := fun (code : Nat) (word : Word) (lanes : List (Nat × Nat)) (x c : Vec) => some
    ({ code := code, word := word, a := x, c := c, lanes := lanes, serial := 0, slot := 0, performed := false, reply := 0, st := 0, replyTs := 0, part := 0,
       group := 0 } : GmReq)
  match q.op.toNat with
  | 4 =>
    if 4 < gmSz w ∨ a % size ≠ 0 then none
    else if q.len = size ∧ (gmSz w = 2 ∨ gmSz w = 3) ∧ gmFx w ≤ 8 then mk 14 w [(0, a)] (bytesVec q.data) 0
    else if q.len = 2 * size ∧ 2 ≤ gmSz w then mk 15 w [(0, a)] (bytesVec (q.data.take size)) (bytesVec (q.data.drop size))
    else none
  | 5 =>
    if 2 < gmSz w ∨ a % redBytes w ≠ 0 ∨ q.len ≠ n * redBytes w then none else mk 16 w (lanes n (redBytes w)) (bytesVec q.data) 0
  | 6 =>
    if 2 < gmSz w ∨ a % redBytes w ≠ 0 then none
    else if q.len = 0 then mk 18 w (lanes n (redBytes w)) 0 0
    else if q.len = n * redBytes w then mk 17 w (lanes n (redBytes w)) 0 0
    else none
  | _ => none

/-- A write of a request at this device: status and state (R380, R382). -/
def edgeWrite (q : FabricReq) (s : State) : Nat × State :=
  let a := q.addr.toNat
  if inWindow a then
    if q.len = 8 then windowStore q.sdev.toNat (bitsOf a 0 24) 8 (BitVec.ofNat 64 (leNat q.data)) s
    else windowStore q.sdev.toNat (bitsOf a 0 24) q.len 0 s
  else
    let last := a + q.len - 1
    let st := if homeRefuses s a q.len ≠ 0 then homeRefuses s a q.len else if q.len = 0 then 0 else addrStatus s last
    if st ≠ 0 then (st, edgeLog s a 2 st) else (0, memStore s a q.data)

/-- A read of a request at this device: status, data and state; of the window only the registers of the reply ring are read (R383). -/
def edgeRead (q : FabricReq) (s : State) : Nat × List Byte × State :=
  let a := q.addr.toNat
  if inWindow a then
    match bitsOf a 0 24, q.len with
    | 8, 8 => (0, leBytes 8 s.dev.window.ringAddr.toNat, s)
    | 16, 8 => (0, leBytes 8 s.dev.window.ringDepth.toNat, s)
    | _, _ => (7, [], edgeLog s a 1 7)
  else
    let x := homeRead s a q.len
    let st := if x.1 ≠ 0 then x.1 else if q.len = 0 then 0 else addrStatus s (a + q.len - 1)
    if st ≠ 0 then (st, [], edgeLog s a 1 st) else (0, x.2, s)

/-- A cistern's timebase raised by a release (R373). -/
def raiseCistern (s : State) (c : Nat) (carried : Word) : State :=
  let new := max (cisternTsc s c).toNat (carried.toNat + 1)
  { s with dev := { s.dev with cisternTsc := tset 0 s.dev.cisternTsc c (BitVec.ofNat 64 new) } }

/-- A request performed: status, data, state. -/
def edgePerform (q : FabricReq) (s : State) : Nat × List Byte × State :=
  let c := cisField q.addr.toNat
  match q.op.toNat with
  | 1 => edgeRead q s
  | 2 => let x := edgeWrite q s; (x.1, [], x.2)
  | 3 =>
    let x := edgeWrite q s
    (x.1, [], if x.1 = 0 then raiseCistern x.2 c q.ts else x.2)
  | 7 => if s.dev.fabric.dev = 0 then (0, [], { s with dev := { s.dev with fabric := { s.dev.fabric with grants := s.dev.fabric.grants + 1 } } }) else (7, [], s)
  | _ =>
    match edgeAccess q with
    | none => (7, [], s)
    | some r =>
      if inWindow q.addr.toNat then (7, [], edgeLog s q.addr.toNat (if r.isRed then 4 else 3) 7)
      else
        let x := performAt s (4096 + q.sdev.toNat) r
        let s := x.2.2.1.foldl (fun s e => edgeLog s e.1 e.2.1 e.2.2) x.2.2.2
        let s := if bit q.ctl 3 && x.1 == 0 && !r.isRed then raiseCistern s c q.ts else s
        let n := if r.code = 17 then r.lanes.length * redBytes r.word else if r.isRed then 0 else r.size
        (x.1, if x.1 = 0 then (vecBytes x.2.1).take n else [], s)

/-- A packet breaks its header's limits (R380): a read and a reduction read carry no data, the others `len` bytes. -/
def malformed (q : FabricReq) : Bool :=
  decide (256 < q.len) || fld q.ctl 5 3 != 0 || q.st != 0 ||
    if q.op = 1 ∨ q.op = 6 ∨ q.op = 7 then !q.data.isEmpty else q.data.length != q.len

/-- The answer of an earlier request of the sender with the same tag (R323, R380). -/
def earlier (s : State) (q : FabricReq) : Option (List Byte × Nat) :=
  (s.dev.fabric.tags.find? fun e => e.1 == q.sdev && e.2.1 == q.tag).map fun e => e.2.2

/-- A request's answer kept: the last 1,024 of each sender. -/
def remember (q : FabricReq) (data : List Byte) (st : Nat) (s : State) : State :=
  let f := s.dev.fabric
  let mine := ((q.sdev, q.tag, data, st) :: f.tags.filter fun e => e.1 == q.sdev).take 1024
  { s with dev := { s.dev with fabric := { f with tags := mine ++ f.tags.filter fun e => e.1 != q.sdev } } }

/-- The op of the answer to a request. -/
def replyOp (op : Nat) : Nat :=
  match op with | 1 => 0x81 | 2 => 0x82 | 3 => 0x82 | 4 => 0x84 | 5 => 0x85 | 6 => 0x86 | 7 => 0x87 | n => n ||| 0x80

/-- A request that has come through a fabric port (R380, R381): performed once and answered. -/
def serveRequest (q : FabricReq) (s : State) : State :=
  let op := replyOp q.op.toNat
  let time := fun (s : State) => cisternTsc s (cisField q.addr.toNat)
  if !s.dev.fabric.assigned ∨ q.ddev.toNat ≠ s.dev.fabric.dev ∨ (q.op ≠ 7 ∧ !ownAddr s q.addr.toNat) then sendReply q op 1 [] 0 s
  else if malformed q then sendReply q op 7 [] (time s) s
  else
    match earlier s q with
    | some (data, st) => sendReply q op st data (time s) s
    | none =>
      let x := edgePerform q s
      sendReply q op x.1 x.2.1 (time x.2.2) (remember q x.2.1 x.1 x.2.2)

/-! ## Requests of this device's tiles -/

/-- The trigger codes of gm that send a request (R380). -/
def opCodes (op : Nat) : List Nat :=
  match op with | 1 => [8, 10, 12, 20] | 2 => [9, 13, 21] | 3 => [11] | 4 => [14, 15] | 5 => [16] | 6 => [17, 18] | _ => []

/-- A fence order of a tile reaches device 0, where this device is device 0: it is granted, in arrival order. -/
def grantFence (serial : Nat) (s : State) : State :=
  match s.cur.gm.find? fun e => decide (e.serial = serial) with
  | none => s
  | some r =>
    if r.isFence && needsGrant r && !r.performed && fenceCovered s r && decide (s.dev.fabric.dev = 0) then
      let f := s.dev.fabric
      onCur (putGm serial fun e => { e with performed := true }) { s with dev := { s.dev with fabric := { f with grants := f.grants + 1 } } }
    else s

/-- A request packet: of a tile of this device, performed at its home here, or of another endpoint. -/
def request (op : Nat) (q : FabricReq) (s : State) : State :=
  if q.op.toNat ≠ op then s
  else
    match q.tile with
    | none => serveRequest q s
    | some (t, serial) =>
      onTile t (fun s =>
        match s.cur.gm.find? fun e => decide (e.serial = serial) with
        | some r => if op = 7 then grantFence serial s else if r.code ∈ opCodes op then performGm serial s else s
        | none => s) s

/-- A packet with a reserved op (R380). -/
def reservedOp (q : FabricReq) (s : State) : State :=
  let op := q.op.toNat
  if (1 ≤ op ∧ op ≤ 7) ∨ op = 0x10 ∨ (0x81 ≤ op ∧ op ≤ 0x87 ∧ op ≠ 0x83) ∨ q.tile.isSome then s
  else sendReply q (replyOp op) (if s.dev.fabric.assigned then 7 else 1) [] (cisternTsc s 0) s

/-! ## Replies (R380, R244) -/

/-- The lanes of an access that another device holds. -/
def farLanes (s : State) (r : GmReq) : List (Nat × Nat) := r.lanes.filter fun q => !ownAddr s q.2 && decide (addrStatus s q.2 = 0)

/-- The data of a reply laid where the far lanes stand in the value. -/
def placeData (r : GmReq) : List (Nat × Nat) → List Byte → Nat
  | [], _ => 0
  | q :: qs, bs => leNat (bs.take (r.lenOf q)) * 2 ^ (8 * r.posOf q) + placeData r qs (bs.drop (r.lenOf q))

/-- A reply to an access of gm: what lies here is performed, what lies there is taken from the reply, and the access is answered. -/
def replyAccess (q : FabricReq) (r : GmReq) (s : State) : State :=
  if r.isFence then
    if q.op.toNat = 0x87 ∧ q.st = 0 ∧ needsGrant r ∧ fenceCovered s r then onCur (putGm r.serial fun e => { e with performed := true }) s else s
  else if !r.remote s || !gmReady s r || !pairLets s r.serial || !((List.range 8).any fun op => decide (r.code ∈ opCodes op ∧ replyOp op = q.op.toNat)) then s
  else
    let x := performHere s r
    let far := farLanes s r
    let st := if x.1 ≠ 0 then x.1 else q.st.toNat
    let reply := if r.posted then 0 else x.2.1 + toVec (placeData r far q.data)
    let done := fun (e : GmReq) => { e with performed := true, st := st, reply := reply, replyTs := q.ts }
    let s := onCur (putGm r.serial done) x.2.2
    let s := if (checkedOf s.cur r.serial).isNone then s
      else match pairMatch s with
        | some (_, b) => onTile (partnerOf s.cur.id) (onCur fun t => { putGm b.serial done t with know := s.cur.know }) (popPair s)
        | none => s
    replyGm r.serial s

/-- A reply to the read of an element of a copy: its bytes, and the element is written as far as it can be; or the copy parked (R221,
R251). -/
def replyRead (q : FabricReq) (c : Copy) (s : State) : State :=
  match copySpot s c false c.done with
  | .ok a =>
    if !copyGoes s.cur c || c.isRead || !a.far s then s
    else if q.st = 0 ∨ q.st = 3 then elementWrite c.serial (some (q.data.map fun x => (x, q.st == 3))) s
    else parkCopy c (if q.st = 6 then 0 else 26) false s
  | _ => s

/-- A reply to the write of an element: it is counted, a refused write is noted, or the copy is parked (R221, R251). -/
def replyWrite (q : FabricReq) (c : Copy) (s : State) : State :=
  match copySpot s c true c.done with
  | .ok b =>
    if !copyGoes s.cur c || !c.isRead || !b.far s then s
    else if q.st = 0 then writeRead c.serial true s
    else if q.st = 4 then
      onCur (fun t => countElement c 0 (failStore t (spotScope s b) false (copyWord (copyDst c.desc) (copyOff c.desc true c.done)))) s
    else parkCopy c (if q.st = 6 then 0 else 26) true s
  | _ => s

/-- A reply to an element of a copy. -/
def replyCopy (q : FabricReq) (c : Copy) (s : State) : State := if q.op = 0x81 then replyRead q c s else replyWrite q c s

/-- FABRIC_REPLY's effect: the reply reaches the access or the copy that it names. -/
def takeReply (q : FabricReq) (s : State) : State :=
  match q.tile with
  | none => s
  | some (t, serial) =>
    onTile t (fun s =>
      match s.cur.gm.find? fun e => decide (e.serial = serial) with
      | some r => replyAccess q r s
      | none =>
        match s.cur.copies.find? fun c => decide (c.serial = serial) with
        | some c => if q.op = 0x81 ∨ q.op = 0x82 then replyCopy q c s else s
        | none => s) s

/-! ## Management (R377, R381, R373) -/

/-- A management packet that leaves: subtype and content (R381). -/
def sendManaged (data : List Byte) (s : State) : State :=
  let q : FabricReq :=
    { op := 0x10, st := 0, sdev := 0, ddev := 0, addr := 0, tag := 0, ctl := 0, fn := 0, ts := 0, data := [], len := 0, tile := none }
  sendReply q 0x10 0 data 0 s

/-- A hello is sent on a port that has trained: the module's serial and the buffer depth of each channel (layout: log 14). -/
def sayHello (port : Nat) (s : State) : State :=
  let f := s.dev.fabric
  if 18 ≤ port ∨ port ∈ f.hello ∨ port ∈ f.lostPorts ∨ !(tget Link.reset s.dev.links port).trained then s
  else
    let l := tget Link.reset s.dev.links port
    let depths := (List.range 4).flatMap fun v => leBytes 1 (((tfind l.chans v).map fun c => c.d.toNat).getD 0)
    sendManaged (leBytes 1 1 ++ leBytes 8 Config.moduleSerial.toNat ++ depths) { s with dev := { s.dev with fabric := { f with hello := port :: f.hello } } }

/-- An assign: the first number is kept until package reset; a different one is discarded and logged. Addresses that carried the old
device field keep it. -/
def assignDev (dev count : Nat) (s : State) : State :=
  let f := s.dev.fabric
  if 2048 ≤ dev then s
  else if !f.assigned then { s with dev := { s.dev with fabric := { f with dev := dev, assigned := true, domain := count } } }
  else if f.dev = dev then s
  else logRefusal s (windowPlace s) { addr := 0, ctx := 0, pos := 0xFFFF, kind := 0, time := cisternTsc s 0, st := 7 }

/-- The timebases of every die and cistern raised to a value (R373, R381). -/
def alignTo (time : Word) (s : State) : State :=
  let up := fun (w : Word) => if w.toNat < time.toNat then time else w
  let tsc := (List.range 12).foldl (fun t c => tset 0 t c (up (tget 0 t c))) s.dev.cisternTsc
  { s with dev := { s.dev with dies := s.dev.dies.map fun d => { d with tsc := up d.tsc }, cisternTsc := tsc } }

/-- A fabric port lost (R377): its link is dead, and every context learns of it. -/
def losePort (port : Nat) (s : State) : State :=
  let f := s.dev.fabric
  if 18 ≤ port ∨ port ∈ f.lostPorts then s
  else
    let links := tset Link.reset s.dev.links port { tget Link.reset s.dev.links port with trained := false, dead := true }
    deviceEventAll 8 0 (sendManaged (leBytes 1 4 ++ leBytes 1 port) { s with dev := { s.dev with fabric := { f with lostPorts := port :: f.lostPorts }, links := links } })

/-! ## Events -/

/-- FABRIC_READ (R380). -/
def execFabricRead (q : FabricReq) (s : State) : Host.Outcome State Fault Refusal := event (request 1 q s)
/-- FABRIC_WRITE (R380). -/
def execFabricWrite (q : FabricReq) (s : State) : Host.Outcome State Fault Refusal := event (request 2 q s)
/-- FABRIC_RELEASE_WRITE (R380). -/
def execFabricReleaseWrite (q : FabricReq) (s : State) : Host.Outcome State Fault Refusal := event (request 3 q s)
/-- FABRIC_ATOMIC (R380). -/
def execFabricAtomic (q : FabricReq) (s : State) : Host.Outcome State Fault Refusal := event (request 4 q s)
/-- FABRIC_REDUCTION (R380). -/
def execFabricReduction (q : FabricReq) (s : State) : Host.Outcome State Fault Refusal := event (request 5 q s)
/-- FABRIC_REDUCTION_READ (R380). -/
def execFabricReductionRead (q : FabricReq) (s : State) : Host.Outcome State Fault Refusal := event (request 6 q s)
/-- FABRIC_FENCE_ORDER (R380). -/
def execFabricFenceOrder (q : FabricReq) (s : State) : Host.Outcome State Fault Refusal := event (request 7 q s)
/-- FABRIC_RESERVED_OP (R380). -/
def execFabricReservedOp (q : FabricReq) (s : State) : Host.Outcome State Fault Refusal := event (reservedOp q s)
/-- FABRIC_REPLY (R380). -/
def execFabricReply (q : FabricReq) (s : State) : Host.Outcome State Fault Refusal := event (takeReply q s)
/-- HELLO (R381). -/
def execHello (port : Nat) (s : State) : Host.Outcome State Fault Refusal := event (sayHello port s)
/-- ASSIGN (R381). -/
def execAssign (dev : BitVec 12) (count : Nat) (s : State) : Host.Outcome State Fault Refusal := event (assignDev dev.toNat count s)
/-- ALIGN (R381). -/
def execAlign (time : Word) (s : State) : Host.Outcome State Fault Refusal := event (alignTo time s)
/-- PORT_LOST (R377). -/
def execPortLost (port : Nat) (s : State) : Host.Outcome State Fault Refusal := event (losePort port s)

end Sys2Proof.Machine
end

