-- ==== Sys2Proof/Machine/Links.lean ====
section
/-!
DEFINITION. Machine/Links.lean: what happens to links (R312, R321-R325, R370, R371, R379): training, credits, audits and their repair, the
fabric's flit numbers, a dead link and what it loses, the reroute, the evacuation of nodes. Machine/Mesh.lean numbers the links.
-/
namespace Sys2Proof.Machine

/-! ## Training and flits (R370, R379) -/

/-- The record that holds a link's repair count: that of the lower of its two numbers. -/
def repairKey (k : Nat) : Nat := min k (reverseLink k)

/-- Training completes on both directions of a link: credits and flit numbers start again. -/
def trainLink (k : Nat) (depth : BitVec 8) (s : State) : State :=
  if !linkExists s k then s
  else [k, reverseLink k].foldl (fun s j =>
    putLink j { Link.reset with trained := true, repair := (linkOf s j).repair, chans := (List.range 4).map fun v => (v, trainedChannel depth) } s) s

/-- A flit of a fabric port that is not idle is numbered and kept; with 512 kept none is sent (R379). -/
def numberFlit (k : Nat) (l : Link) : Option Link :=
  if !isPort k then some l
  else if 512 ≤ l.unacked.length then none
  else some { l with nextSeq := l.nextSeq + 1, unacked := l.unacked ++ [l.nextSeq.toNat] }

/-- A flit that passes its check: the failed flits are no longer consecutive, and a port expects the next number. -/
def goodFlit (k : Nat) (l : Link) : Link := { l with failed := 0, expected := if isPort k then l.expected + 1 else l.expected }

/-- A replay request: the sender sends again from the named flit, in order. -/
def replayFrom (k seq : Nat) (s : State) : State :=
  let l := linkOf s k
  if !l.alive then s else putLink k { goodFlit k l with resend := l.unacked.dropWhile fun x => x != seq } s

/-- An acknowledgment: the flits up to the named one are freed. -/
def acknowledge (k seq : Nat) (s : State) : State :=
  let l := linkOf s k
  if !l.alive ∨ seq ∉ l.unacked then s
  else
    let kept := (l.unacked.dropWhile fun x => x != seq).drop 1
    putLink k { goodFlit k l with unacked := kept, resend := l.resend.filter fun x => decide (x ∈ kept) } s

/-- Credits returned for a channel reach the sender of a direction: over a port those the flit names, inside the package those on their way. -/
def returnCredit (k v : Nat) (crd : BitVec 8) (s : State) : State :=
  let l := linkOf s k
  if !l.alive then s
  else
    let c := chanOf l v
    let n := if isPort k then crd else if crd.toNat ≤ c.back.toNat then crd else c.back
    putLink k (putChan v { c with h := c.h + n, rc := c.rc + n.setWidth 16, back := if isPort k then c.back else c.back - n } (goodFlit k l)) s

/-! ## A dead link (R312, R321-R323) -/

/-- A number names a link, in one of its directions. -/
def isLink (k x : Nat) : Bool := x == k || x == reverseLink k

/-- The destinations that a circuit element of the focused tile, on its way, reaches over a link. -/
def circuitOver (k : Nat) (t : Tile) (e : Elem) : List TileId :=
  match (circuitsAt t).find? fun q => decide (e.circuit = some q.2.id) with
  | none => []
  | some q =>
    ((circuitDests q.2).zip (circuitRoutes q.1 q.2)).filterMap fun x =>
      if x.2.any fun o => decide (o.2.2 < 4) && isLink k (meshLink t.id.die (4 * o.1 + o.2.1) o.2.2)
      then some { die := t.id.die, row := x.1.1, col := x.1.2 } else none

/-- A hop goes over a link. -/
def hopOver (k : Nat) (h : Hop) : Bool := match h with | .across ks _ _ => ks.any (isLink k) | _ => false

/-- The destinations whose flits of an element of the focused tile may be on a link. -/
def onLink (k : Nat) (s : State) (e : Elem) : List TileId :=
  if e.circuit.isSome then if e.sent && e.age != 0 then (circuitOver k s.cur e).filter fun j => decide (j ∈ e.dsts) else []
  else if e.place.isSome && (e.buf.any (isLink k) || hopOver k (packetHop s e)) then e.dsts
  else []

/-- Messages of a tile lost: they count at their source (R323). -/
def countLost (i : TileId) (n : Nat) (s : State) : State :=
  let s := onTile i (onCur fun t => { t with net := { t.net with lost := t.net.lost + BitVec.ofNat 48 n } }) s
  { s with dev := { s.dev with losers := i :: s.dev.losers.filter fun j => decide (j ≠ i) } }

/-- Something that may have been on a dying link was, or was not: which is free (log 19). -/
def mayLose (f : State → State) (s : State) : State :=
  let s' := { s with fresh := s.fresh + 1 }
  if Config.freeBit s.fresh then f s' else s'

/-- The part of an element that was on the link is lost. -/
def loseElem (hit : List TileId) (e : Elem) (s : State) : State :=
  let keep := fun (x : Elem) => { x with dsts := x.dsts.filter fun j => decide (j ∉ hit) }
  let s := countLost s.cur.id hit.length s
  match e.circuit, hit with
  | some _, _ => onCur (putElem e.serial keep) s
  | none, j :: _ => onCur (putPacket e.serial j keep) (leaveBuffer 0 packetFlits e.buf s)
  | none, [] => s

/-- The way of an access of the focused tile to a cistern goes over a link. -/
def wayOver (k c : Nat) (s : State) : Bool := ((homePath s s.cur.id.die c).getD []).any (isLink k)

/-- A store of the focused tile to a cistern buffer lost: FSTAT and the log (R244, R310, R323). -/
def loseStore (e : Entry) (word : Word) (offs : List Nat) (s : State) : State :=
  offs.foldl (fun s off => onCur (fun t => failStore t 2 true word) (logRefusal s s.cur.id.die
    { addr := storageWord e off, ctx := ctxNum s.cur, pos := logPos s.cur, kind := 11, time := tscOf s, st := 6 })) s

/-- The buffer stores of lw of the focused tile that may be lost (R244). -/
def loseLw (k : Nat) (s : State) : State :=
  [11, 12].foldl (fun s sock => (tget [] s.cur.lw sock).foldl (fun s a =>
    match tfind s.cur.table a.h with
    | none => s
    | some e =>
      if e.level ≠ 2 ∨ !(a.code == 9 || a.code == 11 || a.code == 17) ∨ !wayOver k (e.space - 2000) s then s
      else
        let offs := if a.code = 17 then (listLanes a.size a.idx).map fun q => a.off + q.2 * a.size else [a.off]
        mayLose (fun s => loseStore e (handleWord a.h (fld a.word 13 3) a.off) offs
          (onCur (fun t => { t with lw := tset [] t.lw sock ((tget [] t.lw sock).filter fun b => b.serial != a.serial) }) s)) s) s) s

/-- The next elements of the focused tile's streams to buffers that may be lost (R244). -/
def loseDrains (k : Nat) (s : State) : State :=
  s.cur.streams.foldl (fun s q =>
    match tfind s.cur.table q.2.h, q.2.buf with
    | some e, _ :: rest =>
      if e.level ≠ 2 ∨ !q.2.write ∨ !wayOver k (e.space - 2000) s then s
      else
        let off := (elemOff q.2 q.2.unit).toNat
        mayLose (fun s => loseStore e (handleWord q.2.h q.2.esz off) [off]
          (onCur (fun t => { t with streams := tput t.streams q.1 { q.2 with buf := rest, unit := q.2.unit + 1, rows := 0 } }) s)) s
    | _, _ => s) s

/-- The traffic of the focused tile that was on a link is lost: elements, packets and posted writes (R323). Which was there is free (log 19). -/
def loseTraffic (k : Nat) (s : State) : State :=
  let s := s.cur.net.out.foldl (fun s e => let hit := onLink k s e; if hit = [] then s else mayLose (loseElem hit e) s) s
  let s := s.cur.gm.foldl (fun s r =>
    if r.posted && !r.performed && (match r.home s with | some c => wayOver k c s | none => false) then mayLose (loseAccess r) s else s) s
  loseDrains k (loseLw k s)

/-- Branches of multicast packets on a link are lost, counted at their source: a packet that has just crossed it, or a branch about to. -/
def loseMulticast (k : Nat) (s : State) : State :=
  s.dev.vc2.foldl (fun s v =>
    let hit := if v.buf.any (isLink k) then v.left else v.left.filter fun j => hopOver k (hopFrom s (v.place / 16) (v.place % 16) j)
    if hit = [] then s
    else mayLose (fun s =>
      let vs := s.dev.vc2.map fun x => if x.serial = v.serial then { x with left := x.left.filter fun j => decide (j ∉ hit) } else x
      let s := if hit = v.left then leaveBuffer 2 packetFlits v.buf s else s
      countLost v.src hit.length { s with dev := { s.dev with vc2 := vs.filter fun x => !x.left.isEmpty } }) s) s

/-- The nodes that run on tiles. -/
def onTiles (n : Node) : Bool := n.state == .running || n.state == .draining || n.state == .cutting

/-- A link declared dead (R321): what was on it is lost, its dies pause injection (R322), a span node across it fails (R312). A port's traffic
goes over the others (R377). -/
def killLink (k : Nat) (s : State) : State :=
  if (linkOf s k).dead || !linkExists s k then s
  else if isPort (k % 8192) then losePort (k % 8192) s
  else
    let s := ((s.cur :: s.peers).map Tile.id).foldl (fun s i => onTile i (loseTraffic k) s) s
    let s := loseMulticast k s
    let s := [k, reverseLink k].foldl (fun s j => putLink j { linkOf s j with trained := false, dead := true } s) s
    let dies := (linkDies k).eraseDups
    let s := dies.foldl (fun s d => match s.dev.dies[d]? with | some x => putDie s d { x with paused := true } | none => s) s
    if dies.length < 2 then s
    else
      (s.dev.hw.nodes.filter fun n => onTiles n && dies.all fun d => n.parts.any fun q => q.1 == d).foldl (fun s n =>
        match nodeOf s n.ref with | some m => failSpan m s | none => s) s

/-- What a failed flit of a link inside the package was: a flit of a channel, whose credits are not returned, or a credit return, whose credits
are lost (R370); which is free (log 19). A port sends its flits again (R379). -/
def discardFlit (k : Nat) (s : State) : State :=
  if isPort (k % 8192) then s
  else
    let x := (Config.freeValue s.fresh).toNat % 8
    onChan k (x % 4) (fun c => if x < 4 then { c with h := c.h - if c.h = 0 then 0 else 1 } else { c with back := 0 }) { s with fresh := s.fresh + 1 }

/-- A received flit fails its check and is discarded (R370, R379): a replay request names the first number that is missing; the sixteenth in a
row kills the link. -/
def failFlit (k : Nat) (s : State) : State :=
  let l := linkOf s k
  if !l.alive then s
  else
    let s := putLink k { l with failed := l.failed + 1, lost := if isPort k then l.lost ++ [l.expected.toNat] else l.lost } s
    if 16 ≤ l.failed + 1 then killLink k s else discardFlit k s

/-! ## Audits (R371) -/

/-- An audit flit leaves with H and Rc. -/
def sendAudit (k v : Nat) (s : State) : State :=
  let l := linkOf s k
  if !l.alive then s
  else
    match numberFlit k l with
    | none => s
    | some l => let c := chanOf l v; putLink k (putChan v { c with audit := some (c.h, c.rc) } l) s

/-- m of R371. -/
def auditBalance (c : Channel) (h : BitVec 8) (rc : BitVec 16) : Int := (c.d.toNat : Int) - (h.toNat + c.occ.toNat + (c.sc - rc).toNat)

/-- An audit arrives: a channel that lacks the same m > 0 twice gets m credits back, one that has too many twice kills the link. -/
def checkAudit (k v : Nat) (s : State) : State :=
  let l := linkOf s k
  let c := chanOf l v
  match l.alive, c.audit with
  | true, some (h, rc) =>
    let m := auditBalance c h rc
    let l := goodFlit k l
    let put := fun (last : Option Int) => putLink k (putChan v { c with audit := none, last := last } l) s
    if m = 0 then put none
    else if 0 < m then
      if c.last = some m then
        let n := m.toNat
        let c := { c with audit := none, last := none, sc := c.sc + BitVec.ofNat 16 n, rc := c.rc + BitVec.ofNat 16 n, h := c.h + BitVec.ofNat 8 n }
        let s := putLink k (putChan v c l) s
        let s := putLink (repairKey k) { linkOf s (repairKey k) with repair := sat32 (linkOf s (repairKey k)).repair } s
        (linkDies k).eraseDups.foldl (fun s d =>
          match s.dev.dies[d]? with | some x => putDie s d { x with routerLog := x.routerLog ++ [(k, n)] } | none => s) s
      else put (some m)
    else
      match c.last with
      | some p => if p < 0 then killLink k (put none) else put (some m)
      | none => put (some m)
  | _, _ => s

/-! ## The reroute (R322-R325) -/

/-- The type 3 record of a tile that lost messages. -/
def lostRecord (s : State) (i : TileId) : State :=
  let t := tileAt s i
  match t.place.node.bind (nodeOf s) with
  | none => s
  | some n =>
    eventRecord n.ref.ctx (faultRecord 3 0 0 (entryWord n.ref) (queueByte n) t.place.part (relRow t % 16 * 16 + relCol t % 16) 0 0 t.net.lost.toNat
      (dieOf s i).tsc.toNat 0) s

/-- A node without a route evacuated (R325). -/
def evacuate (n : Node) (s : State) : State :=
  if n.decl.has 0 then
    let s := queueCompletion n 3 s
    match nodeOf s n.ref with | some m => if m.state = .cutting then s else beginCut m s | none => s
  else if n.decl.has 1 then requeueNode n.ref false s
  else
    faultNode n 0 0 (eventRecord n.ref.ctx (faultRecord 3 0 1 (entryWord n.ref) (queueByte n) 0 0 0 0 0 (cisternTsc s 0).toNat 0)) s

/-- A node on a die after the recomputation: its circuits rerouted, or the node evacuated where some traffic has no route (R325). -/
def rerouteNode (d : Nat) (s : State) (n : Node) : State :=
  let routed := n.parts.foldl (fun (r : Option State) q => r.bind fun s => if q.1 = d then reroutePart n q s else some s) (some s)
  match routed with
  | some s' => if partsRoute s (2 ^ n.decl.lh) (2 ^ n.decl.lw) n.parts then s' else evacuate n s
  | none => evacuate n s

/-- New routes and slot tables are written and injection resumes on a die (R322); a node without routes is evacuated, and every tile that lost
messages is reported (R323). -/
def rerouteDone (d : Nat) (s : State) : State :=
  match s.dev.dies[d]? with
  | none => s
  | some x =>
    if !x.paused then s
    else
      let s := rewriteTables d (putDie s d { x with paused := false })
      let hit := fun (i : TileId) => decide (i.die = d) || !(dieOf s i).paused
      let s' := (s.dev.losers.filter hit).foldl lostRecord s
      let s := { s' with dev := { s'.dev with losers := s'.dev.losers.filter fun i => !hit i } }
      (s.dev.hw.nodes.filter fun n => onTiles n && !n.failing && n.parts.any fun q => q.1 == d).foldl (fun s n =>
        match nodeOf s n.ref with | some m => rerouteNode d s m | none => s) s

/-- A die leaves service (R14, R322): its intake pulls no more work, and every context learns of it. -/
def dieFails (d : Nat) (s : State) : State :=
  match s.dev.dies[d]? with
  | none => s
  | some x => if x.service then deviceEventAll 3 0 (putDie s d { x with service := false }) else s

/-! ## Events -/

/-- LINK_TRAINED (R370). -/
def execLinkTrained (link : Nat) (depth : BitVec 8) (s : State) : Host.Outcome State Fault Refusal := event (trainLink link depth s)
/-- AUDIT_SEND (R371). -/
def execAuditSend (link : Nat) (vc : BitVec 2) (s : State) : Host.Outcome State Fault Refusal := event (sendAudit link vc.toNat s)
/-- AUDIT_CHECK (R371). -/
def execAuditCheck (link : Nat) (vc : BitVec 2) (s : State) : Host.Outcome State Fault Refusal := event (checkAudit link vc.toNat s)
/-- LINK_DEAD (R321). -/
def execLinkDead (link : Nat) (s : State) : Host.Outcome State Fault Refusal := event (killLink link s)
/-- REROUTE_COMPLETE (R322). -/
def execRerouteComplete (die : BitVec 3) (s : State) : Host.Outcome State Fault Refusal := event (rerouteDone die.toNat s)
/-- REROUTE_TIMEOUT (R322). -/
def execRerouteTimeout (die : BitVec 3) (s : State) : Host.Outcome State Fault Refusal :=
  event (if ((s.dev.dies[die.toNat]?).map Die.paused).getD false then dieFails die.toNat s else s)
/-- LINK_REPLAY_REQUEST (R379). -/
def execLinkReplayRequest (link : Nat) (seq : BitVec 10) (s : State) : Host.Outcome State Fault Refusal := event (replayFrom link seq.toNat s)
/-- LINK_ACKNOWLEDGMENT (R379). -/
def execLinkAcknowledgment (link : Nat) (seq : BitVec 10) (s : State) : Host.Outcome State Fault Refusal := event (acknowledge link seq.toNat s)
/-- LINK_CREDIT (R379). -/
def execLinkCredit (link : Nat) (vc : BitVec 2) (crd : BitVec 8) (s : State) : Host.Outcome State Fault Refusal :=
  event (returnCredit link vc.toNat crd s)
/-- FAILED_FLIT (R379). -/
def execFailedFlit (link : Nat) (s : State) : Host.Outcome State Fault Refusal := event (failFlit link s)

end Sys2Proof.Machine
end

