-- ==== Sys2Proof/Machine/Islands.lean ====
section
/-!
DEFINITION. Machine/Islands.lean: boot (R385, R386), the timebase's tick (R373), the patrol scrub (R221), islands and the margin planner
(R374, R387, R388), a supervisor tile that fails (R14). Islands are numbered (log 19): island j of die d is 60 d + j, cluster c its
islands 3 c (tiles), 3 c + 1 (slice), 3 c + 2 (router), 48-59 the others; H cistern c: 480 + 3 c + j; G cistern 8 + i: 504 + 2 i + j.
-/
namespace Sys2Proof.Machine

/-! ## Boot (R385, R386) -/

/-- The image of a place passes the checks of the boot ROM. -/
def imageRuns (s : State) (place : Nat) : Bool :=
  let bs := tget [] s.dev.firmware place
  sha3 bs == Config.expectedHash bs && Config.signatureHolds bs && decide (Config.antiRollback ≤ Config.securityVersion bs)

/-- A die after package reset: in reset, so out of service, where its image fails; what the part is made of stays. -/
def bootDie (s : State) (d : Nat) (x : Die) : Die :=
  { Die.reset x.m with stepping := x.stepping, service := imageRuns s d && !(x.m && s.dev.variantH), reduced := x.reduced, engines := x.engines }

/-- Package reset: what memory and flash hold stays, everything else is reset; the cistern whose image fails is absent, and the first
that passes of cisterns 0 and 1 does the boot. -/
def resetPackage (s : State) : State :=
  let d := s.dev
  let fitted := (List.range 12).filter fun c => !d.variantH || decide (c < 8)
  let live := fitted.filter fun c => imageRuns s (16 + c)
  let active := if 0 ∈ live then some 0 else if 1 ∈ live then some 1 else none
  { State.reset with
    dev := { Device.reset with
      variantH := d.variantH, dies := d.dies.zipIdx.map (fun q => bootDie s q.2 q.1), cisterns := live, mem := d.mem, poison := d.poison,
      storage := d.storage, storagePoison := d.storagePoison, firmware := d.firmware, booted := active.isSome, fallback := active == some 1,
      hw := { Headworks.reset with active := active } }
    fresh := s.fresh }

/-! ## Timebase and scrub -/

/-- A tick of the package reference clock (R373). -/
def tick (s : State) : State :=
  let tsc := (List.range 12).foldl (fun t c => tset 0 t c (tget 0 t c + 1)) s.dev.cisternTsc
  { s with dev := { s.dev with dies := s.dev.dies.map fun d => { d with tsc := d.tsc + 1 }, cisternTsc := tsc } }

/-- A word read by the background scrub (R221): a corrected word is counted, an uncorrectable one is poisoned and logged. -/
def scrub (a : Nat) (found : ScrubResult) (s : State) : State :=
  if !ownAddr s a || addrStatus s a ≠ 0 then s
  else
    let place := 16 + cisField a
    match found with
    | .clean => s
    | .correctable => onErrors s place fun e => { e with correctable := sat32 e.correctable }
    | .uncorrectable =>
      if a / 32 ∈ s.dev.poison then s
      else
        let s := { s with dev := { s.dev with poison := a / 32 :: s.dev.poison } }
        let e : LogEntry := { addr := BitVec.ofNat 64 (a / 32 * 32), ctx := 0, pos := 0xFFFF, kind := 1, time := cisternTsc s (cisField a), st := 3 }
        onErrors s place fun r =>
          let full := decide (256 ≤ r.log.length)
          { r with uncorrectable := sat32 r.uncorrectable, overwritten := if full then sat32 r.overwritten else r.overwritten,
                   log := (if full then r.log.drop 1 else r.log) ++ [e] }

/-- An error of an ECC word of a place corrected and counted, or the word poisoned by `mark` and its address logged (R221). -/
def foundWord (place : Nat) (addr : Word) (time : Word) (bad already : Bool) (mark : State → State) (s : State) : State :=
  if !bad then onErrors s place fun e => { e with correctable := sat32 e.correctable }
  else if already then s
  else
    onErrors (mark s) place fun r =>
      let full := decide (256 ≤ r.log.length)
      { r with uncorrectable := sat32 r.uncorrectable, overwritten := if full then sat32 r.overwritten else r.overwritten,
               log := (if full then r.log.drop 1 else r.log) ++ [{ addr := addr, ctx := 0, pos := 0xFFFF, kind := 1, time := time, st := 3 }] }

/-- What an access finds before it takes effect (R221): in cistern memory as the scrub does; in storage, a well or an instruction buffer;
a parity error of a reduction cell, which its next read shows. -/
def foundError (place : ErrorAt) (bad : Bool) (s : State) : State :=
  match place with
  | .memory a => scrub a (if bad then .uncorrectable else .correctable) s
  | .storage space w =>
    let ps := tget [] s.dev.storagePoison space
    let mark := fun (s : State) => { s with dev := { s.dev with storagePoison := tset [] s.dev.storagePoison space (w :: ps) } }
    if 2000 ≤ space then
      foundWord (16 + (space - 2000)) (BitVec.ofNat 64 ((space - 2000) * 2 ^ 44 + 8 * w)) (cisternTsc s (space - 2000)) bad (decide (w ∈ ps)) mark s
    else
      let d := (space - 1000) / 16
      foundWord d (BitVec.ofNat 64 (8 * w)) (((s.dev.dies[d]?).map Die.tsc).getD 0) bad (decide (w ∈ ps)) mark s
  | .well i w =>
    let t := tileAt s i
    foundWord i.die (BitVec.ofNat 64 (8 * w)) (dieOf s i).tsc bad (decide (w ∈ t.wellPoison))
      (onTile i (onCur fun t => { t with wellPoison := w :: t.wellPoison })) s
  | .cell ctx a => if bad then match cellOf s ctx a with | some c => putCell s { c with parity := true } | none => s else s
  | .bundle i k =>
    let t := tileAt s i
    foundWord i.die 0 (dieOf s i).tsc bad (decide (k ∈ t.code.bad))
      (onTile i (onCur fun t => { t with code := { t.code with bad := k :: t.code.bad } })) s

/-! ## Islands (R374, R387, R388) -/

/-- An island by number. -/
def islandOf (s : State) (k : Nat) : Island := tget Island.reset s.dev.islands k
/-- An island written back. -/
def putIsland (k : Nat) (x : Island) (s : State) : State := { s with dev := { s.dev with islands := tset Island.reset s.dev.islands k x } }
/-- The number of islands: 512, of which an SG9-H has those of B dies and H cisterns (R387). -/
def islandExists (s : State) (k : Nat) : Bool :=
  decide (k < 512) && (!s.dev.variantH || (decide (240 ≤ k) && decide (k < 504)))

/-- A sample of the monitored path (R374). -/
def sampleGauge (k : Nat) (slack : BitVec 8) (s : State) : State :=
  if !islandExists s k then s
  else
    let x := islandOf s k
    let near := decide (slack.toNat < Config.guardSlack)
    putIsland k { x with slack := slack, least := if slack.toNat < x.least.toNat then slack else x.least, near := if near then sat32 x.near else x.near } s

/-- The planner raises an idle island's voltage by one step of 5 mV (R388). -/
def raiseVoltage (k : Nat) (s : State) : State :=
  if !islandExists s k then s else let x := islandOf s k; putIsland k { x with volts := x.volts + 1 } s

/-- The step group of an island (R388): tiles and slice of a cluster; the routers of a die; else the island alone. -/
def stepGroup (k : Nat) : List Nat :=
  if k < 480 then
    let d := k / 60
    let j := k % 60
    if 48 ≤ j then [k]
    else if j % 3 = 2 then (List.range 16).map fun c => 60 * d + 3 * c + 2
    else [60 * d + j / 3 * 3, 60 * d + j / 3 * 3 + 1]
  else [k]

/-- The clock of an island in MHz before any step. -/
def baseClock (k : Nat) : Nat :=
  if k < 480 ∧ k % 60 < 48 then (if k % 60 % 3 = 2 then 2000 else 3000) else Config.islandClock k

/-- A node runs on the die of an island, or the island belongs to no compute die. -/
def affectedBy (k : Nat) (n : Node) : Bool := decide (480 ≤ k) || n.parts.any fun q => q.1 == k / 60

/-- The whole step group goes down by 100 MHz; the contexts with a node there learn the new frequency (R384, R388). -/
def stepDown (k : Nat) (s : State) : State :=
  if !islandExists s k then s
  else
    let s := (stepGroup k).foldl (fun s j => let x := islandOf s j; putIsland j { x with steps := if x.steps = 255 then 255 else x.steps + 1 } s) s
    let mhz := baseClock k - 100 * (islandOf s k).steps.toNat
    let cs := s.dev.hw.ctxs.filter fun c => s.dev.hw.nodes.any fun n => n.ref.ctx == c.num && affectedBy k n
    cs.foldl (fun s c => deviceEvent c.num 2 mhz s) s

/-! ## Events -/

/-- PACKAGE_RESET (R385). -/
def execPackageReset (s : State) : Host.Outcome State Fault Refusal := event (resetPackage s)
/-- TIMEBASE_TICK (R373). -/
def execTimebaseTick (s : State) : Host.Outcome State Fault Refusal := event (tick s)
/-- PATROL_SCRUB (R221). -/
def execPatrolScrub (addr : Word) (found : ScrubResult) (s : State) : Host.Outcome State Fault Refusal := event (scrub addr.toNat found s)
/-- LEVEL_GAUGE_SAMPLE (R374). -/
def execLevelGaugeSample (island : Nat) (slack : BitVec 8) (s : State) : Host.Outcome State Fault Refusal := event (sampleGauge island slack s)
/-- VOLTAGE_RAISE (R388). -/
def execVoltageRaise (island : Nat) (s : State) : Host.Outcome State Fault Refusal := event (raiseVoltage island s)
/-- FREQUENCY_STEP (R388). -/
def execFrequencyStep (island : Nat) (s : State) : Host.Outcome State Fault Refusal := event (stepDown island s)
/-- POWER_LIMIT_STALL (R388): stall cycles count as frozen cycles. -/
def execPowerLimitStall (t : TileId) (n : Nat) (s : State) : Host.Outcome State Fault Refusal :=
  event (onTile t (onCur fun t => { t with perf := { t.perf with powerStall := t.perf.powerStall + n } }) s)
/-- SUPERVISOR_TILE_FAILURE (R14). -/
def execSupervisorTileFailure (die : BitVec 3) (s : State) : Host.Outcome State Fault Refusal := event (dieFails die.toNat s)

end Sys2Proof.Machine
end

