-- ==== Sys2Proof/Machine/Dispatch.lean ====
section
/-!
DEFINITION. Machine/Dispatch.lean: one arm per instruction, each one call of its meaning.
-/
namespace Sys2Proof.Machine

/-- What each instruction does: one meaning per row of the opcode table. -/
def exec (i : Instr) (s : State) : Host.Outcome State Fault Refusal :=
  match i with
  | .ctlNop h => Sys2Proof.Machine.execCtlNop h s
  | .ctlStall h m => Sys2Proof.Machine.execCtlStall h m s
  | .ctlBra h d => Sys2Proof.Machine.execCtlBra h d s
  | .ctlBrp h p inv d => Sys2Proof.Machine.execCtlBrp h p inv d s
  | .ctlBri h x => Sys2Proof.Machine.execCtlBri h x s
  | .ctlCall h d => Sys2Proof.Machine.execCtlCall h d s
  | .ctlRet h => Sys2Proof.Machine.execCtlRet h s
  | .ctlLoop h body stages trip strides => Sys2Proof.Machine.execCtlLoop h body stages trip strides s
  | .ctlLend h b => Sys2Proof.Machine.execCtlLend h b s
  | .ctlLbrk h => Sys2Proof.Machine.execCtlLbrk h s
  | .ctlWait h idx sem => Sys2Proof.Machine.execCtlWait h idx sem s
  | .ctlTrap h => Sys2Proof.Machine.execCtlTrap h s
  | .ctlFmt h f v => Sys2Proof.Machine.execCtlFmt h f v s
  | .ctlUiret h => Sys2Proof.Machine.execCtlUiret h s
  | .ctlStrokeend h => Sys2Proof.Machine.execCtlStrokeend h s
  | .ctlHalt h => Sys2Proof.Machine.execCtlHalt h s
  | .ctlSret h => Sys2Proof.Machine.execCtlSret h s
  | .moveToRegister g x r => Sys2Proof.Machine.execMoveToRegister g x r s
  | .moveToStream g x f => Sys2Proof.Machine.execMoveToStream g x f s
  | .moveToOperand g x sk o => Sys2Proof.Machine.execMoveToOperand g x sk o s
  | .iaAdd g x n => Sys2Proof.Machine.execIaAdd g x n s
  | .iaSub g x n => Sys2Proof.Machine.execIaSub g x n s
  | .iaAnd g x n => Sys2Proof.Machine.execIaAnd g x n s
  | .iaOr g x n => Sys2Proof.Machine.execIaOr g x n s
  | .iaXor g x n => Sys2Proof.Machine.execIaXor g x n s
  | .iaAndn g x n => Sys2Proof.Machine.execIaAndn g x n s
  | .iaShl g x n => Sys2Proof.Machine.execIaShl g x n s
  | .iaShr g x n => Sys2Proof.Machine.execIaShr g x n s
  | .iaSra g x n => Sys2Proof.Machine.execIaSra g x n s
  | .iaMin g x n => Sys2Proof.Machine.execIaMin g x n s
  | .iaMax g x n => Sys2Proof.Machine.execIaMax g x n s
  | .iaMinu g x n => Sys2Proof.Machine.execIaMinu g x n s
  | .iaMaxu g x n => Sys2Proof.Machine.execIaMaxu g x n s
  | .iaCeq g x n => Sys2Proof.Machine.execIaCeq g x n s
  | .iaCne g x n => Sys2Proof.Machine.execIaCne g x n s
  | .iaClt g x n => Sys2Proof.Machine.execIaClt g x n s
  | .iaCltu g x n => Sys2Proof.Machine.execIaCltu g x n s
  | .iaCle g x n => Sys2Proof.Machine.execIaCle g x n s
  | .iaCleu g x n => Sys2Proof.Machine.execIaCleu g x n s
  | .iaSel g x n => Sys2Proof.Machine.execIaSel g x n s
  | .iaPass g x n => Sys2Proof.Machine.execIaPass g x n s
  | .iaSext g x n => Sys2Proof.Machine.execIaSext g x n s
  | .iaZext g x n => Sys2Proof.Machine.execIaZext g x n s
  | .iaClz g x n => Sys2Proof.Machine.execIaClz g x n s
  | .iaPopc g x n => Sys2Proof.Machine.execIaPopc g x n s
  | .iaAddsc g x n => Sys2Proof.Machine.execIaAddsc g x n s
  | .iaBext g x n => Sys2Proof.Machine.execIaBext g x n s
  | .iaBins g x n => Sys2Proof.Machine.execIaBins g x n s
  | .imdMul g x => Sys2Proof.Machine.execImdMul g x s
  | .imdMulh g x => Sys2Proof.Machine.execImdMulh g x s
  | .imdMulhu g x => Sys2Proof.Machine.execImdMulhu g x s
  | .imdDiv g x => Sys2Proof.Machine.execImdDiv g x s
  | .imdDivu g x => Sys2Proof.Machine.execImdDivu g x s
  | .imdRem g x => Sys2Proof.Machine.execImdRem g x s
  | .imdRemu g x => Sys2Proof.Machine.execImdRemu g x s
  | .vaFadd g x n => Sys2Proof.Machine.execVaFadd g x n s
  | .vaFsub g x n => Sys2Proof.Machine.execVaFsub g x n s
  | .vaFmul g x n => Sys2Proof.Machine.execVaFmul g x n s
  | .vaFma g x n => Sys2Proof.Machine.execVaFma g x n s
  | .vaFmin g x n => Sys2Proof.Machine.execVaFmin g x n s
  | .vaFmax g x n => Sys2Proof.Machine.execVaFmax g x n s
  | .vaFsgn g x n => Sys2Proof.Machine.execVaFsgn g x n s
  | .vaFcmp g x n => Sys2Proof.Machine.execVaFcmp g x n s
  | .vaFcvt g x n => Sys2Proof.Machine.execVaFcvt g x n s
  | .vaFround g x n => Sys2Proof.Machine.execVaFround g x n s
  | .vaFtoi g x n => Sys2Proof.Machine.execVaFtoi g x n s
  | .vaItof g x n => Sys2Proof.Machine.execVaItof g x n s
  | .vaIadd g x n => Sys2Proof.Machine.execVaIadd g x n s
  | .vaIsub g x n => Sys2Proof.Machine.execVaIsub g x n s
  | .vaImul g x n => Sys2Proof.Machine.execVaImul g x n s
  | .vaIand g x n => Sys2Proof.Machine.execVaIand g x n s
  | .vaIor g x n => Sys2Proof.Machine.execVaIor g x n s
  | .vaIxor g x n => Sys2Proof.Machine.execVaIxor g x n s
  | .vaIshl g x n => Sys2Proof.Machine.execVaIshl g x n s
  | .vaIshr g x n => Sys2Proof.Machine.execVaIshr g x n s
  | .vaIsra g x n => Sys2Proof.Machine.execVaIsra g x n s
  | .vaImin g x n => Sys2Proof.Machine.execVaImin g x n s
  | .vaImax g x n => Sys2Proof.Machine.execVaImax g x n s
  | .vaIcmp g x n => Sys2Proof.Machine.execVaIcmp g x n s
  | .vaBlend g x n => Sys2Proof.Machine.execVaBlend g x n s
  | .vaSplat g x n => Sys2Proof.Machine.execVaSplat g x n s
  | .vaFclass g x n => Sys2Proof.Machine.execVaFclass g x n s
  | .vxPerm g x => Sys2Proof.Machine.execVxPerm g x s
  | .vxRot g x => Sys2Proof.Machine.execVxRot g x s
  | .vxShufl g x => Sys2Proof.Machine.execVxShufl g x s
  | .vxRedadd g x => Sys2Proof.Machine.execVxRedadd g x s
  | .vxRedmax g x => Sys2Proof.Machine.execVxRedmax g x s
  | .vxRedmin g x => Sys2Proof.Machine.execVxRedmin g x s
  | .vxScan g x => Sys2Proof.Machine.execVxScan g x s
  | .vxPart g x => Sys2Proof.Machine.execVxPart g x s
  | .vxCompact g x => Sys2Proof.Machine.execVxCompact g x s
  | .vxExpand g x => Sys2Proof.Machine.execVxExpand g x s
  | .vxBcast g x => Sys2Proof.Machine.execVxBcast g x s
  | .sfuExp2 g x => Sys2Proof.Machine.execSfuExp2 g x s
  | .sfuLog2 g x => Sys2Proof.Machine.execSfuLog2 g x s
  | .sfuRcp g x => Sys2Proof.Machine.execSfuRcp g x s
  | .sfuRsqrt g x => Sys2Proof.Machine.execSfuRsqrt g x s
  | .sfuSqrt g x => Sys2Proof.Machine.execSfuSqrt g x s
  | .sfuSinpi g x => Sys2Proof.Machine.execSfuSinpi g x s
  | .sfuCospi g x => Sys2Proof.Machine.execSfuCospi g x s
  | .sfuTanh g x => Sys2Proof.Machine.execSfuTanh g x s
  | .sfuSigm g x => Sys2Proof.Machine.execSfuSigm g x s
  | .mxWload g x => Sys2Proof.Machine.execMxWload g x s
  | .mxWswap g x => Sys2Proof.Machine.execMxWswap g x s
  | .mxMstream g x => Sys2Proof.Machine.execMxMstream g x s
  | .mxMstreamn g x => Sys2Proof.Machine.execMxMstreamn g x s
  | .mxMclr g x => Sys2Proof.Machine.execMxMclr g x s
  | .mxMread g x => Sys2Proof.Machine.execMxMread g x s
  | .mxMacw g x => Sys2Proof.Machine.execMxMacw g x s
  | .mxMivl g x => Sys2Proof.Machine.execMxMivl g x s
  | .mxWloadsp g x => Sys2Proof.Machine.execMxWloadsp g x s
  | .qntQnt g x => Sys2Proof.Machine.execQntQnt g x s
  | .qntQflush g x => Sys2Proof.Machine.execQntQflush g x s
  | .qntQrange g x => Sys2Proof.Machine.execQntQrange g x s
  | .qntQthr g x => Sys2Proof.Machine.execQntQthr g x s
  | .ivIadd g x => Sys2Proof.Machine.execIvIadd g x s
  | .ivIsub g x => Sys2Proof.Machine.execIvIsub g x s
  | .ivImul g x => Sys2Proof.Machine.execIvImul g x s
  | .ivIdiv g x => Sys2Proof.Machine.execIvIdiv g x s
  | .ivIsqr g x => Sys2Proof.Machine.execIvIsqr g x s
  | .ivIsqrt g x => Sys2Proof.Machine.execIvIsqrt g x s
  | .ivIexp g x => Sys2Proof.Machine.execIvIexp g x s
  | .ivIlog g x => Sys2Proof.Machine.execIvIlog g x s
  | .ivImax g x => Sys2Proof.Machine.execIvImax g x s
  | .ivImin g x => Sys2Proof.Machine.execIvImin g x s
  | .ivIhull g x => Sys2Proof.Machine.execIvIhull g x s
  | .ivIsect g x => Sys2Proof.Machine.execIvIsect g x s
  | .ivImid g x => Sys2Proof.Machine.execIvImid g x s
  | .ivIrad g x => Sys2Proof.Machine.execIvIrad g x s
  | .ivIwid g x => Sys2Proof.Machine.execIvIwid g x s
  | .ivIcmp g x => Sys2Proof.Machine.execIvIcmp g x s
  | .ivIin g x => Sys2Proof.Machine.execIvIin g x s
  | .ivIsubset g x => Sys2Proof.Machine.execIvIsubset g x s
  | .ivImk g x => Sys2Proof.Machine.execIvImk g x s
  | .ivIlo g x => Sys2Proof.Machine.execIvIlo g x s
  | .ivIhi g x => Sys2Proof.Machine.execIvIhi g x s
  | .ivCadd g x => Sys2Proof.Machine.execIvCadd g x s
  | .ivCsub g x => Sys2Proof.Machine.execIvCsub g x s
  | .ivCmul g x => Sys2Proof.Machine.execIvCmul g x s
  | .ivCdiv g x => Sys2Proof.Machine.execIvCdiv g x s
  | .ivCsqr g x => Sys2Proof.Machine.execIvCsqr g x s
  | .ivCsqrt g x => Sys2Proof.Machine.execIvCsqrt g x s
  | .ivCexp g x => Sys2Proof.Machine.execIvCexp g x s
  | .ivClog g x => Sys2Proof.Machine.execIvClog g x s
  | .ivCmax g x => Sys2Proof.Machine.execIvCmax g x s
  | .ivCmin g x => Sys2Proof.Machine.execIvCmin g x s
  | .lwLd g x n => Sys2Proof.Machine.execLwLd g x n s
  | .lwSt g x n => Sys2Proof.Machine.execLwSt g x n s
  | .lwLdx g x n => Sys2Proof.Machine.execLwLdx g x n s
  | .lwStx g x n => Sys2Proof.Machine.execLwStx g x n s
  | .lwBind g x n => Sys2Proof.Machine.execLwBind g x n s
  | .lwUnbind g x n => Sys2Proof.Machine.execLwUnbind g x n s
  | .lwSeal g x n => Sys2Proof.Machine.execLwSeal g x n s
  | .lwRelease g x n => Sys2Proof.Machine.execLwRelease g x n s
  | .lwGath g x n => Sys2Proof.Machine.execLwGath g x n s
  | .lwScat g x n => Sys2Proof.Machine.execLwScat g x n s
  | .gmLd g x => Sys2Proof.Machine.execGmLd g x s
  | .gmSt g x => Sys2Proof.Machine.execGmSt g x s
  | .gmLdacq g x => Sys2Proof.Machine.execGmLdacq g x s
  | .gmStrel g x => Sys2Proof.Machine.execGmStrel g x s
  | .gmLdv g x => Sys2Proof.Machine.execGmLdv g x s
  | .gmStv g x => Sys2Proof.Machine.execGmStv g x s
  | .gmAmo g x => Sys2Proof.Machine.execGmAmo g x s
  | .gmCas g x => Sys2Proof.Machine.execGmCas g x s
  | .gmFred g x => Sys2Proof.Machine.execGmFred g x s
  | .gmFredrd g x => Sys2Proof.Machine.execGmFredrd g x s
  | .gmFredclr g x => Sys2Proof.Machine.execGmFredclr g x s
  | .gmFence g x => Sys2Proof.Machine.execGmFence g x s
  | .gmGath g x => Sys2Proof.Machine.execGmGath g x s
  | .gmScat g x => Sys2Proof.Machine.execGmScat g x s
  | .cpCopy g x => Sys2Proof.Machine.execCpCopy g x s
  | .cpCstat g x => Sys2Proof.Machine.execCpCstat g x s
  | .cpCcancel g x => Sys2Proof.Machine.execCpCcancel g x s
  | .cpPrefetch g x => Sys2Proof.Machine.execCpPrefetch g x s
  | .netSend g x => Sys2Proof.Machine.execNetSend g x s
  | .netSendm g x => Sys2Proof.Machine.execNetSendm g x s
  | .netPsend g x => Sys2Proof.Machine.execNetPsend g x s
  | .netQcnt g x => Sys2Proof.Machine.execNetQcnt g x s
  | .sluSinit g x => Sys2Proof.Machine.execSluSinit g x s
  | .sluArrive g x => Sys2Proof.Machine.execSluArrive g x s
  | .sluArrivb g x => Sys2Proof.Machine.execSluArrivb g x s
  | .sluStest g x => Sys2Proof.Machine.execSluStest g x s
  | .sluSreset g x => Sys2Proof.Machine.execSluSreset g x s
  | .sluSemadd g x => Sys2Proof.Machine.execSluSemadd g x s
  | .sluSemsub g x => Sys2Proof.Machine.execSluSemsub g x s
  | .ttHalloc g x => Sys2Proof.Machine.execTtHalloc g x s
  | .ttHfree g x => Sys2Proof.Machine.execTtHfree g x s
  | .ttHstate g x => Sys2Proof.Machine.execTtHstate g x s
  | .ttHset g x => Sys2Proof.Machine.execTtHset g x s
  | .ttHinfo g x => Sys2Proof.Machine.execTtHinfo g x s
  | .lnkLaunch g x => Sys2Proof.Machine.execLnkLaunch g x s
  | .lnkMbind g x => Sys2Proof.Machine.execLnkMbind g x s
  | .lnkMunbind g x => Sys2Proof.Machine.execLnkMunbind g x s
  | .lnkMpos g x => Sys2Proof.Machine.execLnkMpos g x s
  | .lnkPermit g x => Sys2Proof.Machine.execLnkPermit g x s
  | .sysCsrr g x => Sys2Proof.Machine.execSysCsrr g x s
  | .sysCsrw g x => Sys2Proof.Machine.execSysCsrw g x s
  | .sysCsrs g x => Sys2Proof.Machine.execSysCsrs g x s
  | .sysCsrc g x => Sys2Proof.Machine.execSysCsrc g x s
  | .sysTsc g x => Sys2Proof.Machine.execSysTsc g x s
  | .sysEst g x => Sys2Proof.Machine.execSysEst g x s
  | .sysEcall g x => Sys2Proof.Machine.execSysEcall g x s
  | .sysCouple g x => Sys2Proof.Machine.execSysCouple g x s
  | .sysDecouple g x => Sys2Proof.Machine.execSysDecouple g x s
  | .frozenBundleTakesEffect t => Sys2Proof.Machine.execFrozenBundleTakesEffect t s
  | .drainWaitEnd t => Sys2Proof.Machine.execDrainWaitEnd t s
  | .sockmodeWriteEffect t => Sys2Proof.Machine.execSockmodeWriteEffect t s
  | .fmtWriteEffect t => Sys2Proof.Machine.execFmtWriteEffect t s
  | .freeRunningResultDue t sock => Sys2Proof.Machine.execFreeRunningResultDue t sock s
  | .dataLockedCompletion t sock => Sys2Proof.Machine.execDataLockedCompletion t sock s
  | .lateFaultReport t => Sys2Proof.Machine.execLateFaultReport t s
  | .storeResponseArrival t serial => Sys2Proof.Machine.execStoreResponseArrival t serial s
  | .strokeStart t => Sys2Proof.Machine.execStrokeStart t s
  | .waitSatisfied t => Sys2Proof.Machine.execWaitSatisfied t s
  | .strokeendDrainEnd t => Sys2Proof.Machine.execStrokeendDrainEnd t s
  | .userInterruptEntry t => Sys2Proof.Machine.execUserInterruptEntry t s
  | .haltResume t => Sys2Proof.Machine.execHaltResume t s
  | .hangWatchdogExpiry t => Sys2Proof.Machine.execHangWatchdogExpiry t s
  | .saveWatchdogExpiry n => Sys2Proof.Machine.execSaveWatchdogExpiry n s
  | .qibOverrun t => Sys2Proof.Machine.execQibOverrun t s
  | .bankWheelSlot t => Sys2Proof.Machine.execBankWheelSlot t s
  | .streamFetch t f => Sys2Proof.Machine.execStreamFetch t f s
  | .streamStore t f => Sys2Proof.Machine.execStreamStore t f s
  | .hallocZeroingDone t => Sys2Proof.Machine.execHallocZeroingDone t s
  | .pageWalkComplete t => Sys2Proof.Machine.execPageWalkComplete t s
  | .migrationWaitEnd t => Sys2Proof.Machine.execMigrationWaitEnd t s
  | .mxArrayStart t => Sys2Proof.Machine.execMxArrayStart t s
  | .mxArrayComplete t => Sys2Proof.Machine.execMxArrayComplete t s
  | .mxLoadComplete t => Sys2Proof.Machine.execMxLoadComplete t s
  | .mxWswapEffect t => Sys2Proof.Machine.execMxWswapEffect t s
  | .qntUnitWrite t => Sys2Proof.Machine.execQntUnitWrite t s
  | .copyElementWrite t serial => Sys2Proof.Machine.execCopyElementWrite t serial s
  | .copyCompletion t serial => Sys2Proof.Machine.execCopyCompletion t serial s
  | .copyPark t serial => Sys2Proof.Machine.execCopyPark t serial s
  | .sluiceArrival t serial => Sys2Proof.Machine.execSluiceArrival t serial s
  | .semaphoreAddition t serial => Sys2Proof.Machine.execSemaphoreAddition t serial s
  | .sluReleaseEffect t => Sys2Proof.Machine.execSluReleaseEffect t s
  | .circuitSlot t c => Sys2Proof.Machine.execCircuitSlot t c s
  | .circuitArrival t serial => Sys2Proof.Machine.execCircuitArrival t serial s
  | .packetArrival t serial => Sys2Proof.Machine.execPacketArrival t serial s
  | .packetReinject t serial => Sys2Proof.Machine.execPacketReinject t serial s
  | .vc2Forward packet credit => Sys2Proof.Machine.execVc2Forward packet credit s
  | .pumpTileDelivery main => Sys2Proof.Machine.execPumpTileDelivery main s
  | .pumpHandover main stage => Sys2Proof.Machine.execPumpHandover main stage s
  | .multicastSend main depth => Sys2Proof.Machine.execMulticastSend main depth s
  | .fetchPark main => Sys2Proof.Machine.execFetchPark main s
  | .mainBindAtHome t => Sys2Proof.Machine.execMainBindAtHome t s
  | .mainDetachAtHome t => Sys2Proof.Machine.execMainDetachAtHome t s
  | .mainRebindAtRestore n => Sys2Proof.Machine.execMainRebindAtRestore n s
  | .homeCisternFailure c => Sys2Proof.Machine.execHomeCisternFailure c s
  | .kickRegister ctx word => Sys2Proof.Machine.execKickRegister ctx word s
  | .kickAccept ctx => Sys2Proof.Machine.execKickAccept ctx s
  | .nodeReady n => Sys2Proof.Machine.execNodeReady n s
  | .handOffMigration n => Sys2Proof.Machine.execHandOffMigration n s
  | .placementRound die => Sys2Proof.Machine.execPlacementRound die s
  | .nodeLoaded n => Sys2Proof.Machine.execNodeLoaded n s
  | .launchAccept t => Sys2Proof.Machine.execLaunchAccept t s
  | .estPublish t => Sys2Proof.Machine.execEstPublish t s
  | .childCompletionDelivery n => Sys2Proof.Machine.execChildCompletionDelivery n s
  | .endSweep n => Sys2Proof.Machine.execEndSweep n s
  | .stopRequest n policy => Sys2Proof.Machine.execStopRequest n policy s
  | .cutRound n => Sys2Proof.Machine.execCutRound n s
  | .imageSealed n => Sys2Proof.Machine.execImageSealed n s
  | .checkedMismatch t => Sys2Proof.Machine.execCheckedMismatch t s
  | .checkedWriteTimeout t => Sys2Proof.Machine.execCheckedWriteTimeout t s
  | .headworksFailover => Sys2Proof.Machine.execHeadworksFailover s
  | .gangReady gang dev => Sys2Proof.Machine.execGangReady gang dev s
  | .gangGo gang => Sys2Proof.Machine.execGangGo gang s
  | .gangDefer gang => Sys2Proof.Machine.execGangDefer gang s
  | .linkTrained link depth => Sys2Proof.Machine.execLinkTrained link depth s
  | .auditSend link vc => Sys2Proof.Machine.execAuditSend link vc s
  | .auditCheck link vc => Sys2Proof.Machine.execAuditCheck link vc s
  | .linkDead link => Sys2Proof.Machine.execLinkDead link s
  | .rerouteComplete die => Sys2Proof.Machine.execRerouteComplete die s
  | .rerouteTimeout die => Sys2Proof.Machine.execRerouteTimeout die s
  | .linkReplayRequest link seq => Sys2Proof.Machine.execLinkReplayRequest link seq s
  | .linkAcknowledgment link seq => Sys2Proof.Machine.execLinkAcknowledgment link seq s
  | .linkCredit link vc crd => Sys2Proof.Machine.execLinkCredit link vc crd s
  | .fabricRead q => Sys2Proof.Machine.execFabricRead q s
  | .fabricWrite q => Sys2Proof.Machine.execFabricWrite q s
  | .fabricReleaseWrite q => Sys2Proof.Machine.execFabricReleaseWrite q s
  | .fabricAtomic q => Sys2Proof.Machine.execFabricAtomic q s
  | .fabricReduction q => Sys2Proof.Machine.execFabricReduction q s
  | .fabricReductionRead q => Sys2Proof.Machine.execFabricReductionRead q s
  | .fabricFenceOrder q => Sys2Proof.Machine.execFabricFenceOrder q s
  | .fabricReservedOp q => Sys2Proof.Machine.execFabricReservedOp q s
  | .fabricReply q => Sys2Proof.Machine.execFabricReply q s
  | .hello port => Sys2Proof.Machine.execHello port s
  | .assign dev count => Sys2Proof.Machine.execAssign dev count s
  | .align time => Sys2Proof.Machine.execAlign time s
  | .portLost port => Sys2Proof.Machine.execPortLost port s
  | .timebaseTick => Sys2Proof.Machine.execTimebaseTick s
  | .createContext root key tokens cAddr cDepth eAddr eDepth tag => Sys2Proof.Machine.execCreateContext root key tokens cAddr cDepth eAddr eDepth tag s
  | .destroyContext ctx tag => Sys2Proof.Machine.execDestroyContext ctx tag s
  | .writeSched v tag => Sys2Proof.Machine.execWriteSched v tag s
  | .readCounters sel buf tag => Sys2Proof.Machine.execReadCounters sel buf tag s
  | .attestationReport n0 n1 n2 n3 buf tag => Sys2Proof.Machine.execAttestationReport n0 n1 n2 n3 buf tag s
  | .uploadGraph ctx addr len tag => Sys2Proof.Machine.execUploadGraph ctx addr len tag s
  | .invalidate ctx va len tag => Sys2Proof.Machine.execInvalidate ctx va len tag s
  | .thaw ctx entry tag => Sys2Proof.Machine.execThaw ctx entry tag s
  | .drop ctx entry tag => Sys2Proof.Machine.execDrop ctx entry tag s
  | .resolved ctx entry pos item tag => Sys2Proof.Machine.execResolved ctx entry pos item tag s
  | .abandon ctx entry pos item tag => Sys2Proof.Machine.execAbandon ctx entry pos item tag s
  | .commandWindowWrite sender offset size data => Sys2Proof.Machine.execCommandWindowWrite sender offset size data s
  | .packageReset => Sys2Proof.Machine.execPackageReset s
  | .patrolScrub addr found => Sys2Proof.Machine.execPatrolScrub addr found s
  | .levelGaugeSample island slack => Sys2Proof.Machine.execLevelGaugeSample island slack s
  | .voltageRaise island => Sys2Proof.Machine.execVoltageRaise island s
  | .frequencyStep island => Sys2Proof.Machine.execFrequencyStep island s
  | .powerLimitStall t n => Sys2Proof.Machine.execPowerLimitStall t n s
  | .supervisorTileFailure die => Sys2Proof.Machine.execSupervisorTileFailure die s
  | .failedFlit link => Sys2Proof.Machine.execFailedFlit link s
  | .commandWordStore page word => Sys2Proof.Machine.execCommandWordStore page word s
  | .pumpWriteBack main dest => Sys2Proof.Machine.execPumpWriteBack main dest s

end Sys2Proof.Machine
end

