-- ==== Sys2Proof/Machine/Order.lean ====
section
/-!
DEFINITION. Machine/Order.lean: what the machine does next (R4, R400; log 1): the head of the agenda, else an event that waits, else one
cycle of the focused tile, after which the focus goes to the next tile; and what `withFetchWord` lays out for the fetch.
-/
namespace Sys2Proof.Machine

/-! ## Events of a tile that wait -/

/-- An event of the table as a change of the machine. -/
abbrev Act := State → Host.Outcome State Fault Refusal


/-- The packet of an access of a tile of this device (R380). -/
def tileRequest (s : State) (t : TileId) (op : Nat) (r : GmReq) : FabricReq :=
  let dev := BitVec.ofNat 16 s.dev.fabric.dev
  { op := BitVec.ofNat 8 op, st := 0, sdev := dev, ddev := dev, addr := BitVec.ofNat 64 (((r.lanes.head?).map Prod.snd).getD 0), tag := 0, ctl := 0, fn := 0,
    ts := 0, data := [], len := 0, tile := some (t, r.serial) }

/-- The event that performs an access of gm at its home. -/
def gmEvent (s : State) (t : TileId) (r : GmReq) : Act :=
  match r.code with
  | 9 | 13 | 21 => execFabricWrite (tileRequest s t 2 r)
  | 11 => execFabricReleaseWrite (tileRequest s t 3 r)
  | 14 | 15 => execFabricAtomic (tileRequest s t 4 r)
  | 16 => execFabricReduction (tileRequest s t 5 r)
  | 17 | 18 => execFabricReductionRead (tileRequest s t 6 r)
  | 19 => execFabricFenceOrder (tileRequest s t 7 r)
  | _ => execFabricRead (tileRequest s t 1 r)

/-- The next event of an access of gm of the focused tile. -/
def gmPending (s : State) (r : GmReq) : Option Act :=
  let t := s.cur.id
  if r.isFence then
    if fenceDone s r then some (execDataLockedCompletion t 13)
    else if needsGrant r && !r.performed && fenceCovered s r && s.dev.fabric.dev == 0 then some (gmEvent s t r)
    else none
  else if r.performed then
    if r.st == 6 || replyOpen s r then some (if r.posted then execStoreResponseArrival t r.serial else execDataLockedCompletion t 13) else none
  else if gmReady s r && !r.remote s && pairLets s r.serial && (askOpen s r || (noWay s r && r.posted && (checkedOf s.cur r.serial).isNone)) then
    some (gmEvent s t r)
  else none

/-- The next event of an L2 access of lw of the focused tile (R208: a cistern buffer answers without a bank slot). -/
def lwPending (s : State) (sock : Nat) : Option Act :=
  match tget [] s.cur.lw sock with
  | a :: _ => if handleLevel a.h = 2 && !lwHeld s.cur sock a then some (execDataLockedCompletion s.cur.id (BitVec.ofNat 5 sock)) else none
  | [] => none

/-- The next event of an L2 stream of the focused tile. -/
def streamPending (s : State) (q : Nat × Stream) : Option Act :=
  if handleLevel q.2.h = 2 && (streamWants s.cur q.1 q.2).isSome then
    some (if q.2.write then execStreamStore s.cur.id (BitVec.ofNat 4 q.1) else execStreamFetch s.cur.id (BitVec.ofNat 4 q.1))
  else none

/-- The comparator does not hold an element of a copy (R311): it has still to be read, or it can be shown or written. -/
def elementFree (s : State) (c : Copy) : Bool :=
  !bit s.cur.csr.status 7 || !c.isRead || (s.cur.checked.all fun w => !(w.kind == 3 && w.serial == c.serial)) ||
    match pairMatch s with | some (x, _) => x.kind == 3 && x.serial == c.serial | none => false

/-- The next event of a copy of the focused tile (R248, R251). -/
def copyPending (s : State) (c : Copy) : Option Act :=
  let t := s.cur.id
  if c.finished then some (execCopyCompletion t c.serial)
  else if !copyGoes s.cur c then none
  else if (copyStop s c).isSome then some (execCopyPark t c.serial)
  else if copyReady s c && elementFree s c then some (execCopyElementWrite t c.serial)
  else none

/-- The next event of an arrival of the focused tile (R362, R365). -/
def arrivePending (s : State) (a : Arrive) : Option Act :=
  if a.held || (packetTarget s.cur a).isNone then none
  else some (if a.sem then execSemaphoreAddition s.cur.id a.serial else execSluiceArrival s.cur.id a.serial)

/-- The next event of the focused tile's operations for the home and the headworks (R126, R301, R342, R349). -/
def lnkPending (s : State) : Option Act :=
  let t := s.cur.id
  let home := match homeOp s.cur, curNode s with
    | some o, some n =>
      if o.code = 9 then
        if lsDone s o.serial 3 && (bindMain n s.cur.place.part o.arg none s).isSome then some (execMainBindAtHome t) else none
      else if o.code = 10 then some (execMainDetachAtHome t) else none
    | _, _ => none
  match home with
  | some i => some i
  | none =>
    if s.dev.hw.active.isNone then none
    else if s.cur.lnk.any fun o => o.code == 113 then some (execEstPublish t)
    else
      match s.cur.lnk.find? fun o => o.code == 8 with
      | some o => if lsDone s o.serial 3 && !launchBlocked s.cur o && (curNode s).isSome then some (execLaunchAccept t) else none
      | none => none

/-- What the comparator of a checked pair has found (R311). -/
def checkedPending (s : State) : Option Act :=
  if pairDiffers s then some (execCheckedMismatch s.cur.id)
  else if waitsTooLong s then some (execCheckedWriteTimeout s.cur.id)
  else none

/-- The first event of the focused tile that waits for no cycle of it. -/
def tilePending (s : State) : Option Act :=
  let t := s.cur
  t.gm.findSome? (gmPending s) <|> lwPending s 11 <|> lwPending s 12 <|> t.streams.findSome? (streamPending s) <|>
    (if t.zero.any fun z => handleLevel z.h == 2 && !z.left.isEmpty then some (execHallocZeroingDone t.id) else none) <|>
    (if (releasable s).isSome then some (execSluReleaseEffect t.id) else none) <|> t.arrives.findSome? (arrivePending s) <|>
    ((t.net.out.find? (packetGoes s)).map fun e => execPacketArrival t.id e.serial) <|> t.copies.findSome? (copyPending s) <|> lnkPending s <|>
    checkedPending s

/-! ## Events of the siphon and the headworks that wait -/

/-- The next event of a main's pumps (R345, R402, R403, R418). -/
def mainPending (s : State) (m : Main) : Option Act :=
  let room := m.pipe.any fun e => match e.2 with
    | v :: _ => let t := tileAt s (tileOfIndex e.1); t.place.node.isNone || (pumpEnter v t).isSome
    | [] => false
  if room then some (execPumpTileDelivery m.id)
  else
    let fetch := if m.pipe.isEmpty && fetchable s m then
        match fetchNext s m with
        | .ok _ => some (execPumpTileDelivery m.id)
        | .error (.fault ..) => some (execFetchPark m.id)
        | .error .waits => none
      else none
    fetch <|> (List.range (m.stages.length + 1)).findSome? fun d =>
      if canHandOver s m d && (handRow s m d).isSome then
        some (if multicasts s m d then execMulticastSend m.id d else execPumpHandover m.id (d - 1))
      else none

/-- Every tile that takes part in a node's sweep is done, idle and balanced (R287). -/
def sweepBalances (s : State) (n : Node) : Bool :=
  let ts := sweptTiles s n
  (n.state == .running || n.state == .draining) && ts.all (fun t => tileDone t && idleFlag t) &&
    (ts.map fun t => t.net.sent.toNat).sum == (ts.map fun t => t.net.received.toNat + t.net.lost.toNat).sum

/-- A round of a cut brings it on (R329, R330). -/
def cutMoves (s : State) (n : Node) : Bool :=
  let ts := ((nodeTiles n).map fun i => tileAt s i).filter takesPart
  n.state == .cutting && n.saving.isNone && (ts.isEmpty ||
    match n.target with
    | none => ts.all fun t => t.ctl.reported.isSome
    | some _ => ts.all cutStopped)

/-- A placed node can be loaded (R88, R288). -/
def loadReady (s : State) (n : Node) : Bool :=
  n.state == .loading && !gangHolds s n.ref && (funcOf s n).isSome && !(n.resume && rebindWaits n s)

/-- The next event of a node. -/
def nodePending (s : State) (n : Node) : Option Act :=
  if (handOffStep n s).isSome then some (execHandOffMigration n.ref)
  else if readyNow s n then some (execNodeReady n.ref)
  else if loadReady s n then some (execNodeLoaded n.ref)
  else if sealReady s n then some (execImageSealed n.ref)
  else if saveLate s n then some (execSaveWatchdogExpiry n.ref)
  else if cutMoves s n || spanRests s n then some (execCutRound n.ref)
  else if sweepBalances s n then some (execEndSweep n.ref)
  else none

/-- A completion can be delivered (R302). -/
def completionReady (s : State) (p : Parent) : Bool :=
  match nodeOf s p.ref with
  | none => true
  | some q => !(q.state == .cutting || ((q.state == .ready || q.state == .loading) && q.resume))

/-- The kick at the head of a context's queue can be taken (R276, R383). -/
def kickReady (s : State) (c : Ctx) : Bool :=
  !nextIs s c.num false &&
    match c.kicks with
    | [] => false
    | word :: _ =>
      match c.graphs.find? fun g => g.num == fld word 48 16 with
      | none => true
      | some g =>
        match readPatches s c.num (fld word 0 48) g.slots.length with
        | none => false
        | some (.error _) => true
        | some (.ok _) => (List.range 16).any fun i => s.dev.hw.replays.all fun r => !(r.ctx == c.num && r.graph == g.num && r.num == i)

/-- What a gang brings on (R288): this device's own "ready"; of its coordinator the decision. -/
def gangPending (s : State) (g : Gang) : Option Act :=
  let me := s.dev.fabric.dev
  if g.sent.isSome then none
  else if me ∈ g.devs ∧ me ∉ g.ready ∧ gangStands s g then some (execGangReady g.num (BitVec.ofNat 12 me))
  else if !coordinates s g then none
  else if gangReady g && decide ((cisternTsc s 0).toNat ≤ gangLimit s g) then some (execGangGo g.num)
  else if !gangReady g && decide (gangLimit s g ≤ (cisternTsc s 0).toNat) then some (execGangDefer g.num)
  else none

/-- The next credits of a link inside the package that are on their way (R370). -/
def creditPending (q : Nat × Link) : Option Act :=
  if isPort (q.1 % 8192) || !q.2.alive then none
  else (q.2.chans.find? fun c => c.2.back != 0).map fun c => execLinkCredit q.1 (BitVec.ofNat 2 c.1) c.2.back

/-- The first event of the device that waits for no cycle. -/
def devicePending (s : State) : Option Act :=
  ((s.dev.vc2.find? (vc2Ready s)).map fun v => execVc2Forward v.serial v.left) <|> s.dev.links.findSome? creditPending <|> s.dev.mains.findSome? (mainPending s) <|>
    if s.dev.hw.active.isNone then none
    else
      ((s.dev.hw.ctxs.find? (kickReady s)).map fun c => execKickAccept (BitVec.ofNat 12 c.num)) <|>
        ((s.dev.hw.completions.find? (completionReady s)).map fun p => execChildCompletionDelivery p.child) <|>
        s.dev.hw.gangs.findSome? (gangPending s) <|> s.dev.hw.nodes.findSome? (nodePending s)

/-- The first event that waits: of the focused tile, of the other tiles, of the device. -/
def pending (s : State) : Option Act :=
  tilePending s <|> s.peers.findSome? (fun t => tilePending (focus t.id s)) <|> devicePending s

/-- The first page whose head command can act. -/
def pendingPage (s : State) : Option Nat := (s.dev.window.cmds.map Prod.fst).find? (commandReady s)

/-! ## The turn -/

/-- A tile put into a list of tiles by cluster and ascending ring position. -/
def insertByRing (i : TileId) : List TileId → List TileId
  | [] => [i]
  | j :: js =>
    if clusterOf i * 16 + ringPos i ≤ clusterOf j * 16 + ringPos j then i :: j :: js else j :: insertByRing i js

/-- The tiles that run nodes, in the order of their turns: within a cluster in ascending ring position, as the events and records of one
cycle are ordered (R214, R308). -/
def turnOrder (s : State) : List TileId := (s.dev.hw.nodes.flatMap nodeTiles).foldr insertByRing []

/-- The tile after one in a list, and whether the list has come to its end there. -/
def nextIn (i : TileId) : List TileId → Option TileId
  | [] => none
  | [_] => none
  | a :: b :: t => if a = i then some b else nextIn i (b :: t)

/-- Records that wait go into the rings that have room again (R277). -/
def drainRings (s : State) : State :=
  let one := fun (s : State) (c : Ctx) =>
    let e := ringDrain false 256 s c.events
    let d := ringDrain true 256 e.2 c.done
    putCtx { c with events := e.1, done := d.1 } d.2
  let r := ringDrain true 256 s s.dev.hw.reply
  r.2.dev.hw.ctxs.foldl one (onHw (fun h => { h with reply := r.1 }) r.2)

/-- A record waits for room in a ring. -/
def recordWaits (s : State) : Bool :=
  !s.dev.hw.reply.waiting.isEmpty || s.dev.hw.ctxs.any fun c => !(c.events.waiting.isEmpty && c.done.waiting.isEmpty)

/-- Every tile has had its cycle: every third cycle is a tick of the timebase (3.0 GHz and 1.0 GHz), and the dies' intakes make a round
where a node is ready (R281), records that wait are written, and the pumps' slots of the cycle are over (R16). The mesh runs at 2.0 GHz
beside the tiles' 3.0 GHz: two mesh cycles in three cycles (00 Conventions). -/
def roundEnd (s : State) : State :=
  let s := if s.cur.wheel % 3 = 0 then tick s else s
  let s := if s.cur.wheel % 3 = 2 then s else meshCycle s
  let s := { s with dev := { s.dev with pumpSlots := s.dev.pumpSlots.filter fun e => e.1 % 60 == s.cur.wheel } }
  let s := if recordWaits s && s.dev.hw.active.isSome then drainRings s else s
  if s.dev.hw.nodes.any fun n => n.state == .ready then (List.range s.dev.dies.length).foldl (fun s d => placementRound d s) s else s

/-- The number of the cycle on the bank wheel; every tile of a round has the same (R16, R18). -/
def atWheel (c : Nat) (t : Tile) : Tile := { t with wheel := c % 60 }

/-- The focus goes to the next tile, for the same cycle; after the last of them a new round begins. -/
def passTurn (s : State) : State :=
  let order := turnOrder s
  let c := s.cur.wheel
  match nextIn s.cur.id order with
  | some j => onCur (atWheel (c + 59)) (focus j s)
  | none => let s := roundEnd s; match order with | j :: _ => onCur (atWheel c) (focus j s) | [] => s

/-- What the machine does next. -/
def advance (s : State) : Host.Outcome State Fault Refusal :=
  match s.agenda with
  | .event i :: rest => exec i { s with agenda := rest }
  | .turn t :: rest => .next (focus t { s with agenda := rest })
  | .cycle :: rest => .next (cycle { s with agenda := rest })
  | .old t k n :: rest => .next (onTile t (performOld k n) { s with agenda := rest })
  | .piece t k :: rest => .next (onTile t (fun s => if s.cur.gm.any fun r => r.serial == k then performPiece k s else elementPiece k s) { s with agenda := rest })
  | .hop t k :: rest => .next (onTile t (packetOnce k) { s with agenda := rest })
  | .error place bad :: rest => .next (foundError place bad { s with agenda := rest })
  | [] =>
    match pending s with
    | some act => act s
    | none =>
      match pendingPage s with
      | some p => .next (serveCommand p s)
      | none => .next (passTurn (cycle s))

/-! ## The bundle of one table word -/

/-- The bundle that holds the instruction of a table word (R29): more than 32 bits are the whole bundle; a control word stands in word 0,
any other word in slot 1 behind a nop. -/
def bundleOfWord (nbits w : Nat) : BitVec 256 :=
  if 32 < nbits then BitVec.ofNat 256 w
  else
    match decodeCtl (BitVec.ofNat 32 w) 0 with
    | .ok _ => BitVec.ofNat 256 (w % 2 ^ 32)
    | .error _ => BitVec.ofNat 256 (w % 2 ^ 32 * 2 ^ 32)

/-- A bundle laid at index 256 of the focused tile's instruction buffer, where the tile is about to fetch. -/
def placeBundle (b : BitVec 256) (t : Tile) : Tile :=
  { t with run := .go, pc := 256, code := { t.code with ibuf := tset 0 t.code.ibuf 256 b, loaded := max 1 t.code.loaded } }

end Sys2Proof.Machine
end

