-- ==== Sys2Proof/Machine/Step.lean ====
section
/-!
DEFINITION. Machine/Step.lean: one step of the machine, and the state in which a given table word is fetched next.
-/
namespace Sys2Proof.Machine

/-- One step: the head of the agenda, an event that waits, or a cycle of the focused tile (log 1). -/
def step (s : State) : Host.Outcome State Fault Refusal := advance s

/-- The state with the instruction of a table word laid where the focused tile fetches its next bundle (log 1). -/
def State.withFetchWord (s : State) (nbits w : Nat) : State := { s with cur := placeBundle (bundleOfWord nbits w) s.cur }

end Sys2Proof.Machine
end

