-- ==== Sys2Proof/Safety.lean ====
section
/-!
DEFINITION. Safety.lean: the terms in which claims are stated: what makes a step safe, a tile between bundles, a move that fires, a
trigger that is accepted, and what an instruction leaves alone.
-/
namespace Sys2Proof.Machine.Claims

/-- A safe outcome of a step: a next state. The spec describes what happens after every fault it names, so a run of this machine never
stops in a fault or a refusal. -/
def Goes (r : Host.Outcome State Fault Refusal) : Prop := ∃ t, r = .next t

/-- The memories of a machine in canonical form: cistern memory, the focused tile's well, every other tile's well, every storage. -/
def memoriesWf (s : State) : Bool :=
  Memory.wf s.dev.mem && Memory.wf s.cur.well && (s.peers.all fun t => Memory.wf t.well) && s.dev.storage.all fun e => Memory.wf e.2

/-- A tile between bundles: no trap and no SOCKMODE value of the bundle before waits to be taken (R94, R112, R127). -/
structure AtRest (t : Tile) : Prop where
  traps : t.ctl.traps = []
  mode : t.ctl.mode = none

/-- The move `i` with guard `g` and source `x` is legal and fires in `s` on a tile between bundles; reading its source gives `v` and leaves
the tile `t` (R36, R37, R42). -/
structure Fires (i : Instr) (g : Guard) (x : Src) (s : State) (v : Vec) (t : Tile) : Prop where
  isMove : i.move = some (g, x)
  legal : moveIllegal s i = false
  guard : guardFires s.cur g = true
  read : readSrc s.cur 1 x = .ok (v, t)
  rest : AtRest s.cur

/-- The operands at `ports` are there for a trigger on the tile `t`: their values, and the tile after they are taken (R92, R93). -/
def Takes (t : Tile) (sock code : Nat) (x : Src) (ports : List Nat) (ops : List Vec) (t' : Tile) : Prop :=
  takeOperands t sock code 1 x.hold ports = .ok (ops, t')

/-- The socket has room for a trigger that delivers to `outs` (R92, R95, R96). -/
def Room (t : Tile) (sock code : Nat) (outs : List Nat) : Prop := accepts t sock code outs = .ok ()

/-- The triggering move `i` fires in `s` with the trigger value `v`, its operands `ops` are there, and its socket has room; `t` is the
tile once source and operands are read. -/
structure Triggers (i : Instr) (g : Guard) (x : Src) (sock code : Nat) (ports outs : List Nat) (s : State) (v : Vec) (t0 : Tile)
    (ops : List Vec) (t : Tile) : Prop where
  fires : Fires i g x s v t0
  names : i.trigger = some (sock, code)
  takes : Takes t0 sock code x ports ops t
  room : Room t0 sock code outs

/-- The state of a tile that an operation of the computing sockets does not touch: all of it but its sockets, its streams and its
queues, which the source of the move may read. -/
def SameBeside (a b : Tile) : Prop :=
  { b with socks := a.socks, streams := a.streams, net := a.net } = a

/-- The machine with the focused tile `t`; everything else as it was. -/
abbrev withTile (s : State) (t : Tile) : State := { s with cur := t }

/-- The machine as the control operation of a bundle without moves finds it: the marks that the bundle before left are gone, and a quiet
bundle has had its quiet effects (R24, R327-R329). -/
def atControl (i : Instr) (h : CtlHead) (s : State) : State :=
  let s := onCur (fun t => { t with ctl := { t.ctl with quietPoint := 0, controlOnly := false, split := none } }) s
  if h.quiet then quietEffect i s else s

/-- The control operation `i` issues in `s` as a bundle without moves: it is legal and raises no fault, the tile is between bundles and between their parts, and a
quiet one finds nothing in flight (R24, R50, R97, R105). -/
structure Issues (i : Instr) (h : CtlHead) (s : State) : Prop where
  isControl : i.head = some h
  legal : i.wf = true
  noFault : ctlFault s.cur i = none
  calm : h.quiet = true → quietCheck s = .ok ()
  whole : s.cur.ctl.split = none
  rest : AtRest s.cur

/-- The focused tile goes on at the bundle `pc` after `n` cycles without issue (R31). -/
def goesOn (pc n : Nat) (t : Tile) : Tile := { t with pc := BitVec.ofNat 13 pc, run := if n = 0 then .go else .stall n }

/-- The predicates once the level `l` is left into the levels `ls` (R109, R110): its saved window is back in p8-p13, p14 and p15 are those of the
enclosing level's pass, or false, and the others read as before. -/
structure LoopLeft (l : Loop) (ls : List Loop) (before t : Tile) : Prop where
  window : ∀ k v, k < 6 → l.window[k]? = some v → getP t (8 + k) = if v = 3 then 2 else v
  ends : match ls with
    | [] => getP t 14 = 0 ∧ getP t 15 = 0
    | m :: _ => getP t 14 = (if m.pass = 0 then 1 else 0) ∧
        getP t 15 = (if m.pass + 1 = (if m.stages = 0 then m.trips else m.trips + m.stages - 1) then 1 else 0)
  others : ∀ k, k < 8 → getP t k = getP before k
  unstaged : l.stages = 0 → l.window = [] → ∀ k, k ∉ [14, 15] → getP t k = getP before k

/-- A whole-machine frame: only the focused tile differs. -/
def OnlyCur (a b : State) : Prop := { b with cur := a.cur } = a

/-- The instruction `i` runs in `s` and leaves the machine with the focused tile `t`; everything else stays. -/
abbrev GoesTo (i : Instr) (s : State) (t : Tile) : Prop := exec i s = .next (withTile s t)

/-- The move `i` takes a fault in `s`, inside its bundle (R50, R116). -/
abbrev Faults (i : Instr) (s : State) (f : FaultInfo) : Prop := exec i s = .next (takeException f s.cur.pc.toNat false true s)

/-- The move `i` finds no room in `s`: the tile freezes and tries again, with nothing taken (R96). -/
abbrev Freezes (i : Instr) (s : State) : Prop := exec i s = .next (onCur (fun t => { t with run := .frozen }) s)

/-- The event `i` of a tile runs with the focus on that tile, leaves the machine `u` there, and the focus goes back. -/
abbrev Befalls (i : Instr) (s u : State) : Prop := exec i s = .next (focus s.cur.id u)

/-- The tile tries the whole legal bundle `b` at its PC: it is not halted, no late fault and no lost result waits, and the PC is a legal
target without an uncorrectable error (R96, R98, R104, R117, R221, R307). -/
structure Issuing (t : Tile) (b : Bundle) : Prop where
  running : bit t.csr.status 6 = false
  noLate : t.ctl.late = []
  legal : targetLegal t (isSystem t) t.pc.toNat = true
  sound : t.pc.toNat ∉ t.code.bad
  whole : t.ctl.controlOnly = false
  noLost : t.ctl.lost = none
  decodes : decodeBundle (fetchBundle t t.pc.toNat) = .ok b

/-! ## What the computing sockets return -/

/-- What a single-result operation of a computing socket returns: the operand ports it reads, its latency, and the value at y0 from the
tile (for FMT), the operands in port order and the trigger value. -/
structure Row where
  ports : List Nat
  lat : Nat
  value : Tile → List Vec → Vec → Vec

/-- A row from its parts. -/
def mkRow (ports : List Nat) (lat : Nat) (value : Tile → List Vec → Vec → Vec) : Option Row :=
  some { ports := ports, lat := lat, value := value }

/-- A row of ia: latency, ports, and the 64-bit result from o0, o1 and the trigger value b (R101, R102). -/
def iaVal (lat : Nat) (ports : List Nat) (f : Word → Word → Word → Word) : Option Row :=
  mkRow ports lat (fun _ ops b => wordVec (f (vecWord (opAt ops 0)) (vecWord (opAt ops 1)) (vecWord b)))

/-- The table of R102: a is o0, c is o1, b the trigger value. -/
def iaRow : Instr → Option Row
  | .iaAdd .. => iaVal 1 [0] fun a _ b => a + b
  | .iaSub .. => iaVal 1 [0] fun a _ b => a - b
  | .iaAnd .. => iaVal 1 [0] fun a _ b => a &&& b
  | .iaOr .. => iaVal 1 [0] fun a _ b => a ||| b
  | .iaXor .. => iaVal 1 [0] fun a _ b => a ^^^ b
  | .iaAndn .. => iaVal 1 [0] fun a _ b => a &&& ~~~b
  | .iaShl .. => iaVal 1 [0] fun a _ b => a <<< (b &&& 63)
  | .iaShr .. => iaVal 1 [0] fun a _ b => a >>> (b &&& 63)
  | .iaSra .. => iaVal 1 [0] fun a _ b => a.sshiftRight (b.toNat % 64)
  | .iaMin .. => iaVal 1 [0] fun a _ b => if a.toInt ≤ b.toInt then a else b
  | .iaMax .. => iaVal 1 [0] fun a _ b => if a.toInt ≤ b.toInt then b else a
  | .iaMinu .. => iaVal 1 [0] fun a _ b => if a.toNat ≤ b.toNat then a else b
  | .iaMaxu .. => iaVal 1 [0] fun a _ b => if a.toNat ≤ b.toNat then b else a
  | .iaCeq .. => iaVal 1 [0] fun a _ b => if a = b then 1 else 0
  | .iaCne .. => iaVal 1 [0] fun a _ b => if a = b then 0 else 1
  | .iaClt .. => iaVal 1 [0] fun a _ b => if a.toInt < b.toInt then 1 else 0
  | .iaCltu .. => iaVal 1 [0] fun a _ b => if a.toNat < b.toNat then 1 else 0
  | .iaCle .. => iaVal 1 [0] fun a _ b => if a.toInt ≤ b.toInt then 1 else 0
  | .iaCleu .. => iaVal 1 [0] fun a _ b => if a.toNat ≤ b.toNat then 1 else 0
  | .iaSel .. => iaVal 1 [0, 1] fun a c b => if b = 0 then c else a
  | .iaPass .. => iaVal 1 [] fun _ _ b => b
  | .iaSext .. => iaVal 1 [0] fun a _ b => BitVec.ofInt 64 (sintOf (b.toNat % 64 + 1) a.toNat)
  | .iaZext .. => iaVal 1 [0] fun a _ b => BitVec.ofNat 64 (a.toNat % 2 ^ (b.toNat % 64 + 1))
  | .iaClz .. => iaVal 2 [] fun _ _ b => BitVec.ofNat 64 (64 - bitLen b.toNat)
  | .iaPopc .. => iaVal 2 [] fun _ _ b => BitVec.ofNat 64 (popCount 64 b.toNat)
  | .iaAddsc .. => iaVal 1 [0, 1] fun a c b => a + b * 2 ^ (c.toNat % 4)
  | .iaBext .. => iaVal 1 [0] fun a _ b => BitVec.ofNat 64 (bitsOf a.toNat (b.toNat % 64) (min (bitsOf b.toNat 8 7) 64))
  | .iaBins .. => iaVal 1 [0, 1] fun a c b =>
    let m : Word := BitVec.ofNat 64 ((2 ^ min (bitsOf b.toNat 8 7) 64 - 1) * 2 ^ (b.toNat % 64))
    (a &&& ~~~m) ||| ((c <<< (b.toNat % 64)) &&& m)
  | _ => none

/-- The multiplications of R103: latency 4. -/
def imdMulRow : Instr → Option Row
  | .imdMul .. => iaVal 4 [0] fun a _ b => a * b
  | .imdMulh .. => iaVal 4 [0] fun a _ b => BitVec.ofInt 64 (a.toInt * b.toInt / 2 ^ 64)
  | .imdMulhu .. => iaVal 4 [0] fun a _ b => BitVec.ofNat 64 (a.toNat * b.toNat / 2 ^ 64)
  | _ => none

/-- The divide forms of R103: whether signed, and whether the remainder is wanted. -/
def imdDivRow : Instr → Option (Bool × Bool)
  | .imdDiv .. => some (true, false)
  | .imdDivu .. => some (false, false)
  | .imdRem .. => some (true, true)
  | .imdRemu .. => some (false, true)
  | _ => none

/-- A value of va or vx computed lane by lane at the width w: lane l of the result is `f l` modulo 2^w (R131). -/
def byLane (w : Nat) (f : Nat → Nat) : Vec := packLanes w ((List.range (1024 / w)).map f)

/-- A float operation of R135 on lanes of a (o0), c (o1) and b in the format of FMT.vf, rounded per FMT.rm (R132). -/
def vaFloat (lat : Nat) (ports : List Nat) (f : Bool → Num → Num → Num → Num) : Option Row :=
  mkRow ports lat (fun t ops b =>
    let q := fmtOf t 0
    let w := floatBits q
    byLane w fun l => encodeFloat q (fmtOf t 5)
      (f (fmtOf t 5 == 2) (decodeFloat q (lane w l (opAt ops 0))) (decodeFloat q (lane w l (opAt ops 1))) (decodeFloat q (lane w l b))))

/-- The integer operations of R143 on lanes of the width of FMT.vi. -/
def vaInt (lat : Nat) (f : Nat → Nat → Nat → Nat) : Option Row :=
  mkRow [0] lat (fun t ops b =>
    let w := 8 * 2 ^ fmtOf t 1
    byLane w fun l => f w (lane w l (opAt ops 0)) (lane w l b))

/-- The single-result operations of va that no control operand can make illegal (R135-R140, R143, R144). -/
def vaRow : Instr → Option Row
  | .vaFadd .. => vaFloat 3 [0] fun nz a _ b => a.add nz b
  | .vaFsub .. => vaFloat 3 [0] fun nz a _ b => a.add nz b.neg
  | .vaFmul .. => vaFloat 4 [0] fun _ a _ b => a.mul b
  | .vaFma .. => vaFloat 5 [0, 1] fun nz a c b => (a.mul c).add nz b
  | .vaFmin .. => mkRow [0] 3 (fun t ops b =>
      let q := fmtOf t 0
      byLane (floatBits q) fun l => fpick q false (lane (floatBits q) l (opAt ops 0)) (lane (floatBits q) l b))
  | .vaFmax .. => mkRow [0] 3 (fun t ops b =>
      let q := fmtOf t 0
      byLane (floatBits q) fun l => fpick q true (lane (floatBits q) l (opAt ops 0)) (lane (floatBits q) l b))
  | .vaFsgn .. => mkRow [0, 1] 2 (fun t ops b =>
      let w := floatBits (fmtOf t 0)
      byLane w fun l =>
        let x := lane w l (opAt ops 0) / 2 ^ (w - 1)
        let y := lane w l b / 2 ^ (w - 1)
        let m := fld (opAt ops 1) 0 2
        lane w l b % 2 ^ (w - 1) + 2 ^ (w - 1) * (if m = 0 then x else if m = 1 then 1 - x else if m = 2 then (x + y) % 2 else 0))
  | .vaFround .. => mkRow [] 4 (fun t _ b =>
      let q := fmtOf t 0
      byLane (floatBits q) fun l => encodeFloat q 0 (match decodeFloat q (lane (floatBits q) l b) with
        | .fin neg m e => .fin neg (roundInt (dirOf (fmtOf t 5) neg) m e) 0
        | x => x))
  | .vaFclass .. => mkRow [0] 2 (fun t ops b =>
      let q := fmtOf t 0
      packMask ((List.range (1024 / floatBits q)).map fun l => bit (opAt ops 0) (floatClass q (lane (floatBits q) l b))))
  | .vaIadd .. => vaInt 2 fun _ a b => a + b
  | .vaIsub .. => vaInt 2 fun w a b => a + 2 ^ w - b
  | .vaImul .. => vaInt 4 fun _ a b => a * b
  | .vaIand .. => vaInt 2 fun _ a b => a &&& b
  | .vaIor .. => vaInt 2 fun _ a b => a ||| b
  | .vaIxor .. => vaInt 2 fun _ a b => a ^^^ b
  | .vaIshl .. => vaInt 2 fun w a b => a * 2 ^ (b % w)
  | .vaIshr .. => vaInt 2 fun w a b => a / 2 ^ (b % w)
  | .vaIsra .. => vaInt 2 fun w a b => wrapInt w (sintOf w a / 2 ^ (b % w))
  | .vaImin .. => vaInt 2 fun w a b => if sintOf w a < sintOf w b then a else b
  | .vaImax .. => vaInt 2 fun w a b => if sintOf w a < sintOf w b then b else a
  | .vaBlend .. => mkRow [0, 1] 2 (fun t ops b =>
      let w := 8 * 2 ^ fmtOf t 1
      byLane w fun l => if bit (opAt ops 1) l then lane w l b else lane w l (opAt ops 0))
  | .vaSplat .. => mkRow [] 2 (fun t _ b =>
      let w := 8 * 2 ^ fmtOf t 1
      byLane w fun _ => lane w 0 b)
  | _ => none

/-- The operations of va with a control operand that may hold a reserved value (R134, R138, R141, R142): ports, latency, and the result, or
nothing where the control operand is reserved. `c` is o1 or, where only o0 is read, o0. -/
def vaMayRow : Instr → Option (List Nat × Nat × (Tile → List Vec → Vec → Option Vec))
  | .vaFcmp .. => some ([0, 1], 3, fun t ops b =>
      let q := fmtOf t 0
      let w := floatBits q
      if 8 ≤ fld (opAt ops 1) 0 4 then none
      else some (packMask ((List.range (1024 / w)).map fun l =>
        (floatCond (fld (opAt ops 1) 0 4) (decodeFloat q (lane w l (opAt ops 0))) (decodeFloat q (lane w l b))).getD false)))
  | .vaIcmp .. => some ([0, 1], 2, fun t ops b =>
      let w := 8 * 2 ^ fmtOf t 1
      if fld (opAt ops 1) 0 4 ∈ [0, 1, 2, 3, 4, 5, 8, 9, 10, 11] then
        some (packMask ((List.range (1024 / w)).map fun l =>
          (intCond (fld (opAt ops 1) 0 4) w (lane w l (opAt ops 0)) (lane w l b)).getD false))
      else none)
  | .vaFcvt .. => some ([0], 4, fun t ops b =>
      let c := opAt ops 0
      if fld c 0 2 = 3 ∨ fld c 2 2 = 3 then none
      else convertPart (floatBits (fld c 0 2)) (floatBits (fld c 2 2)) (fld c 4 2)
        (fun x => encodeFloat (fld c 2 2) (fmtOf t 5) (decodeFloat (fld c 0 2) x)) b)
  | .vaFtoi .. => some ([0], 4, fun t ops b =>
      let w := 8 * 2 ^ fmtOf t 1
      convertPart (floatBits (fmtOf t 0)) w (fld (opAt ops 0) 0 2) (fun x => toInt (fmtOf t 5) w (decodeFloat (fmtOf t 0) x)) b)
  | .vaItof .. => some ([0], 4, fun t ops b =>
      let w := 8 * 2 ^ fmtOf t 1
      convertPart w (floatBits (fmtOf t 0)) (fld (opAt ops 0) 0 2)
        (fun x => encodeFloat (fmtOf t 0) (fmtOf t 5) (.fin (decide (sintOf w x < 0)) (sintOf w x).natAbs 0)) b)
  | .vxShufl .. => some ([0, 1], 2, fun t ops b => shuffle (8 * 2 ^ fmtOf t 1) (fld b 0 3) (opAt ops 0) (opAt ops 1))
  | .ivIcmp .. => some ([0, 1], 4, fun _ ops b =>
      if 6 ≤ fld (opAt ops 1) 0 4 then none
      else some (packThree ((List.range 16).map fun l =>
        icmpLane (fld (opAt ops 1) 0 4) (ivlLane (opAt ops 0) l) (ivlLane b l))))
  | _ => none

/-- The single-result operations of vx (R146, R148, R149): perm, rot, bcast, redadd, redmax, redmin, scan. A float NaN enters a reduction or a
scan as the canonical one (R53, R137; `reduceLanes`). -/
def vxRow : Instr → Option Row
  | .vxPerm .. => mkRow [0] 3 (fun t ops b =>
      let w := 8 * 2 ^ fmtOf t 1
      byLane w fun l => lane w (lane w l b % (1024 / w)) (opAt ops 0))
  | .vxRot .. => mkRow [0] 2 (fun t ops b =>
      let w := 8 * 2 ^ fmtOf t 1
      byLane w fun l => lane w ((l + 1024 / w - fld b 0 64 % (1024 / w)) % (1024 / w)) (opAt ops 0))
  | .vxBcast .. => mkRow [0] 2 (fun t ops b =>
      let w := 8 * 2 ^ fmtOf t 1
      byLane w fun _ => lane w (fld b 0 64 % (1024 / w)) (opAt ops 0))
  | .vxRedadd .. => mkRow [0, 1] 6 (fun t ops b =>
      let r := reduceOf t (opAt ops 0) 0
      packLanes r.1 [(treeFold r.2.1 7 (reduceLanes t r.1 (opAt ops 0) (opAt ops 1) b)).getD r.2.2])
  | .vxRedmax .. => mkRow [0, 1] 6 (fun t ops b =>
      let r := reduceOf t (opAt ops 0) 1
      packLanes r.1 [(treeFold r.2.1 7 (reduceLanes t r.1 (opAt ops 0) (opAt ops 1) b)).getD r.2.2])
  | .vxRedmin .. => mkRow [0, 1] 6 (fun t ops b =>
      let r := reduceOf t (opAt ops 0) 2
      packLanes r.1 [(treeFold r.2.1 7 (reduceLanes t r.1 (opAt ops 0) (opAt ops 1) b)).getD r.2.2])
  | .vxScan .. => mkRow [0, 1] 8 (fun t ops b =>
      let r := reduceOf t (opAt ops 0) 0
      packLanes r.1 (scanFrom r.2.1 r.2.2 (bit (opAt ops 0) 1) none (reduceLanes t r.1 (opAt ops 0) (opAt ops 1) b)))
  | _ => none

/-- The special functions of R154 on lanes of the format of FMT.vf: their lane functions, latency 10. -/
def sfuRow : Instr → Option (Nat → Nat → Nat)
  | .sfuExp2 .. => some sfuExp2Lane
  | .sfuLog2 .. => some sfuLog2Lane
  | .sfuRcp .. => some sfuRcpLane
  | .sfuRsqrt .. => some sfuRsqrtLane
  | .sfuSqrt .. => some sfuSqrtLane
  | .sfuSinpi .. => some sfuSinpiLane
  | .sfuCospi .. => some sfuCospiLane
  | .sfuTanh .. => some sfuTanhLane
  | .sfuSigm .. => some sfuSigmLane
  | _ => none

/-- The values of the special functions at -inf, +inf, -0 and +0, as bits of the format q (R154). -/
def sfuPoints (q : Nat) : Instr → Option (Nat × Nat × Nat × Nat)
  | .sfuExp2 .. => some (0, infBits q, oneBits q, oneBits q)
  | .sfuLog2 .. => some (nanBits q, infBits q, negInf q, negInf q)
  | .sfuRcp .. => some (signBit q true, 0, negInf q, infBits q)
  | .sfuRsqrt .. => some (nanBits q, 0, negInf q, infBits q)
  | .sfuSqrt .. => some (nanBits q, infBits q, signBit q true, 0)
  | .sfuSinpi .. => some (nanBits q, nanBits q, signBit q true, 0)
  | .sfuCospi .. => some (nanBits q, nanBits q, oneBits q, oneBits q)
  | .sfuTanh .. => some (signBit q true + oneBits q, oneBits q, signBit q true, 0)
  | .sfuSigm .. => some (0, oneBits q, halfBits q, halfBits q)
  | _ => none

/-- An operation of iv on two interval operands: an empty lane propagates (R158). -/
def ivTwo (lat : Nat) (f : Num → Num → Num → Num → Nat) : Option Row :=
  mkRow [0] lat (fun _ ops b =>
    packLanes 64 ((List.range 16).map fun l => match ivlLane (opAt ops 0) l, ivlLane b l with
      | .set a1 a2, .set b1 b2 => f a1 a2 b1 b2
      | _, _ => emptyBits 2))

/-- An operation of iv on one interval operand. -/
def ivOne (lat : Nat) (f : Num → Num → Nat) : Option Row :=
  mkRow [] lat (fun _ _ b =>
    packLanes 64 ((List.range 16).map fun l => match ivlLane b l with
      | .set b1 b2 => f b1 b2
      | .empty _ => emptyBits 2))

/-- An extraction of iv: 16 binary32 values, the canonical NaN for an empty lane (R162). -/
def ivOut (f : Num → Num → Nat) : Option Row :=
  mkRow [] 4 (fun _ _ b =>
    packLanes 32 ((List.range 16).map fun l => match ivlLane b l with
      | .set b1 b2 => f b1 b2
      | .empty _ => nanBits 0))

/-- The forward operations, extractions, constructors and tests of iv (R160-R163, R167). -/
def ivRow : Instr → Option Row
  | .ivIadd .. => ivTwo 4 fun a1 a2 b1 b2 =>
      laneBits (roundPt false ((ptOf a1).add (ptOf b1))) (roundPt true ((ptOf a2).add (ptOf b2)))
  | .ivIsub .. => ivTwo 4 fun a1 a2 b1 b2 =>
      laneBits (roundPt false ((ptOf a1).add (ptOf b2).neg)) (roundPt true ((ptOf a2).add (ptOf b1).neg))
  | .ivImul .. => ivTwo 6 fun a1 a2 b1 b2 =>
      hullBits 1 (mulParts (partsOf (ptOf a1) (ptOf a2)) (partsOf (ptOf b1) (ptOf b2))).hull
  | .ivIdiv .. => ivTwo 12 fun a1 a2 b1 b2 =>
      hullBits 1 (divParts (partsOf (ptOf a1) (ptOf a2)) (partsOf (ptOf b1) (ptOf b2))).hull
  | .ivIsqr .. => ivOne 5 sqrBits
  | .ivIsqrt .. => ivOne 10 sqrtBits
  | .ivIexp .. => ivOne 14 fun b1 b2 => laneBits (expBits false b1) (expBits true b2)
  | .ivIlog .. => ivOne 14 ilogBits
  | .ivImax .. => ivTwo 4 fun a1 a2 b1 b2 =>
      laneBits (boundBits (if a1.le b1 then b1 else a1)) (boundBits (if a2.le b2 then b2 else a2))
  | .ivImin .. => ivTwo 4 fun a1 a2 b1 b2 =>
      laneBits (boundBits (if a1.le b1 then a1 else b1)) (boundBits (if a2.le b2 then a2 else b2))
  | .ivIhull .. => mkRow [0] 4 (fun _ ops b =>
      packLanes 64 ((List.range 16).map fun l => ihullLane (ivlLane (opAt ops 0) l) (ivlLane b l)))
  | .ivIsect .. => ivTwo 4 fun a1 a2 b1 b2 =>
      let lo := if a1.le b1 then b1 else a1
      let hi := if a2.le b2 then a2 else b2
      if hi.lt lo then emptyBits 0 else laneBits (boundBits lo) (boundBits hi)
  | .ivImid .. => ivOut midOf
  | .ivIrad .. => ivOut radOf
  | .ivIwid .. => ivOut widOf
  | .ivIlo .. => ivOut fun b1 _ => boundBits b1
  | .ivIhi .. => ivOut fun _ b2 => boundBits b2
  | .ivIin .. => mkRow [0] 4 (fun _ ops b =>
      packLanes 2 ((List.range 16).map fun l => match ivlLane b l with
        | .set b1 b2 =>
          let x := decodeFloat 0 (lane 32 l (opAt ops 0))
          if !x.isNan && b1.le x && x.le b2 then 1 else 0
        | .empty _ => 0))
  | .ivIsubset .. => mkRow [0] 4 (fun _ ops b =>
      packLanes 2 ((List.range 16).map fun l => match ivlLane (opAt ops 0) l, ivlLane b l with
        | .empty _, _ => 1
        | .set a1 a2, .set b1 b2 => if b1.le a1 && a2.le b2 then 1 else 0
        | .set .., .empty _ => 0))
  | .ivImk .. => mkRow [0] 4 (fun _ ops b =>
      packLanes 64 ((List.range 16).map fun l => imkBits (lane 32 l (opAt ops 0)) (lane 32 l b)))
  | _ => none

/-- The binary contractors of R169 on nonempty lanes: latency and the sets of x' and y'. -/
def contractTwoRow : Instr → Option (Nat × (Box → Box → Box → Option Box × Option Box))
  | .ivCadd .. => some (5, cadd)
  | .ivCsub .. => some (5, csub)
  | .ivCmul .. => some (7, cmul)
  | .ivCdiv .. => some (16, cdiv)
  | .ivCmax .. => some (5, cmax)
  | .ivCmin .. => some (5, cmin)
  | _ => none

/-- The unary contractors of R169: latency and the bits of x'. -/
def contractOneRow : Instr → Option (Nat × (Num → Num → Num → Num → Nat))
  | .ivCsqr .. => some (7, csqrBits)
  | .ivCsqrt .. => some (12, csqrtBits)
  | .ivCexp .. => some (16, cexpBits)
  | .ivClog .. => some (16, clogBits)
  | _ => none

/-- The operations of mx that join its queue, with their codes (R184-R189, R194, R195). -/
def mxQueued : Instr → Option Nat
  | .mxWload .. => some 8
  | .mxWswap .. => some 9
  | .mxMstream .. => some 10
  | .mxMstreamn .. => some 11
  | .mxMivl .. => some 15
  | .mxWloadsp .. => some 16
  | _ => none

/-- The operations of qnt, with their codes (R200-R206). -/
def qntQueued : Instr → Option Nat
  | .qntQnt .. => some 8
  | .qntQflush .. => some 9
  | .qntQrange .. => some 10
  | .qntQthr .. => some 11
  | _ => none

/-- The element accesses of lw0 and lw1, with their socket and code (R225, R226). -/
def lwElement : Instr → Option (Bool × Nat)
  | .lwLd _ _ n => some (n, 8)
  | .lwSt _ _ n => some (n, 9)
  | .lwLdx _ _ n => some (n, 10)
  | .lwStx _ _ n => some (n, 11)
  | _ => none

/-- The list accesses of lw0 and lw1, with their socket and code (R227). -/
def lwList : Instr → Option (Bool × Nat)
  | .lwGath _ _ n => some (n, 16)
  | .lwScat _ _ n => some (n, 17)
  | _ => none

/-- seal and release of lw0 and lw1, with their socket and code (R228). -/
def lwState : Instr → Option (Bool × Nat)
  | .lwSeal _ _ n => some (n, 14)
  | .lwRelease _ _ n => some (n, 15)
  | _ => none

/-- The operations of tt, with their codes (R356, R357). -/
def ttQueued : Instr → Option Nat
  | .ttHalloc .. => some 8
  | .ttHfree .. => some 9
  | .ttHstate .. => some 10
  | .ttHset .. => some 11
  | .ttHinfo .. => some 12
  | _ => none

/-- The operations of gm, with their codes (R235-R243). -/
def gmQueued : Instr → Option Nat
  | .gmLd .. => some 8
  | .gmSt .. => some 9
  | .gmLdacq .. => some 10
  | .gmStrel .. => some 11
  | .gmLdv .. => some 12
  | .gmStv .. => some 13
  | .gmAmo .. => some 14
  | .gmCas .. => some 15
  | .gmFred .. => some 16
  | .gmFredrd .. => some 17
  | .gmFredclr .. => some 18
  | .gmFence .. => some 19
  | .gmGath .. => some 20
  | .gmScat .. => some 21
  | _ => none

/-- The operations of slu, with their codes (R366-R369). -/
def sluRow : Instr → Option Nat
  | .sluSinit .. => some 8
  | .sluArrive .. => some 9
  | .sluArrivb .. => some 10
  | .sluStest .. => some 11
  | .sluSreset .. => some 12
  | .sluSemadd .. => some 13
  | .sluSemsub .. => some 14
  | _ => none

/-- The operations on mains, with their codes (R342, R348, R349). -/
def mainRow : Instr → Option Nat
  | .lnkMbind .. => some 9
  | .lnkMunbind .. => some 10
  | .lnkMpos .. => some 11
  | _ => none

/-- The CSR operations, with their codes (R125). -/
def csrRow : Instr → Option Nat
  | .sysCsrr .. => some 8
  | .sysCsrw .. => some 9
  | .sysCsrs .. => some 10
  | .sysCsrc .. => some 11
  | _ => none

/-- The empty slot: the all-zero move word, x0 -> x0 (R35, R38, R49). -/
def emptySlot : Instr := .moveToRegister { inv := false, pred := 0 } (.reg { cls := .x, idx := 0 } false) { cls := .x, idx := 0 }

/-- The focused tile is about to issue: it waits for nothing and no partner holds it, and no trap, stop or interrupt comes before its next
bundle (R96, R112, R121, R128, R329, R330, R388). -/
structure MayIssue (s : State) : Prop where
  runs : s.cur.run = .go
  alone : pairing s.cur = none
  powered : s.cur.perf.powerStall = 0
  partner : partnerFrozen s = false
  noTrap : s.cur.ctl.traps = []
  noStop : s.cur.ctl.quietPoint = 0 ∨ cutHolds s.cur = false
  noInterrupt : interruptReady s.cur = false

/-- It is the focused tile's turn: nothing on the agenda, no event and no command waits, and the tile is about to issue once the ring's
arrivals of the cycle are applied (log 1). -/
structure Turn (s : State) : Prop where
  agenda : s.agenda = []
  noEvent : pending s = none
  noCommand : pendingPage s = none
  issues : MayIssue (ringArrivals s)

/-- A command of a page (R383) has an effect: with a scheduler that runs, one that comes alone to an empty page acts at once; at the head of
its page, where no older kick stands before it, it leaves the queue and acts. -/
def Acts (i : Instr) (page op : Nat) (tag : BitVec 56) (args : List Word) (f : State → State) : Prop :=
  ∀ s a, s.dev.hw.active = some a →
    (commandsOf s page = [] → exec i s = .next (f (if page = 0 then syncReply s else s))) ∧
    ∀ w rest, commandsOf s page = (w, args) :: rest → fld w 56 8 = op → w.setWidth 56 = tag → nextIs s page true = false →
      let u := popOrder page { s with dev := { s.dev with window := { s.dev.window with cmds := tset [] s.dev.window.cmds page rest } } }
      exec i s = .next (f (if page = 0 then syncReply u else u))

/-- A context command of the context `c`, which exists when the command acts. -/
def ActsIn (i : Instr) (c : BitVec 12) (op : Nat) (tag : BitVec 56) (args : List Word) (f : Ctx → State → State) : Prop :=
  Acts i c.toNat op tag args fun u => match ctxOf u c.toNat with | some x => f x u | none => u

end Sys2Proof.Machine.Claims
end

