-- ==== Sys2Proof/Certificates/Slice0/Obligations.lean ====
section
/-!
DEFINITION. Certificates/Slice0/Obligations.lean: the statements for the provers.
-/
open Sys2Proof Sys2Proof.Machine Sys2Proof.Machine.Claims

/-- The ia0 and ia1 operations (R101, R102): a trigger that fires, whose operands are there and whose socket has room, reads exactly the operand ports
of its table entry and sends the 64-bit result of the table toward y0 after the table's latency; nothing else changes but what reading the source
and taking the operands did. Completes, as an equation of exec with a next state: iaAdd, iaSub, iaAnd, iaOr, iaXor, iaAndn, iaShl, iaShr, iaSra,
iaMin, iaMax, iaMinu, iaMaxu, iaCeq, iaCne, iaClt, iaCltu, iaCle, iaCleu, iaSel, iaPass, iaSext, iaZext, iaClz, iaPopc, iaAddsc, iaBext, iaBins. -/
def Obligations.IntegerResults : Prop :=
  ∀ i row, iaRow i = some row → ∀ g x sock code s v t0 ops t, Triggers i g x sock code row.ports [0] s v t0 ops t →
    exec i s = .next (withTile s (deliver t sock code 0 row.lat (row.value t0 ops v) none))

/-- The imd operations (R103): multiplications after 4; divisions and remainders by the table with its cases of b = 0, after 8 + ⌈B/2⌉ where B is the
bit length of the quotient's magnitude, 8 where b is 0. Completes, as an equation of exec with a next state: imdMul, imdMulh, imdMulhu, imdDiv,
imdDivu, imdRem, imdRemu. -/
def Obligations.MultiplyDivideResults : Prop :=
  (∀ i row, imdMulRow i = some row → ∀ g x sock code s v t0 ops t, Triggers i g x sock code row.ports [0] s v t0 ops t →
    exec i s = .next (withTile s (deliver t sock code 0 row.lat (row.value t0 ops v) none))) ∧
  ∀ i sgn rem, imdDivRow i = some (sgn, rem) → ∀ g x sock code s v t0 ops t, Triggers i g x sock code [0] [0] s v t0 ops t →
    let a := vecWord (opAt ops 0)
    let b := vecWord v
    let q : Int := if sgn then a.toInt.tdiv b.toInt else a.toNat / b.toNat
    let r : Int := if sgn then a.toInt.tmod b.toInt else a.toNat % b.toNat
    let value : Word := if b = 0 then (if rem then a else BitVec.allOnes 64) else BitVec.ofInt 64 (if rem then r else q)
    let lat := if b = 0 then 8 else 8 + ceilDiv (bitLen q.natAbs) 2
    exec i s = .next (withTile s (deliver t sock code 0 lat (wordVec value) none))

/-- The va operations without a reserved control operand (R135-R137, R139, R140, R143, R144). Completes, as an equation of exec with a next state:
vaFadd, vaFsub, vaFmul, vaFma, vaFmin, vaFmax, vaFsgn, vaFround, vaIadd, vaIsub, vaImul, vaIand, vaIor, vaIxor, vaIshl, vaIshr, vaIsra, vaImin,
vaImax, vaBlend, vaSplat, vaFclass. -/
def Obligations.VectorResults : Prop :=
  ∀ i row, vaRow i = some row → ∀ g x sock code s v t0 ops t, Triggers i g x sock code row.ports [0] s v t0 ops t →
    exec i s = .next (withTile s (deliver t sock code 0 row.lat (row.value t0 ops v) none))

/-- The operations with a control operand that may hold a reserved value (R134, R138, R141, R142, R147, R166): on a legal control operand the result of
the table; on a reserved one the illegal-encoding fault of the trigger. Completes, as an equation of exec with a next state: vaFcmp, vaIcmp, vaFcvt,
vaFtoi, vaItof, vxShufl, ivIcmp. -/
def Obligations.ControlOperandResults : Prop :=
  ∀ i ports lat f, vaMayRow i = some (ports, lat, f) → ∀ g x sock code s v t0 ops t,
    (Triggers i g x sock code ports [0] s v t0 ops t → ∀ r, f t0 ops v = some r →
      exec i s = .next (withTile s (deliver t sock code 0 lat r none))) ∧
    (Fires i g x s v t0 → i.trigger = some (sock, code) → Takes t0 sock code x ports ops t → f t0 ops v = none →
      exec i s = .next (takeException (mkFault 1 sock code 1 0) s.cur.pc.toNat false true s))

/-- The single-result operations of vx (R146, R148, R149). Completes, as an equation of exec with a next state: vxPerm, vxRot, vxBcast, vxRedadd,
vxRedmax, vxRedmin, vxScan. -/
def Obligations.CrossLaneResults : Prop :=
  ∀ i row, vxRow i = some row → ∀ g x sock code s v t0 ops t, Triggers i g x sock code row.ports [0] s v t0 ops t →
    exec i s = .next (withTile s (deliver t sock code 0 row.lat (row.value t0 ops v) none))

/-- part, compact and expand (R150-R152): several result ports, each after 6. Completes, as an equation of exec with a next state: vxPart, vxCompact,
vxExpand. -/
def Obligations.ListBuildingResults : Prop :=
  (∀ g x s v t0 ops t, Triggers (.vxPart g x) g x 6 15 [0, 1] [0, 1, 2] s v t0 ops t →
    (1 ≤ fld (opAt ops 0) 0 8 ∧ fld (opAt ops 0) 0 8 ≤ 64 →
      let ls := partLists (fld (opAt ops 1) 0 16) v (fld (opAt ops 0) 0 8)
      exec (.vxPart g x) s = .next (withTile s <|
        deliver (deliver (deliver t 6 15 0 6 (indexList ls.1) none) 6 15 1 6 (indexList ls.2) none) 6 15 2 6
          (toVec (ls.1.length + ls.2.length * 2 ^ 16)) none)) ∧
    (fld (opAt ops 0) 0 8 = 0 ∨ 64 < fld (opAt ops 0) 0 8 →
      exec (.vxPart g x) s = .next (takeException (mkFault 1 6 15 1 0) s.cur.pc.toNat false true s))) ∧
  (∀ g x s v t0 ops t, Triggers (.vxCompact g x) g x 6 16 [1] [0, 1] s v t0 ops t →
    let w := 8 * 2 ^ fmtOf t0 1
    let xs := ((List.range (1024 / w)).filter fun l => bit (opAt ops 0) l).map fun l => lane w l v
    exec (.vxCompact g x) s = .next (withTile s <|
      deliver (deliver t 6 16 0 6 (packLanes w xs) none) 6 16 1 6 (toVec xs.length) none)) ∧
  ∀ g x s v t0 ops t, Triggers (.vxExpand g x) g x 6 17 [0, 1] [0, 1] s v t0 ops t →
    let w := 8 * 2 ^ fmtOf t0 1
    let ms := (List.range (1024 / w)).map fun l => (bit (opAt ops 1) l, lane w l (opAt ops 0))
    exec (.vxExpand g x) s = .next (withTile s <|
      deliver (deliver t 6 17 0 6 (packLanes w (expandFrom w v 0 ms)) none) 6 17 1 6 (toVec (ms.filter Prod.fst).length) none)

/-- exp2, log2, rcp, rsqrt, sqrt, sinpi, cospi, tanh and sigm (sfuExp2, sfuLog2, sfuRcp, sfuRsqrt, sfuSqrt, sfuSinpi, sfuCospi, sfuTanh,
sfuSigm; R154): each runs to a next state, in which every lane of y0 is the function's rounded value of the trigger's lane in the format of
FMT.vf, after 10; the rest stays. A lane that is a NaN gives the canonical NaN; the infinities and zeros give the values of the table; log2,
rsqrt and sqrt of a negative number are NaN; log2(1) is +0; sinpi of an integer is a zero of its sign. A value whose rounding the model's
enclosure leaves undecided is free (the model's choice, log 9). -/
def Obligations.SpecialFunctionResults : Prop :=
  (∀ i f, sfuRow i = some f → ∀ g x sock code s v t0 ops t, Triggers i g x sock code [] [0] s v t0 ops t →
    let q := fmtOf t0 0
    exec i s = .next (withTile s (deliver t sock code 0 10 (byLane (floatBits q) fun l => f q (lane (floatBits q) l v)) none))) ∧
  (∀ g x, sfuRow (.sfuExp2 g x) = some sfuExp2Lane ∧ sfuRow (.sfuLog2 g x) = some sfuLog2Lane ∧ sfuRow (.sfuRcp g x) = some sfuRcpLane ∧
    sfuRow (.sfuRsqrt g x) = some sfuRsqrtLane ∧ sfuRow (.sfuSqrt g x) = some sfuSqrtLane ∧ sfuRow (.sfuSinpi g x) = some sfuSinpiLane ∧
    sfuRow (.sfuCospi g x) = some sfuCospiLane ∧ sfuRow (.sfuTanh g x) = some sfuTanhLane ∧ sfuRow (.sfuSigm g x) = some sfuSigmLane) ∧
  (∀ i f p q, sfuRow i = some f → sfuPoints q i = some p → ∀ n,
    (decodeFloat q n = .nan → f q n = nanBits q) ∧ (decodeFloat q n = .inf true → f q n = p.1) ∧
    (decodeFloat q n = .inf false → f q n = p.2.1) ∧
    ∀ neg e, decodeFloat q n = .fin neg 0 e → f q n = if neg then p.2.2.1 else p.2.2.2) ∧
  (∀ q n m e, decodeFloat q n = .fin true m e → m ≠ 0 →
    sfuLog2Lane q n = nanBits q ∧ sfuRsqrtLane q n = nanBits q ∧ sfuSqrtLane q n = nanBits q) ∧
  (∀ q n (k : Nat), decodeFloat q n = .fin false (2 ^ k) (-(k : Int)) → sfuLog2Lane q n = 0) ∧
  ∀ q n neg m e, decodeFloat q n = .fin neg m e → m ≠ 0 → (0 ≤ e ∨ (-420 ≤ e ∧ 2 ^ (-e).toNat ∣ m)) →
    sfuSinpiLane q n = signBit q neg

/-- The iv operations. Forward operations, extractions, constructors and tests (R160-R163, R167) send y0 the value of their table. Contractors take x
from o0, y from o1 and z from the trigger; a lane with an empty operand gives empty by propagation, and each result carries the operand it narrows,
for NPF (R168, R169, R172). Completes, as an equation of exec with a next state: ivIadd, ivIsub, ivImul, ivIdiv, ivIsqr, ivIsqrt, ivIexp, ivIlog,
ivImax, ivImin, ivIhull, ivIsect, ivImid, ivIrad, ivIwid, ivIin, ivIsubset, ivImk, ivIlo, ivIhi, ivCadd, ivCsub, ivCmul, ivCdiv, ivCsqr, ivCsqrt,
ivCexp, ivClog, ivCmax, ivCmin. -/
def Obligations.IntervalResults : Prop :=
  (∀ i row, ivRow i = some row → ∀ g x sock code s v t0 ops t, Triggers i g x sock code row.ports [0] s v t0 ops t →
      exec i s = .next (withTile s (deliver t sock code 0 row.lat (row.value t0 ops v) none))) ∧
  ((∀ i lat f, contractTwoRow i = some (lat, f) → ∀ g x sock code s v t0 ops t, Triggers i g x sock code [0, 1] [0, 1] s v t0 ops t →
      let a := opAt ops 0
      let b := opAt ops 1
      let r := fun l => match ivlLane a l, ivlLane b l, ivlLane v l with
        | .set a1 a2, .set b1 b2, .set z1 z2 =>
          let p := f (ptOf a1, ptOf a2) (ptOf b1, ptOf b2) (ptOf z1, ptOf z2)
          (hullBits 0 p.1, hullBits 0 p.2)
        | _, _, _ => (emptyBits 2, emptyBits 2)
      exec i s = .next (withTile s <|
        deliver (deliver t sock code 0 lat (packLanes 64 ((List.range 16).map fun l => (r l).1)) (some a)) sock code 1 lat
          (packLanes 64 ((List.range 16).map fun l => (r l).2)) (some b))) ∧
    ∀ i lat f, contractOneRow i = some (lat, f) → ∀ g x sock code s v t0 ops t, Triggers i g x sock code [0] [0] s v t0 ops t →
      let a := opAt ops 0
      exec i s = .next (withTile s (deliver t sock code 0 lat (packLanes 64 ((List.range 16).map fun l =>
        match ivlLane a l, ivlLane v l with
        | .set a1 a2, .set z1 z2 => f a1 a2 z1 z2
        | _, _ => emptyBits 2)) (some a))))

/-- A legal move whose guard holds writes the low-order bits of its value to its register, x0, p0, p14 and p15 discarding the write, and a predicate
value of 3 stored as unknown; every other register reads as before, and nothing else of the machine changes but what reading the source did (R36,
R39, R40, R42, R85). Completes, as an equation of exec with a next state: moveToRegister. -/
def Obligations.RegisterWrites : Prop :=
  ∀ g x r s v t, Fires (.moveToRegister g x r) g x s v t →
    ∃ t', exec (.moveToRegister g x r) s = .next (withTile s t') ∧
      (∀ q : Reg, readReg t' q =
        if q.cls = r.cls ∧ q.idx = r.idx ∧ ¬ (r.cls = .x ∧ r.idx.toNat = 0) ∧ ¬ (r.cls = .p ∧ r.idx.toNat ∈ [0, 14, 15]) then
          (match r.cls with
           | .x | .k => wordVec (v.setWidth 64)
           | .v | .j => v
           | .p => (if v.setWidth 2 = (3 : BitVec 2) then (2 : BitVec 2) else v.setWidth 2).setWidth 1024)
        else readReg t q) ∧
      { t' with regs := t.regs } = t

/-- A move to an operand port sets it to its value with its hold latch, which a socket that runs free ignores (R93), whatever it held; the other ports
and everything else stay (R38, R92, R93). A move to a stream bound for writing, free, not ended and with room puts the low bytes of its value behind
the elements that wait; on a stopped stream it is only counted; an absent stream, one bound for reading or at its end, or an element that leaves the
handle faults with cause 18 (R230, R231). Completes, as an equation of exec with a next state: moveToOperand, moveToStream. -/
def Obligations.PortAndStreamWrites : Prop :=
  (∀ g x k o s v t, Fires (.moveToOperand g x k o) g x s v t →
      ∃ t', exec (.moveToOperand g x k o) s = .next (withTile s t') ∧
        (∀ p, tfind (sockOf t' k.toNat).o p =
          if p = o.toNat then some { val := v, held := x.hold && !sockFree t k.toNat } else tfind (sockOf t k.toNat).o p) ∧
        (sockOf t' k.toNat).y = (sockOf t k.toNat).y ∧ (∀ n, n ≠ k.toNat → sockOf t' n = sockOf t n) ∧ { t' with socks := t.socks } = t) ∧
  (∀ g x f s v t, Fires (.moveToStream g x f) g x s v t →
      (∀ st, tfind t.streams f.toNat = some st → st.write = true → streamHeld t f.toNat = false → st.moved < walkLen st →
        elemOk t st st.moved = true → (st.stopped = true ∨ st.buf.length < 8) →
        ∃ t', exec (.moveToStream g x f) s = .next (withTile s t') ∧
          tfind t'.streams f.toNat = some { st with
            buf := if st.stopped then st.buf else st.buf ++ [(toVec (v.toNat % 2 ^ (8 * 2 ^ st.esz)), 0)], moved := st.moved + 1 } ∧
          (∀ n, n ≠ f.toNat → tfind t'.streams n = tfind t.streams n) ∧ { t' with streams := t.streams } = t) ∧
      ((match tfind t.streams f.toNat with
        | none => True
        | some st => st.write = false ∨ (streamHeld t f.toNat = false ∧ (walkLen st ≤ st.moved ∨ elemOk t st st.moved = false))) →
        exec (.moveToStream g x f) s = .next (takeException (mkFault 18 0 0 1 f.toNat) s.cur.pc.toNat false true s)))

/-- A legal move whose guard does not hold has no effect whatever: a guard holds on true, an inverted one on false, unknown holds neither (R36). A
move that is no legal encoding, or that names a socket the die leaves absent, takes the illegal-encoding exception whatever its guard
(R49, R316). -/
def Obligations.GuardsAndLegality : Prop :=
  (∀ i g x s, i.move = some (g, x) → moveIllegal s i = false →
      getP s.cur g.pred.toNat ≠ (if g.inv then 0 else 1) → exec i s = .next s) ∧
  (∀ i g x s, i.move = some (g, x) →
      (i.wf = false ∨ ∃ k ∈ namedSockets i, engineOf s s.cur.id k = 32) →
      exec i s = .next (takeException (mkFault 1 0 0 1 0) s.cur.pc.toNat false true s))

/-- What the sources of a move read (R37, R39, R40, R231, R270): registers zero-extended, x0 zero and p0 true; a sign-extended immediate; the
literal; the head of a read stream, a receive queue and the completion queue, which a peek leaves and another read takes. -/
def Obligations.SourceReads : Prop :=
  ∀ (t : Tile) (n : Nat),
    (∀ (i : BitVec 6) h, readSrc t n (.reg { cls := .x, idx := i } h) =
      .ok (wordVec (if i.toNat = 0 then 0 else tget 0 t.regs.x i.toNat), t)) ∧
    (∀ (i : BitVec 6) h, readSrc t n (.reg { cls := .p, idx := i } h) =
      .ok ((if i.toNat = 0 then 1 else tget 0 t.regs.p i.toNat).setWidth 1024, t)) ∧
    (∀ (i : BitVec 6) h, readSrc t n (.reg { cls := .v, idx := i } h) = .ok (tget 0 t.regs.v i.toNat, t)) ∧
    (∀ (i : BitVec 12), readSrc t n (.imm i) = .ok (((i.signExtend 64).setWidth 1024), t)) ∧
    (∀ w, readSrc t n (.lit w) = .ok (w.setWidth 1024, t)) ∧
    (∀ (f : BitVec 4) pk h st v rest, tfind t.streams f.toNat = some st → st.write = false → streamHeld t f.toNat = false →
      st.moved < walkLen st → st.buf = (v, 0) :: rest →
      ∃ t', readSrc t n (.stream f pk h) = .ok (v, t') ∧
        t' = if pk then t else { t with streams := tput t.streams f.toNat { st with buf := rest, moved := st.moved + 1 } }) ∧
    (∀ (q : BitVec 2) h v rest, tget [] t.net.q q.toNat = v :: rest →
      readSrc t n (.recvq q true h) = .ok (v, t) ∧
      ∃ t', readSrc t n (.recvq q false h) = .ok (v, t') ∧
        (spillCount t q.toNat = 0 → tget [] t'.net.q q.toNat = rest) ∧ { t' with net := t.net } = t) ∧
    (∀ (q : BitVec 2) pk h, tget [] t.net.q q.toNat = [] → readSrc t n (.recvq q pk h) = .freeze) ∧
    (∀ h w rest, t.net.cq = w :: rest →
      readSrc t n (.cq true h) = .ok (wordVec w, t) ∧
      readSrc t n (.cq false h) = .ok (wordVec w, { t with net := { t.net with cq := rest } }))

/-- Reading a result port: data-locked, the oldest result is taken if it is ready, freezes if it is on its way, and an empty port is a fault of
cause 7 with the port as detail; free-running, the value stays, counts as read and can be read again, and with STC.en a read while an
operation is in flight toward the port is a fault of cause 8 (R92, R98). -/
def Obligations.ResultPortReads : Prop :=
  ∀ (t : Tile) (n k y : Nat),
    (∀ r rest, (portOf (sockOf t k) y).fifo = r :: rest →
      (r.due = .ready → ∃ t', readPort t n k y = .ok (r.val, t') ∧ (portOf (sockOf t' k) y).fifo = rest ∧
        (∀ m, m ≠ y → portOf (sockOf t' k) m = portOf (sockOf t k) m) ∧ (∀ m, m ≠ k → sockOf t' m = sockOf t m) ∧
        (sockOf t' k).o = (sockOf t k).o ∧ { t' with socks := t.socks } = t) ∧
      (r.due ≠ .ready → readPort t n k y = .freeze)) ∧
    ((portOf (sockOf t k) y).fifo = [] →
      (sockFree t k = false → readPort t n k y = .fault (mkFault 7 k 0 n y)) ∧
      (sockFree t k = true → bit t.csr.stc 0 = true → (portOf (sockOf t k) y).flight ≠ [] →
        readPort t n k y = .fault (mkFault 8 k 0 n 0)) ∧
      (sockFree t k = true → (bit t.csr.stc 0 = false ∨ (portOf (sockOf t k) y).flight = []) →
        ∃ t', readPort t n k y = .ok ((portOf (sockOf t k) y).val, t') ∧
          (portOf (sockOf t' k) y).val = (portOf (sockOf t k) y).val ∧ (portOf (sockOf t' k) y).unread = false ∧
          (∃ t'', readPort t' n k y = .ok ((portOf (sockOf t k) y).val, t'')) ∧ { t' with socks := t.socks } = t))

/-- Taking the operand at a port (R92, R93, R101): present, its value is read, and the port is left absent unless its latch holds it, the
trigger is held or the operation runs free; absent, a data-locked trigger faults with cause 6 and the port as detail, and a free-running one
reads 0. -/
def Obligations.OperandTaking : Prop :=
  ∀ (t : Tile) (sock code n : Nat) (held : Bool) (p : Nat),
    (∀ v, tfind (sockOf t sock).o p = some v →
      ∃ t', takeOperands t sock code n held [p] = .ok ([v.val], t') ∧
        tfind (sockOf t' sock).o p = (if runsFree t sock code ∨ held ∨ v.held then some v else none) ∧
        (∀ q, q ≠ p → tfind (sockOf t' sock).o q = tfind (sockOf t sock).o q) ∧ (sockOf t' sock).y = (sockOf t sock).y ∧
        (∀ m, m ≠ sock → sockOf t' m = sockOf t m) ∧ { t' with socks := t.socks } = t) ∧
    (tfind (sockOf t sock).o p = none →
      takeOperands t sock code n held [p] =
        if runsFree t sock code then .ok ([0], t) else .fault (mkFault 6 sock code n p))

/-- Room at a socket (R92, R95, R96): a trigger that runs free waits for the unread and coming data-locked results of the socket; a data-locked
one in a socket that runs free drains the operations in flight; one freezes while a port it delivers to holds four results; else it is
accepted. Which operations of a socket with both modes are always data-locked is R45's table. -/
def Obligations.TriggerAcceptance : Prop :=
  (∀ (t : Tile) sock code outs,
    (runsFree t sock code = true → accepts t sock code outs = if anyLocked (sockOf t sock) then .freeze else .ok ()) ∧
    (runsFree t sock code = false → sockFree t sock = true → anyFlight (sockOf t sock) = true → accepts t sock code outs = .drain) ∧
    (runsFree t sock code = false → (sockFree t sock = false ∨ anyFlight (sockOf t sock) = false) →
      accepts t sock code outs = if ∃ y ∈ outs, 4 ≤ (portOf (sockOf t sock) y).fifo.length then .freeze else .ok ())) ∧
  ∀ (t : Tile) sock code, runsFree t sock code = true ↔
    (bit t.csr.sockmode sock = true ∧ ¬ (sock = 6 ∧ code ∈ [15, 16, 17]) ∧ ¬ (sock = 10 ∧ code ∈ [11, 13, 14, 15, 35, 37, 38, 39]))

/-- A result under way (R92, R96): sent data-locked it stands behind the results of its port, due after its latency, and each cycle brings it
one nearer, until it can be read; sent free-running it stands in flight with its latency, and each bundle step brings it one nearer, until
the step in which it replaces the port's value. Ports, values and latches of other ports stay. -/
def Obligations.ResultsOnTheirWay : Prop :=
  (∀ (t : Tile) sock code y lat v w,
    (runsFree t sock code = false →
      (portOf (sockOf (deliver t sock code y lat v w) sock) y).fifo =
        (portOf (sockOf t sock) y).fifo ++ [{ due := .cycles lat, val := v, narrowed := w }]) ∧
    (runsFree t sock code = true →
      (portOf (sockOf (deliver t sock code y lat v w) sock) y).flight =
        (portOf (sockOf t sock) y).flight ++ [{ rem := lat, val := v, narrowed := w }]) ∧
    (∀ k m, (k ≠ sock ∨ m ≠ y) → portOf (sockOf (deliver t sock code y lat v w) k) m = portOf (sockOf t k) m) ∧
    (∀ k, (sockOf (deliver t sock code y lat v w) k).o = (sockOf t k).o) ∧
    { deliver t sock code y lat v w with socks := t.socks } = t) ∧
  (∀ (t : Tile) k y, (portOf (sockOf (tickLocked t) k) y).fifo = (portOf (sockOf t k) y).fifo.map fun r =>
    match r.due with
    | .cycles n => { r with due := if n ≤ 1 then .ready else .cycles (n - 1) }
    | _ => r) ∧
  ∀ (t : Tile) k y, (portOf (sockOf (tickFree t) k) y).flight =
    ((portOf (sockOf t k) y).flight.filter fun o => decide (1 < o.rem)).map fun o => { o with rem := o.rem - 1 }

/-- nop, stall and fmt go on at the next bundle: nop and fmt after xstall cycles, stall after xstall and its own count; fmt triggers the write of its
field, which takes effect five ends of a bundle step later (R31, R34, R72, R105). Completes, as an equation of exec with a next state: ctlNop,
ctlStall, ctlFmt. -/
def Obligations.StraightControl : Prop :=
  (∀ h s, Issues (.ctlNop h) h s →
    exec (.ctlNop h) s = .next (onCur (goesOn (s.cur.pc.toNat + 1) h.xstall.toNat) (atControl (.ctlNop h) h s))) ∧
  (∀ h m s, Issues (.ctlStall h m) h s →
    exec (.ctlStall h m) s =
      .next (onCur (goesOn (s.cur.pc.toNat + 1) (h.xstall.toNat + m.toNat)) (atControl (.ctlStall h m) h s))) ∧
  ∀ h f v s, Issues (.ctlFmt h f v) h s →
    exec (.ctlFmt h f v) s = .next (onCur (fun t => goesOn (s.cur.pc.toNat + 1) h.xstall.toNat
      { t with ctl := { t.ctl with fmtPending := t.ctl.fmtPending ++ [{ rem := 5, field := f.toNat, val := v.toNat }] } })
      (atControl (.ctlFmt h f v) h s))

/-- The jumps go on at their targets: bra and call at the PC plus their signed distance, brp so where its predicate holds and else at the next bundle,
bri at its register, ret at x62; call writes the next bundle's index into x62 (R33, R105). Registers and predicates are read as they stood before
the bundle. Completes, as an equation of exec with a next state: ctlBra, ctlBrp, ctlBri, ctlCall, ctlRet. -/
def Obligations.JumpControl : Prop :=
  (∀ h d s, Issues (.ctlBra h d) h s →
    exec (.ctlBra h d) s = .next (onCur (goesOn ((s.cur.pc.toNat : Int) + d.toInt).toNat h.xstall.toNat) (atControl (.ctlBra h d) h s))) ∧
  (∀ h p inv d s, Issues (.ctlBrp h p inv d) h s →
    exec (.ctlBrp h p inv d) s = .next (onCur (goesOn
      (if getP s.cur p.toNat = (if inv then 0 else 1) then ((s.cur.pc.toNat : Int) + d.toInt).toNat else s.cur.pc.toNat + 1)
      h.xstall.toNat) (atControl (.ctlBrp h p inv d) h s))) ∧
  (∀ h x s, Issues (.ctlBri h x) h s →
    exec (.ctlBri h x) s = .next (onCur (goesOn (getX s.cur x.toNat).toNat h.xstall.toNat) (atControl (.ctlBri h x) h s))) ∧
  (∀ h d s, Issues (.ctlCall h d) h s →
    exec (.ctlCall h d) s = .next (onCur (fun t => goesOn ((s.cur.pc.toNat : Int) + d.toInt).toNat h.xstall.toNat
      (putX t 62 (BitVec.ofNat 64 (s.cur.pc.toNat + 1)))) (atControl (.ctlCall h d) h s))) ∧
  ∀ h s, Issues (.ctlRet h) h s →
    exec (.ctlRet h) s = .next (onCur (goesOn (getX s.cur 62).toNat h.xstall.toNat) (atControl (.ctlRet h) h s))

/-- A loop bundle with a trip count of 0 skips its body; else it enters a level at pass 0 with the body behind it, its strides, and, where it has
stages, the window p8-p13 saved and set to its first pass; p14 is true, p15 tells whether the first pass is the last (R106-R109). Completes, as an
equation of exec with a next state: ctlLoop. -/
def Obligations.LoopEntry : Prop :=
  ∀ h body stages x strides s, Issues (.ctlLoop h body stages x strides) h s →
    let i := Instr.ctlLoop h body stages x strides
    let trips := (getX s.cur x.toNat).toNat
    let passes := if stages = 0 then trips else trips + stages.toNat - 1
    (trips = 0 → exec i s = .next (onCur (goesOn (s.cur.pc.toNat + body.toNat + 1) h.xstall.toNat) (atControl i h s))) ∧
    (trips ≠ 0 → ∃ t, exec i s = .next (withTile (atControl i h s) t) ∧
      t.pc = BitVec.ofNat 13 (s.cur.pc.toNat + 1) ∧ t.run = (if h.xstall = 0 then .go else .stall h.xstall.toNat) ∧
      t.ctl.loops = { top := s.cur.pc.toNat + 1, last := s.cur.pc.toNat + body.toNat, trips := trips, stages := stages.toNat, pass := 0,
                      strides := (match h.lit with | .none => 0 | .w32 => strides &&& 0xFFFFFFFF | .w64 => strides),
                      window := if stages = 0 then [] else (List.range 6).map fun k => getP s.cur (8 + k) } :: s.cur.ctl.loops ∧
      getP t 14 = 1 ∧ getP t 15 = (if passes = 1 then 1 else 0) ∧
      (stages ≠ 0 → getP t 8 = 1 ∧ ∀ k ∈ [9, 10, 11, 12, 13], getP t k = 0) ∧
      (∀ k, k ∉ [14, 15] → (stages = 0 ∨ k ∉ [8, 9, 10, 11, 12, 13]) → getP t k = getP s.cur k) ∧
      { t with pc := s.cur.pc, run := s.cur.run, ctl := (atControl i h s).cur.ctl, regs := { t.regs with p := s.cur.regs.p } } =
        { (atControl i h s).cur with pc := s.cur.pc, run := s.cur.run })

/-- lend and lbrk (ctlLend, ctlLbrk; R107-R110). A lend that issues, so fits the innermost level, runs to a next state: it applies its strides and
advances the pass; while passes are left it goes on at the first bundle of the body, its stage window shifted with p8 telling whether the next
trip has begun, p14 false and p15 true on the last pass; else it leaves the level and goes on behind it. A lbrk runs to a next state that leaves
the level without strides, behind its end bundle. Leaving restores the window of a staged level and the enclosing level's p14 and p15. All
else stays. -/
def Obligations.LoopEnds : Prop :=
  (∀ h b s l ls, Issues (.ctlLend h b) h s → s.cur.ctl.loops = l :: ls →
    let i := Instr.ctlLend h b
    let again := decide (l.pass + 1 < if l.stages = 0 then l.trips else l.trips + l.stages - 1)
    ∃ t, exec i s = .next (withTile (atControl i h s) t) ∧
      t.pc = BitVec.ofNat 13 (if again then l.top else s.cur.pc.toNat + 1) ∧
      t.run = (if h.xstall = 0 then .go else .stall h.xstall.toNat) ∧
      t.ctl.loops = (if again then { l with pass := l.pass + 1 } :: ls else ls) ∧
      t.regs.x = ((strideList l.strides).foldl (fun t q => putX t q.1 (getX t q.1 + BitVec.ofInt 64 q.2)) s.cur).regs.x ∧
      (again → l.stages ≠ 0 → getP t 8 = (if l.pass + 1 < l.trips then 1 else 0) ∧
        ∀ k ∈ [8, 9, 10, 11, 12], getP t (k + 1) = (if getP s.cur k = 3 then 2 else getP s.cur k)) ∧
      (again → getP t 14 = 0 ∧ getP t 15 = if l.pass + 2 = (if l.stages = 0 then l.trips else l.trips + l.stages - 1) then 1 else 0) ∧
      (again → ∀ k, k ∉ [14, 15] → (l.stages = 0 ∨ k ∉ [8, 9, 10, 11, 12, 13]) → getP t k = getP s.cur k) ∧
      (again = false → l.window.length ≤ 6 → LoopLeft l ls s.cur t) ∧
      { t with pc := s.cur.pc, run := s.cur.run, ctl := { t.ctl with loops := s.cur.ctl.loops }, regs := { t.regs with x := s.cur.regs.x, p := s.cur.regs.p } } =
        { (atControl i h s).cur with pc := s.cur.pc, run := s.cur.run }) ∧
  ∀ h s l ls, Issues (.ctlLbrk h) h s → s.cur.ctl.loops = l :: ls →
    let i := Instr.ctlLbrk h
    ∃ t, exec i s = .next (withTile (atControl i h s) t) ∧
      t.pc = BitVec.ofNat 13 (l.last + 1) ∧ t.run = (if h.xstall = 0 then .go else .stall h.xstall.toNat) ∧ t.ctl.loops = ls ∧
      (l.window.length ≤ 6 → LoopLeft l ls s.cur t) ∧
      { t with pc := s.cur.pc, run := s.cur.run, ctl := { t.ctl with loops := s.cur.ctl.loops }, regs := { t.regs with p := s.cur.regs.p } } =
        { (atControl i h s).cur with pc := s.cur.pc, run := s.cur.run }

/-- A wait takes its counter's change at once where the condition holds, and goes on; else the tile waits at it. A strokeend begins its end; a halt at
system privilege sets STATUS.halted, and the tile stands behind it (R111, R113, R117, R363, R364). Completes, as an equation of exec with a next
state: ctlWait, ctlStrokeend, ctlHalt. -/
def Obligations.WaitingControl : Prop :=
  (∀ h idx sem s, Issues (.ctlWait h idx sem) h s →
    let i := Instr.ctlWait h idx sem
    let s1 := onCur completeAll (atControl i h s)
    exec i s = .next (if satisfied s1.cur sem idx.toNat then
        onCur (goesOn (s.cur.pc.toNat + 1) h.xstall.toNat) (consume sem idx.toNat s1)
      else onCur (fun t => { t with run := .waiting sem idx.toNat h.xstall.toNat }) s1)) ∧
  (∀ h s, Issues (.ctlStrokeend h) h s →
    exec (.ctlStrokeend h) s =
      .next (onCur (fun t => { t with run := .ending false h.xstall.toNat }) (atControl (.ctlStrokeend h) h s))) ∧
  ∀ h s, Issues (.ctlHalt h) h s → isSystem s.cur = true ∧
    ∃ t, exec (.ctlHalt h) s = .next (withTile (atControl (.ctlHalt h) h s) t) ∧
      t.csr.status = s.cur.csr.status ||| 64 ∧ t.pc = BitVec.ofNat 13 (s.cur.pc.toNat + 1) ∧ t.run = .halted h.xstall.toNat ∧ t.regs = s.cur.regs ∧
      t.socks = s.cur.socks ∧ t.ctl = (atControl (.ctlHalt h) h s).cur.ctl

/-- trap takes the breakpoint exception behind its bundle: at once without extra cycles, else after them, when the next bundle is about to issue. uiret
exchanges x56-x63 with the bank, clears STATUS.uia and goes on at UIEPC; sret returns from the exception (R112, R116, R124). Completes, as an
equation of exec with a next state: ctlTrap, ctlUiret, ctlSret. -/
def Obligations.TrapControl : Prop :=
  (∀ h s, Issues (.ctlTrap h) h s →
    let f := mkFault 32 0 0 0 0
    let s1 := onCur (goesOn (s.cur.pc.toNat + 1) h.xstall.toNat) (atControl (.ctlTrap h) h s)
    exec (.ctlTrap h) s = .next (if h.xstall = 0 then takeException f (BitVec.ofNat 13 (s.cur.pc.toNat + 1)).toNat false false s1
      else onCur (fun t => { t with ctl := { t.ctl with traps := [f] } }) s1)) ∧
  (∀ h s, Issues (.ctlUiret h) h s → bit s.cur.csr.status 5 = true ∧
    ∃ t, exec (.ctlUiret h) s = .next (withTile (atControl (.ctlUiret h) h s) t) ∧
      t.pc = BitVec.ofNat 13 (fld s.cur.csr.uiepc 0 13) ∧ t.run = (if h.xstall = 0 then .go else .stall h.xstall.toNat) ∧
      t.csr.status = s.cur.csr.status &&& ~~~32 ∧ t.ctl.controlOnly = bit s.cur.csr.uiepc 16 ∧
      (∀ k, k < 8 → getX t (56 + k) = tget 0 s.cur.regs.bank k ∧ tget 0 t.regs.bank k = getX s.cur (56 + k)) ∧
      (∀ k, k < 56 → getX t k = getX s.cur k) ∧ t.regs.p = s.cur.regs.p ∧ t.socks = s.cur.socks) ∧
  ∀ h s, Issues (.ctlSret h) h s → isSystem s.cur = true ∧
    exec (.ctlSret h) s =
      .next (onCur (fun t => { returnException t with run := if h.xstall = 0 then .go else .stall h.xstall.toNat })
        (atControl (.ctlSret h) h s))

/-- The faults of the control operations, each taken at its bundle in slot 0: an illegal control word; halt and sret at user privilege (where
no quiet violation of the same slot meets it: log 7);
uiret outside a handler and strokeend in one; a loop bundle whose trip count does not fit in 32 bits, whose level would be the seventh, or
whose body does not end in a lend; a lend that does not fit the innermost level, an lbrk or a strokeend with or without a level; a target
that is no legal one, with the target as detail; a bra, brp or bri out of the innermost body (R47, R49, R104, R106, R109, R110, R113, R124). -/
def Obligations.ControlFaults : Prop :=
  ∀ i h s, i.head = some h → AtRest s.cur → s.cur.ctl.split = none →
    let t := s.cur
    let faults := fun f => exec i s = .next (takeException f t.pc.toNat false true
      (withTile s { t with ctl := { t.ctl with quietPoint := 0 } }))
    (i.wf = false → faults (mkFault 1 0 0 0 0)) ∧
    (i.wf = true →
      (i = .ctlHalt h ∨ i = .ctlSret h → isSystem t = false →
        (h.quiet = false ∨ (nothingFlies t = true ∧ t.ctl.fmtPending = [])) → faults (mkFault 2 0 0 0 0)) ∧
      (i = .ctlUiret h → bit t.csr.status 5 = false → faults (mkFault 5 0 0 0 0)) ∧
      (i = .ctlStrokeend h → t.ctl.loops ≠ [] → faults (mkFault 4 0 0 0 0)) ∧
      (i = .ctlStrokeend h → t.ctl.loops = [] → bit t.csr.status 5 = true → faults (mkFault 5 0 0 0 0)) ∧
      (i = .ctlLbrk h → t.ctl.loops = [] → faults (mkFault 4 0 0 0 0)) ∧
      (∀ b, i = .ctlLend h b → (∀ l ls, t.ctl.loops = l :: ls → ¬ (t.pc.toNat = l.last ∧ t.pc.toNat = l.top + b.toNat)) →
        faults (mkFault 4 0 0 0 0)) ∧
      (∀ body stages x strides, i = .ctlLoop h body stages x strides →
        2 ^ 32 ≤ (getX t x.toNat).toNat ∨ 6 ≤ t.ctl.loops.length ∨ holdsLend t (t.pc.toNat + body.toNat) = false →
        faults (mkFault 4 0 0 0 0)) ∧
      (∀ n, ctlTarget t i = some n → i ≠ .ctlUiret h → i ≠ .ctlSret h → targetLegal t (isSystem t) n = false →
        faults (mkFault 3 0 0 0 (n % 2 ^ 32).toNat)) ∧
      (∀ n l ls, ctlTarget t i = some n → i ≠ .ctlUiret h → i ≠ .ctlSret h → i ≠ .ctlRet h → (∀ d, i ≠ .ctlCall h d) →
        targetLegal t (isSystem t) n = true → t.ctl.loops = l :: ls → l.top ≤ t.pc.toNat → t.pc.toNat ≤ l.last →
        (n < l.top ∨ l.last < n) → faults (mkFault 4 0 0 0 0)))

/-- A quiet control operation without a fault of its own: while a free-running operation is in flight or an FMT write waits it faults with
cause 10; while other work of the tile is in flight it freezes the tile; else it adds its entry's count to CUTN and the interval count
starts anew (R24, R73, R327, R328). -/
def Obligations.QuietBundles : Prop :=
  ∀ i h s, i.head = some h → h.quiet = true → i.wf = true → ctlFault s.cur i = none → AtRest s.cur → s.cur.ctl.split = none →
    let t := s.cur
    let s0 := withTile s { t with ctl := { t.ctl with quietPoint := 0 } }
    ((nothingFlies t = false ∨ t.ctl.fmtPending ≠ []) →
      exec i s = .next (takeException (mkFault 10 0 0 0 0) t.pc.toNat false true s0)) ∧
    (nothingFlies t = true → t.ctl.fmtPending = [] → (socketsDone t = false ∨ transfersDone s = false) →
      exec i s = .next (onCur (fun t => { t with run := .frozen }) s0)) ∧
    (nothingFlies t = true → t.ctl.fmtPending = [] → socketsDone t = true → transfersDone s = true →
      Issues i h s ∧ (atControl i h s).cur.perf.quietGap = 0 ∧
      (∀ e, t.code.live.find? (fun e => decide (256 + e.pc = t.pc.toNat)) = some e →
        (atControl i h s).cur.csr.cutn = t.csr.cutn + BitVec.ofNat 64 e.inc) ∧
      (t.code.live.find? (fun e => decide (256 + e.pc = t.pc.toNat)) = none → (atControl i h s).cur.csr.cutn = t.csr.cutn))

/-- Taking an exception at user privilege: EPC holds the bundle and w, CAUSE the cause, ppriv the privilege before, priv is 1, the PC is 0
and nothing else of the tile changes but the marks of the bundle it left; a fault inside a bundle captures the free-running pipelines first;
then the disposition follows. At system privilege it is a double fault: the tile stops and its node is faulted with the second cause, and EPC and
CAUSE keep the first entry's values; on a checked tile, whose partner may fault alike, the fault is held instead (R99, R116, R307, R311). -/
def Obligations.ExceptionEntry : Prop :=
  (∀ f pc w t, let t' := enterSystem f pc w t
    t'.csr.epc = BitVec.ofNat 64 (pc % 8192 + if w then 65536 else 0) ∧ t'.csr.cause = causeWord f ∧ t'.pc = 0 ∧ t'.run = .go ∧
    bit t'.csr.status 0 = true ∧ bit t'.csr.status 1 = bit t.csr.status 0 ∧
    (∀ k, 2 ≤ k → bit t'.csr.status k = bit t.csr.status k) ∧ t'.ctl.controlOnly = false ∧ t'.ctl.split = none ∧ t'.ctl.rearms = false ∧
    { t' with pc := t.pc, run := t.run, csr := { t'.csr with epc := t.csr.epc, cause := t.csr.cause, status := t.csr.status },
              ctl := { t'.ctl with controlOnly := t.ctl.controlOnly, split := t.ctl.split, rearms := t.ctl.rearms } } = t) ∧
  (∀ f pc w b s, isSystem s.cur = false →
    takeException f pc w b s = dispose f (onCur (enterSystem f pc w) (if b then onCur capture s else s))) ∧
  (∀ f pc w b s, isSystem s.cur = true → let u := if b then onCur capture s else s
    takeException f pc w b s =
      if bit s.cur.csr.status 7 && nodeStands u then holdFault f true u else faultCurNode f.cause f.addr (onCur (stopTile .stopped) u)) ∧
  ∀ f pc w b s, isSystem s.cur = true → (takeException f pc w b s).cur.csr = s.cur.csr ∧ (takeException f pc w b s).cur.run = .stopped

/-- A service call of the trap runtime leaves the tile in the runtime, and so does a breakpoint that a debugger holds; on a checked tile any
other fault is first held (R311); a page or permission fault waits there for its owner, with a record of the tile on the event ring; any other
cause faults the node, which stops handing out its context's entries and is in the faulted state, its cut abandoned (R306, R308, R309). -/
def Obligations.Dispositions : Prop :=
  (∀ f s, f.cause = 33 → Config.isService f.detail → dispose f s = s) ∧
  (∀ f s, f.cause = 32 → Config.debuggerHolds (tileIndex s.cur.id) s.fresh → dispose f s = { s with fresh := s.fresh + 1 }) ∧
  ∀ f s, (f.cause = 33 → ¬ Config.isService f.detail) → (f.cause = 32 → ¬ Config.debuggerHolds (tileIndex s.cur.id) s.fresh) →
    (bit s.cur.csr.status 7 = true → nodeStands s = true →
      dispose f s = onCur (fun t => { stopTile .stopped t with ctl := { t.ctl with late := [{ f with late := false }] } }) s) ∧
    ((bit s.cur.csr.status 7 = false ∨ nodeStands s = false) →
      (f.cause = 20 ∨ f.cause = 21 →
        (dispose f s).cur = { s.cur with run := .owner, ctl := { s.cur.ctl with owner := some f } } ∧
        ∀ n, curNode s = some n → dispose f s = eventRecord (recordCtx s s.cur n) (tileRecord n s.cur f.cause 0 f.addr (tscOf s).toNat)
          (withTile s { s.cur with run := .owner, ctl := { s.cur.ctl with owner := some f } })) ∧
      (f.cause ≠ 20 → f.cause ≠ 21 → dispose f s = faultCurNode f.cause f.addr s)) ∧
    ∀ n, nodeOf s n.ref = some n → n.state ≠ .ended →
      nodeOf (faultNodeQuiet n s) n.ref = some { n with state := .faulted, stopping := none, target := none, saving := none } ∧
      (frozenCtx s n, n.cls, n.prio) ∈ (faultNodeQuiet n s).dev.hw.frozenQ ∧
      ∀ q, q ≠ (frozenCtx s n, n.cls, n.prio) → (q ∈ (faultNodeQuiet n s).dev.hw.frozenQ ↔ q ∈ s.dev.hw.frozenQ)

/-- The return from an exception: the PC is EPC's, priv is ppriv, the bundle there does its control operation alone where EPC.w is set, and
the tile is marked to re-arm; registers, ports and what was captured stay. As that bundle is about to issue, every captured free-running
result is in flight again with the steps it had left, behind what its port holds, and the captured FMT writes wait again; the rest stays
(R73, R99, R116). -/
def Obligations.ExceptionReturn : Prop :=
  (∀ t, let t' := returnException t
    t'.pc = BitVec.ofNat 13 (fld t.csr.epc 0 13) ∧ t'.run = .go ∧ bit t'.csr.status 0 = bit t.csr.status 1 ∧
    (∀ k, 1 ≤ k → bit t'.csr.status k = bit t.csr.status k) ∧ t'.ctl.controlOnly = bit t.csr.epc 16 ∧ t'.ctl.rearms = true ∧
    t'.ctl.owner = none ∧
    { t' with pc := t.pc, run := t.run, csr := { t'.csr with status := t.csr.status },
              ctl := { t'.ctl with controlOnly := t.ctl.controlOnly, rearms := t.ctl.rearms, owner := t.ctl.owner } } = t) ∧
  ∀ t, let t' := rearm t
    t'.ctl.captured = [] ∧ t'.ctl.capturedFmt = [] ∧ t'.ctl.fmtPending = t.ctl.fmtPending ++ t.ctl.capturedFmt ∧ t'.ctl.rearms = false ∧
    (∀ k y, (portOf (sockOf t' k) y).flight =
      (portOf (sockOf t k) y).flight ++ ((t.ctl.captured.filter fun c => c.sock = k ∧ c.port = y).map Captured.op)) ∧
    (∀ k y, (portOf (sockOf t' k) y).fifo = (portOf (sockOf t k) y).fifo ∧ (sockOf t' k).o = (sockOf t k).o) ∧
    { t' with socks := t.socks, ctl := t.ctl } = t

/-- The mx operations. mxWload, mxWswap, mxMstream, mxMstreamn, mxMivl and mxWloadsp (`mxQueued`) run to a next state in which they have joined
the queue with the formats, the plane and the order of their trigger; they freeze with eight there, and fault at the trigger on a failed check
(R184-R189, R194, R195). mxMclr zeroes the accumulators of its mask, mxMacw writes the lanes of its window, mxMread takes them for y0 and with
its clear bit zeroes them; every other lane stays; an accumulator in use freezes them, a failed check faults (R190-R193, R196). -/
def Obligations.MatrixOperations : Prop :=
  (∀ i g x code s v t, Fires i g x s v t → mxQueued i = some code →
      let o := mxOpOf t code 1 v
      (mxCheck t o = none → t.mx.queue.length < 8 →
        GoesTo i s { t with mx := { t.mx with queue := t.mx.queue ++ [o], seq := t.mx.seq + 1 } }) ∧
      (mxCheck t o = none → 8 ≤ t.mx.queue.length → Freezes i s) ∧
      (∀ c, mxCheck t o = some c → Faults i s (mkFault c 8 code 1 0)) ∧
      (code ∈ [10, 11, 15] → (fld v 4 7 = 0 ∨ 64 < fld v 4 7 ∨ 64 < fld v 12 6 + fld v 4 7) → Faults i s (mkFault 1 8 code 1 0)) ∧
      (code ∈ [8, 16] → (fld v 0 7 = 0 ∨ 64 < fld v 0 7) → Faults i s (mkFault 1 8 code 1 0))) ∧
  ((∀ g x s v t, Fires (.mxMclr g x) g x s v t → busyMask t.mx &&& fld v 0 8 = 0 →
      ∃ t', GoesTo (.mxMclr g x) s t' ∧ { t' with mx := t.mx } = t ∧
        ∀ a r c, a < 8 → r < 64 → c < 64 → accAt t'.mx a r c = if bit v a then 0 else accAt t.mx a r c) ∧
    (∀ g x s v t0 ops t, Fires (.mxMacw g x) g x s v t0 → Takes t0 8 14 x [0] ops t →
      let d := vecWord v
      mxCheck t (mxOpOf t 14 1 v) = none → busyMask t.mx &&& windowMask d = 0 →
      ∃ t', GoesTo (.mxMacw g x) s t' ∧ { t' with mx := t.mx } = t ∧
        ∀ a r c, a < 8 → r < 64 → c < 64 → accAt t'.mx a r c =
          if bit d 17 then
            (if (a = fld d 0 3 ∨ a = fld d 0 3 + 1) ∧ r = fld d 4 6 ∧ c / 16 = fld d 11 2 then
              BitVec.ofNat 32 (fld (opAt ops 0) (64 * (c % 16) + 32 * (a - fld d 0 3)) 32) else accAt t.mx a r c)
          else if a = fld d 0 3 ∧ r = fld d 4 6 ∧ c / 32 = fld d 10 1 then
            BitVec.ofNat 32 (fld (opAt ops 0) (32 * (c % 32)) 32) else accAt t.mx a r c) ∧
    ∀ g x s v t, Fires (.mxMread g x) g x s v t →
      let d := vecWord v
      mxCheck t (mxOpOf t 13 1 v) = none → busyMask t.mx &&& windowMask d = 0 → Room t 8 13 [0] →
      ∃ t' r, GoesTo (.mxMread g x) s t' ∧ t'.mx.reads = t.mx.reads ++ [r] ∧ r.rem = 4 ∧ r.val = windowValue t.mx d ∧
        (portOf (sockOf t' 8) 0).fifo = (portOf (sockOf t 8) 0).fifo ++ [{ due := .waits r.serial, val := 0, narrowed := none }] ∧
        { t' with mx := t.mx, socks := t.socks, serial := t.serial } = t ∧
        ∀ a r c, a < 8 → r < 64 → c < 64 → accAt t'.mx a r c =
          if bit d 16 ∧ r = fld d 4 6 ∧ (if bit d 17 then (a = fld d 0 3 ∨ a = fld d 0 3 + 1) ∧ c / 16 = fld d 11 2
            else a = fld d 0 3 ∧ c / 32 = fld d 10 1) then 0 else accAt t.mx a r c) ∧
  ((∀ g x s v t, Fires (.mxMclr g x) g x s v t → busyMask t.mx &&& fld v 0 8 ≠ 0 → Freezes (.mxMclr g x) s) ∧
  (∀ g x s v t0 ops t, Fires (.mxMacw g x) g x s v t0 → Takes t0 8 14 x [0] ops t →
    (∀ c, mxCheck t (mxOpOf t 14 1 v) = some c → Faults (.mxMacw g x) s (mkFault c 8 14 1 0)) ∧
    (mxCheck t (mxOpOf t 14 1 v) = none → busyMask t.mx &&& windowMask (vecWord v) ≠ 0 → Freezes (.mxMacw g x) s)) ∧
  ∀ g x s v t, Fires (.mxMread g x) g x s v t →
    (∀ c, mxCheck t (mxOpOf t 13 1 v) = some c → Faults (.mxMread g x) s (mkFault c 8 13 1 0)) ∧
    (mxCheck t (mxOpOf t 13 1 v) = none → busyMask t.mx &&& windowMask (vecWord v) ≠ 0 → Freezes (.mxMread g x) s))

/-- The qnt operations qntQnt, qntQflush, qntQrange and qntQthr (`qntQueued`). Each runs to a next state in which it has joined the queue, qflush
with a place on y0, y1 and y2; with four there it freezes; a failed check faults (R200-R206). When they run, qthr sets threshold, format and
streams; qrange appends a bound per interval lane; qnt appends its lanes; qflush closes the block, pads the three units and leaves the
quantiser empty (R202, R203, R205, R206). -/
def Obligations.QuantiserOperations : Prop :=
  (∀ i g x code s v t0 ops t, Fires i g x s v t0 → qntQueued i = some code →
      Takes t0 9 code x (if code = 8 ∨ code = 10 then [0] else []) ops t →
      let o : QntOp := { code := code, a := if code = 8 ∨ code = 10 then vecWord (opAt ops 0) else 0, b := v, vf := fmtOf t 0, slot := 1,
                         serial := t.serial }
      (qntCheck t o = none → t.qnt.queue.length < 4 → Room t 9 code (if code = 9 then [0, 1, 2] else []) →
        ∃ t', GoesTo i s t' ∧ t'.qnt = { t.qnt with queue := t.qnt.queue ++ [o] } ∧
          (code ≠ 9 → { t' with qnt := t.qnt } = t) ∧
          (code = 9 → t'.serial = t.serial + 1 ∧ { t' with qnt := t.qnt, serial := t.serial, socks := t.socks } = t ∧
            ∀ y, (portOf (sockOf t' 9) y).fifo = (portOf (sockOf t 9) y).fifo ++
              if y ∈ [0, 1, 2] then [{ due := .waits t.serial, val := 0, narrowed := none }] else [])) ∧
      (qntCheck t o = none → 4 ≤ t.qnt.queue.length → Freezes i s) ∧
      ∀ c, qntCheck t o = some c → Faults i s (mkFault c 9 code 1 0)) ∧
  (∀ (q : Quant) (o : QntOp),
      (o.code = 11 → qntEffect q o = { q with last := (o.code, o.slot), tau := fld o.b 0 5, t6 := bit o.b 8, fe := fld o.b 12 4,
                                              fb := fld o.b 16 4, fs := fld o.b 20 4, configured := true }) ∧
      (o.code = 10 → ∀ n, n = fld o.a 0 5 → (qntEffect q o).ranges = q.ranges ++ (List.range n).map fun l => rangeOf (ivlLane o.b l)) ∧
      (o.code = 8 → (qntEffect q o).elems = q.elems + fld o.a 0 7) ∧
      (o.code = 9 → ∃ f, (qntEffect q o).flush = some f ∧ f.serial = o.serial ∧ f.rem = 4 ∧ f.elems = q.elems ∧
        f.blocks = q.blocks + (if q.pending = [] then 0 else 1) ∧ q.sat ≤ f.sat ∧ f.sat ≤ q.sat + q.pending.length ∧
        (qntEffect q o).elems = 0 ∧ (qntEffect q o).blocks = 0 ∧ (qntEffect q o).sat = 0 ∧ (qntEffect q o).ranges = [] ∧
        (qntEffect q o).pending = [] ∧ (qntEffect q o).codes.len = 0 ∧ (qntEffect q o).marks.len = 0 ∧ (qntEffect q o).scales.len = 0))

/-- An element access of lw0 or lw1 (lwLd, lwSt, lwLdx, lwStx; `lwElement`) whose offset, with the index added in units of its size modulo
2^64, is a multiple of its size runs to a next state in which it has joined its socket's queue: a store with its data, a load with a place on
y0; with eight in flight it freezes, and a misaligned one faults with cause 16 (R224-R226). Nothing else changes. -/
def Obligations.LocalElements : Prop :=
  ∀ (n : Bool) i g x code s v t0 ops t, Fires i g x s v t0 → lwElement i = some (n, code) →
    Takes t0 (lwSock n) code x (if code = 8 then [] else if code = 11 then [0, 1] else [0]) ops t →
    let w := vecWord v
    let size := 2 ^ fld w 13 3
    let index := if code = 10 then (vecWord (opAt ops 0)).toNat else if code = 11 then (vecWord (opAt ops 1)).toNat else 0
    let off := (fld w 16 32 + index * size) % 2 ^ 64
    let load := decide (code = 8 ∨ code = 10)
    (off % size = 0 → lwInFlight t (lwSock n) < 8 → Room t (lwSock n) code (if load then [0] else []) →
      ∃ t' a, GoesTo i s t' ∧ (∀ k, tget [] t'.lw k = if k = lwSock n then tget [] t.lw k ++ [a] else tget [] t.lw k) ∧
        a.code = code ∧ a.word = w ∧ a.off = off ∧ (code = 9 ∨ code = 11 → a.data = opAt ops 0) ∧ a.rows = rowsOf off size ∧
        a.serial = t.serial ∧ t'.serial = t.serial + 1 ∧
        (∀ k y, (portOf (sockOf t' k) y).fifo = (portOf (sockOf t k) y).fifo ++
          if load ∧ k = lwSock n ∧ y = 0 then [{ due := .waits t.serial, val := 0, narrowed := none }] else []) ∧
        { t' with lw := t.lw, serial := t.serial, socks := t.socks } = t) ∧
    (off % size = 0 → 8 ≤ lwInFlight t (lwSock n) → Freezes i s) ∧
    (off % size ≠ 0 → Faults i s
      { mkFault 16 (lwSock n) code 1 (off % 2 ^ 32) with addr := handleWord (fld w 0 10) (fld w 13 3) off })

/-- The list accesses lwGath and lwScat (`lwList`) run to a next state in which they have joined their socket's queue with one bank row for each
distinct row of their lanes, in the size and at the base their control word gives; an element of more than 16 bytes is reserved, and a
misaligned base faults. lwSeal and lwRelease (`lwState`) run to a next state in which they have joined it with their handle alone. With eight
in flight all of them freeze (R226-R228). -/
def Obligations.LocalLists : Prop :=
  (∀ (n : Bool) i g x code s v t0 ops t, Fires i g x s v t0 → lwList i = some (n, code) →
    Takes t0 (lwSock n) code x (if code = 16 then [0] else [0, 1]) ops t →
    let w := vecWord v
    let size := 2 ^ fld w 13 3
    let off := fld w 16 32
    let idx := if code = 16 then opAt ops 0 else opAt ops 1
    (fld w 13 3 ≤ 4 → off % size = 0 → lwInFlight t (lwSock n) < 8 → Room t (lwSock n) code (if code = 16 then [0] else []) →
      ∃ t' a, GoesTo i s t' ∧ (∀ k, tget [] t'.lw k = if k = lwSock n then tget [] t.lw k ++ [a] else tget [] t.lw k) ∧
        a.code = code ∧ a.word = w ∧ a.off = off ∧ a.idx = idx ∧ (code = 17 → a.data = opAt ops 0) ∧ a.serial = t.serial ∧
        (listLanes size idx ≠ [] → a.rows.Nodup ∧ ∀ r, r ∈ a.rows ↔ ∃ q ∈ listLanes size idx, r = (off + q.2 * size) / 64) ∧
        (∀ k y, (portOf (sockOf t' k) y).fifo = (portOf (sockOf t k) y).fifo ++
          if code = 16 ∧ k = lwSock n ∧ y = 0 then [{ due := .waits t.serial, val := 0, narrowed := none }] else []) ∧
        { t' with lw := t.lw, serial := t.serial, socks := t.socks } = t) ∧
    (fld w 13 3 ≤ 4 → off % size = 0 → 8 ≤ lwInFlight t (lwSock n) → Freezes i s) ∧
    (4 < fld w 13 3 → Faults i s (mkFault 1 (lwSock n) code 1 0)) ∧
    (fld w 13 3 ≤ 4 → off % size ≠ 0 → Faults i s
      { mkFault 16 (lwSock n) code 1 off with addr := handleWord (fld w 0 10) (fld w 13 3) off })) ∧
  ∀ (n : Bool) i g x code s v t, Fires i g x s v t → lwState i = some (n, code) →
    (8 ≤ lwInFlight t (lwSock n) → Freezes i s) ∧
    (lwInFlight t (lwSock n) < 8 → Room t (lwSock n) code [] →
      ∃ t' a, GoesTo i s t' ∧ (∀ k, tget [] t'.lw k = if k = lwSock n then tget [] t.lw k ++ [a] else tget [] t.lw k) ∧
        a.code = code ∧ a.h = fld v 0 10 ∧ a.rows = [] ∧ a.serial = t.serial ∧ { t' with lw := t.lw, serial := t.serial } = t)

/-- bind puts a fresh stream of its control word in its register, with nothing transferred: the handle, direction, element size, counts and signed
strides of the used dimensions, and the base. It freezes while an operation holds the stream, faults with cause 18 where the stream is bound, and
with cause 1 where a used count is 0. unbind removes the stream and sends y0, two cycles later, the number of elements: those read, or those stored
(R181, R229, R232). Completes, as an equation of exec with a next state: lwBind, lwUnbind. -/
def Obligations.StreamBinding : Prop :=
  (∀ (n : Bool) g x s v t0 ops t, Fires (.lwBind g x n) g x s v t0 → Takes t0 (lwSock n) 12 x [0, 1, 2] ops t →
    let w := vecWord v
    let f := fld w 0 4
    let dims := fld w 8 2 + 1
    let counts := (List.range dims).map fun k => fld (opAt ops 0) (16 * k) 16
    let held := streamHeld t0 f || ttHolds t0 (fld w 16 10) t0.serial
    (0 ∉ counts → held = false → tfind t0.streams f = none →
      ∃ t' st, GoesTo (.lwBind g x n) s t' ∧ tfind t'.streams f = some st ∧ st.h = fld w 16 10 ∧ st.write = bit w 4 ∧ st.esz = fld w 5 3 ∧
        st.counts = counts ∧ st.strides = (List.range dims).map (fun k => sintOf 16 (fld (opAt ops 1) (16 * k) 16)) ∧
        st.base = fld (opAt ops 2) 0 32 ∧ st.buf = [] ∧ st.coming = [] ∧ st.moved = 0 ∧ st.unit = 0 ∧ st.stopped = false ∧
        (∀ k, k ≠ f → tfind t'.streams k = tfind t.streams k) ∧ { t' with streams := t.streams } = t) ∧
    (0 ∈ counts → Faults (.lwBind g x n) s (mkFault 1 (lwSock n) 12 1 0)) ∧
    (0 ∉ counts → held = true → Freezes (.lwBind g x n) s) ∧
    (0 ∉ counts → held = false → tfind t0.streams f ≠ none → Faults (.lwBind g x n) s (mkFault 18 (lwSock n) 12 1 f))) ∧
  ∀ (n : Bool) g x s v t, Fires (.lwUnbind g x n) g x s v t →
    let f := fld v 0 4
    (tfind t.streams f = none → Faults (.lwUnbind g x n) s (mkFault 18 (lwSock n) 13 1 f)) ∧
    ∀ st, tfind t.streams f = some st →
      (streamHeld t f = true ∨ (st.write = true ∧ st.stopped = false ∧ st.buf ≠ []) → Freezes (.lwUnbind g x n) s) ∧
      (streamHeld t f = false → (st.write = false ∨ st.stopped = true ∨ st.buf = []) → Room t (lwSock n) 13 [0] →
        ∃ t', GoesTo (.lwUnbind g x n) s (deliver t' (lwSock n) 13 0 2 (toVec (if st.write then st.unit else st.moved)) none) ∧
          tfind t'.streams f = none ∧ (∀ k, k ≠ f → tfind t'.streams k = tfind t.streams k) ∧
          { t' with streams := t.streams, gm := t.gm } = t)

/-- The states of a tracked handle are those of R213's table: which events it takes and the state after each, release starting the count
anew; a refused event changes nothing; a plain handle takes every event and keeps no state. -/
def Obligations.HandleStates : Prop :=
  (∀ c, hstep ⟨0, c⟩ .write = some ⟨1, c⟩ ∧ hstep ⟨1, c⟩ .write = some ⟨1, c⟩ ∧ hstep ⟨2, c⟩ .write = none ∧ hstep ⟨3, c⟩ .write = none ∧
    hstep ⟨0, c⟩ .read = none ∧ hstep ⟨1, c⟩ .read = none ∧ hstep ⟨2, c⟩ .read = some ⟨3, c⟩ ∧ hstep ⟨3, c⟩ .read = some ⟨3, c⟩ ∧
    hstep ⟨0, c⟩ .seal = some ⟨2, c⟩ ∧ hstep ⟨1, c⟩ .seal = some ⟨2, c⟩ ∧ hstep ⟨2, c⟩ .seal = none ∧ hstep ⟨3, c⟩ .seal = none ∧
    hstep ⟨0, c⟩ .release = none ∧ hstep ⟨1, c⟩ .release = none ∧ hstep ⟨2, c⟩ .release = some ⟨0, 0⟩ ∧
    hstep ⟨3, c⟩ .release = some ⟨0, 0⟩) ∧
  ∀ (s : State) (e : Entry) (ev : HEvent),
    (e.tracked = false → handleEvent s e ev = some s) ∧
    (e.tracked = true → ∀ h, hstep (hstateOf s e) ev = some h → ∃ s', handleEvent s e ev = some s' ∧ hstateOf s' e = h ∧
      (∀ e', storeKey e' ≠ storeKey e → hstateOf s' e' = hstateOf s e') ∧ { s' with dev := { s'.dev with hstate := s.dev.hstate } } = s) ∧
    (e.tracked = true → hstep (hstateOf s e) ev = none → handleEvent s e ev = none)

/-- At storage: a store that no poisoned word refuses writes exactly its bytes, little-endian, at its handle's place, and every other byte
of that storage and of every other stays; a load of the same bytes gives them back; a store that covers part of a poisoned word only is refused (R3,
R212, R221, R225). -/
def Obligations.StorageAccesses : Prop :=
  ∀ (s : State) (sp off n v : Nat),
    (poisonPart (spacePoison s sp) 8 off n = false →
      ∃ s', spaceWrite s sp off (leBytes n v) = some s' ∧
        (∀ a, mget (spaceMem s' sp) a = if off ≤ a ∧ a < off + n then BitVec.ofNat 8 (v / 256 ^ (a - off)) else mget (spaceMem s sp) a) ∧
        (∀ q, (q ≠ sp ∧ (q < 10000 ∨ sp < 10000)) → spaceMem s' q = spaceMem s q) ∧
        (spaceRead s' sp off n).1 = leBytes n v ∧ leNat (spaceRead s' sp off n).1 = v % 256 ^ n ∧
        s'.cur.regs = s.cur.regs ∧ s'.cur.csr = s.cur.csr ∧ s'.cur.socks = s.cur.socks ∧ s'.cur.table = s.cur.table ∧
        s'.dev.mem = s.dev.mem ∧ s'.dev.hstate = s.dev.hstate ∧ s'.peers = s.peers) ∧
    (poisonPart (spacePoison s sp) 8 off n = true → spaceWrite s sp off (leBytes n v) = none)

/-- The tt operations ttHalloc, ttHfree, ttHstate, ttHset and ttHinfo (`ttQueued`). Each runs to a next state in which it has joined the queue with
its operands and its place on y0, and takes effect when it may; hset at user privilege is a privilege fault, a reserved value an illegal
encoding (R47, R355-R357). Taking effect, hstate answers the state word, hinfo shape, size or state, hset writes or clears an entry, hfree clears
one that nothing uses and refuses others with a late fault, halloc makes the entry it plans, whose rows are then zeroed, or answers why not; every
other entry stays (R215, R356, R357). -/
def Obligations.TileTableOperations : Prop :=
  (∀ i g x code s v t0 ops t, Fires i g x s v t0 → ttQueued i = some code →
      Takes t0 17 code x (if code = 8 then [0] else if code = 11 then [0, 1] else []) ops t →
      let a := if code = 8 ∨ code = 11 then vecWord (opAt ops 0) else 0
      let c := if code = 11 then vecWord (opAt ops 1) else 0
      let answers := decide (code ∈ [8, 10, 12])
      ((code = 11 → isSystem t0 = true) → ttIllegal (withTile s t0) code a c (vecWord v) = false →
        Room t0 17 code (if answers then [0] else []) →
        ∃ t', exec i s = .next (serveTt t'.tt.length (withTile s t')) ∧
          t'.tt = t.tt ++ [{ code := code, a := a, c := c, b := vecWord v, serial := t.serial, slot := 1 }] ∧
          (∀ k y, (portOf (sockOf t' k) y).fifo = (portOf (sockOf t k) y).fifo ++
            if answers ∧ k = 17 ∧ y = 0 then [{ due := .waits t.serial, val := 0, narrowed := none }] else []) ∧
          t'.serial = t.serial + 1 ∧ { t' with tt := t.tt, serial := t.serial, socks := t.socks } = t) ∧
      (code = 11 → isSystem t0 = false → Faults i s (mkFault 2 17 11 1 0)) ∧
      ((code = 11 → isSystem t0 = true) → ttIllegal (withTile s t0) code a c (vecWord v) = true → Faults i s (mkFault 1 17 code 1 0))) ∧
  (∀ (o : TtOp) (s : State),
      let h := fld o.b 0 10
      (o.code = 10 → ttEffect o s = withTile s (answer s.cur 17 o.serial 2 (toVec (hstateValue s h)))) ∧
      (tfind s.cur.table h = none → hstateValue s h = 0) ∧
      (∀ e, tfind s.cur.table h = some e →
        hstateValue s h = if e.tracked then (hstateOf s e).st + 4 + 8 + (hstateOf s e).count * 65536 else 8) ∧
      (o.code = 12 → ttEffect o s = withTile s (answer s.cur 17 o.serial 2 (toVec (match tfind s.cur.table h with
        | none => 0
        | some e => if fld o.b 20 2 = 0 then shapeWord e else if fld o.b 20 2 = 1 then e.size else hstateValue s h)))) ∧
      (o.code = 11 → bit o.b 19 = false →
        ∀ k, tfind (ttEffect o s).cur.table k = if k = h then none else tfind s.cur.table k) ∧
      (o.code = 11 → bit o.b 19 = true → ∀ q, storageOf s (handleLevel h) o.c (shapeSize o.a) = some q →
        (∀ k, tfind (ttEffect o s).cur.table k =
          if k = h then some (mkEntry (handleLevel h) q.1 q.2 o.a (bit o.b 16)) else tfind s.cur.table k) ∧
        (bit o.b 16 = true → hstateOf (ttEffect o s) (mkEntry (handleLevel h) q.1 q.2 o.a (bit o.b 16)) = ⟨fld o.b 17 2, 0⟩)) ∧
      (o.code = 9 → ∀ e, tfind s.cur.table h = some e →
        (e.tracked = false ∨ ((hstateOf s e).st ≠ 1 ∧ (hstateOf s e).st ≠ 3)) → (∀ x ∈ s.cur.streams, x.2.h ≠ h) → copyNames s.cur h = false →
        ∀ k, tfind (ttEffect o s).cur.table k = if k = h then none else tfind s.cur.table k) ∧
      (o.code = 9 → (tfind s.cur.table h = none ∨ ∃ e, tfind s.cur.table h = some e ∧ e.tracked = true ∧
          ((hstateOf s e).st = 1 ∨ (hstateOf s e).st = 3)) →
        (ttEffect o s).cur.table = s.cur.table ∧ (ttEffect o s).cur.ctl.late = s.cur.ctl.late ++
          [{ mkFault 15 17 9 o.slot h with late := true, addr := BitVec.ofNat 64 h }]) ∧
      (o.code = 8 → ∀ p e, hallocPlan s o = (p, 0, some e) →
        (∀ k, tfind (ttEffect o s).cur.table k = if k = p then some e else tfind s.cur.table k) ∧
        (ttEffect o s).cur.zero = s.cur.zero ++ [{ h := p, entry := e, left := List.range (e.size / 64), serial := o.serial, fresh := true }]) ∧
      (o.code = 8 → ∀ p st, hallocPlan s o = (p, st, none) →
        ttEffect o s = withTile s (answer s.cur 17 o.serial 2 (toVec (p + st * 65536)))))

/-- gmLd, gmSt, gmLdacq, gmStrel, gmLdv, gmStv, gmAmo, gmCas, gmFred, gmFredrd, gmFredclr, gmFence, gmGath, gmScat: with no reserved value, aligned,
with room among the 64 accesses in flight for one more (for each lane of a gath or scat one) and every lane translated, the trigger joins the
accesses in flight, one request for each access, in lane order and with rising serials, with its control word, operands and translated lanes (a
fence with the elements written to each write stream), and takes a place on y0 unless it is a store or a fred; the memory is reached later, in
the order of R259. A reserved value faults with cause 1, a misaligned address with cause 16, a lane without a translation with that cause at the
trigger, and without room the bundle freezes (R218, R223, R233-R241, R243). -/
def Obligations.GlobalTriggers : Prop :=
  ∀ i g x code s v t0 ops t, Fires i g x s v t0 → gmQueued i = some code →
    Takes t0 13 code x (if code ∈ [15, 21] then [0, 1] else if code ∈ [9, 11, 13, 14, 16, 20] then [0] else []) ops t →
    let w := vecWord v
    let targets := gmTargets code w (opAt ops (if code = 21 then 1 else 0))
    let posted := decide (code ∈ [9, 11, 13, 16, 21])
    let needs := (t0.gm.filter fun e => !e.isFence).length + (laneGroups code targets).length
    let lanesAt := gmLanes code 1 (decide (code ∉ [9, 11, 13, 21])) (decide (code ∉ [8, 10, 12, 20])) targets (withTile s t)
    (gmIllegal code w = false → gmMisaligned code w targets = none → (code = 19 ∨ needs ≤ 64) → Room t0 13 code (if posted then [] else [0]) →
      (∀ lanes s1, lanesAt = .ok (lanes, s1) →
        ∃ t' rs, exec i s = .next (withTile s1 t') ∧ t'.gm = s1.cur.gm ++ rs ∧
          rs.map GmReq.lanes = laneGroups code (if code = 19 then (t0.streams.filter fun e => e.2.write).map fun e => (e.1, e.2.moved) else lanes) ∧
          (∀ n r, rs[n]? = some r → r.code = code ∧ r.word = w ∧ r.a = opAt ops 0 ∧ r.c = opAt ops 1 ∧ r.serial = s1.cur.serial + n ∧
            r.group = s1.cur.serial ∧ r.performed = false ∧ r.part = 0 ∧ r.reply = 0) ∧
          (∀ k y, (portOf (sockOf t' k) y).fifo = (portOf (sockOf s1.cur k) y).fifo ++
            if posted = false ∧ k = 13 ∧ y = 0 then [{ due := .waits s1.cur.serial, val := 0, narrowed := none }] else []) ∧
          t'.serial = s1.cur.serial + rs.length ∧
          (bit t.csr.status 7 = false → t'.checked = s1.cur.checked) ∧ t'.regs = t.regs ∧ t'.csr = t.csr ∧ t'.streams = t.streams ∧
          s1.dev.mem = s.dev.mem ∧ s1.dev.cells = s.dev.cells ∧ s1.peers = s.peers) ∧
      (∀ f, lanesAt = .fault f → Faults i s f) ∧ (lanesAt = .freeze → Freezes i s)) ∧
    (gmIllegal code w = true → Faults i s (mkFault 1 13 code 1 0)) ∧
    (gmIllegal code w = false → ∀ a, gmMisaligned code w targets = some a →
      Faults i s { mkFault 16 13 code 1 (a % 2 ^ 32) with addr := BitVec.ofNat 64 a }) ∧
    (gmIllegal code w = false → gmMisaligned code w targets = none → code ≠ 19 → 64 < needs → Freezes i s)

/-- At the home. One lane or piece of an access, at its place in the value: a load answers the bytes; a store writes its bytes; amo answers the old
bytes and writes f(old, a); cas writes only where they equal a; every other byte stays (R235-R238, R240). An address that the home refuses answers
its status (7 where it lies behind an aqueduct and the access reads) and changes nothing; a poisoned load answers status 3 (R11, R221). fredclr
puts a cleared cell; fred adds its lane and counts it, or is refused with status 4 where there is no cell; fredrd answers the sum, or the
canonical NaN where a parity error stands, which is logged and goes with the read, and with its clear bit gives the cell up; memory and other
cells stay (R68, R69, R221, R241). -/
def Obligations.AccessesAtHome : Prop :=
  (∀ (s : State) (ctx : Nat) (r : GmReq) (p pa : Nat), r.lanes = [(p, pa)] → r.isRed = false → r.isFence = false → ownAddr s pa = true →
      let n := r.lenOf (p, pa)
      let pos := r.posOf (p, pa)
      let old := leNat (memRead s pa n)
      let same := fun (s' : State) => ∀ a, (a < pa ∨ pa + n ≤ a) → mget s'.dev.mem a = mget s.dev.mem a
      (addrStatus s pa ≠ 0 → ∃ st k, performAt s ctx r = (st, 0, [(pa, k, st)], s) ∧
        st = if r.posted = false ∧ addrStatus s pa = 5 then 7 else addrStatus s pa) ∧
      (addrStatus s pa = 0 → memPoisoned s pa n = true → r.posted = false → ∃ k, performAt s ctx r = (3, 0, [(pa, k, 3)], s)) ∧
      (addrStatus s pa = 0 → memPoisoned s pa n = false →
        (r.code ∈ [8, 10, 12, 20] → performAt s ctx r = (0, toVec (old * 2 ^ (8 * pos)), [], s)) ∧
        (r.code ∈ [9, 11, 13, 21] → ∃ s', performAt s ctx r = (0, 0, [], s') ∧
          memRead s' pa n = leBytes n (fld r.a (8 * pos) (8 * n)) ∧ same s' ∧ s'.cur = s.cur ∧ s'.dev.cells = s.dev.cells) ∧
        (p = 0 → n = r.size → r.code = 14 → ∃ s', performAt s ctx r = (0, toVec old, [], s') ∧
          memRead s' pa n = leBytes n (amoValue (gmFx r.word) n old (fld r.a 0 (8 * n))) ∧ same s' ∧ s'.cur = s.cur) ∧
        (p = 0 → n = r.size → r.code = 15 → ∃ s', performAt s ctx r = (0, toVec old, [], s') ∧
          (old = fld r.a 0 (8 * n) → memRead s' pa n = leBytes n (fld r.c 0 (8 * n)) ∧ same s') ∧
          (old ≠ fld r.a 0 (8 * n) → s' = s) ∧ s'.cur = s.cur))) ∧
  (∀ (s : State) (ctx pa : Nat) (w : Word) (a : Vec), addrStatus s pa = 0 →
      (cellsUsed s pa + 1 ≤ 2 ^ 18 → ∃ s', performRed s 18 ctx w a [(0, pa)] = (0, 0, [], s') ∧
        cellOf s' ctx pa = some (freshCell ctx pa) ∧ s'.dev.mem = s.dev.mem ∧ s'.cur = s.cur ∧
        ∀ c b, (c ≠ ctx ∨ b ≠ pa) → cellOf s' c b = cellOf s c b) ∧
      (cellOf s ctx pa = none → performRed s 16 ctx w a [(0, pa)] = (4, 0, [(pa, 4, 4)], s) ∧
        performRed s 17 ctx w a [(0, pa)] = (4, 0, [(pa, 4, 4)], s)) ∧
      ∀ c, cellOf s ctx pa = some c →
        (∀ m n e, decodeFloat (gmSz w) (lane (floatBits (gmSz w)) 0 a) = .fin n m e → c.count.toNat ≠ 2 ^ 40 - 1 →
          ∃ s', performRed s 16 ctx w a [(0, pa)] = (0, 0, [], s') ∧
            cellOf s' ctx pa = some { c with val := c.val + BitVec.ofInt 320 (scaledInt n m e (-149)), count := c.count + 1 } ∧
            s'.dev.mem = s.dev.mem ∧ s'.cur = s.cur ∧ ∀ d b, (d ≠ ctx ∨ b ≠ pa) → cellOf s' d b = cellOf s d b) ∧
        ∃ s', performRed s 17 ctx w a [(0, pa)] = (0, packLanes (floatBits (gmSz w)) [cellRead (gmSz w) c],
            if c.parity then [(pa, 4, 3)] else [], s') ∧
          cellOf s' ctx pa = (if bit w 55 then none else some { c with parity := false }) ∧ s'.dev.mem = s.dev.mem ∧ s'.cur = s.cur ∧
          ∀ d b, (d ≠ ctx ∨ b ≠ pa) → cellOf s' d b = cellOf s d b)

/-- cpCopy, cpCstat, cpCcancel, cpPrefetch. copy with a legal descriptor joins the tile's copies with nothing moved, its handles resolved, in the
queue of a pump of its cluster that has room (which pump: log 15), and counts as sent; it faults on a reserved descriptor and freezes with 1024 in
flight, behind a tt operation on its handles, or where every pump's queue holds its 64 (R269). cstat answers the copies in flight, or the bytes, the
poisoned words and the state of its tag's copy. ccancel ends every copy of its tag and answers how many. prefetch may only fill the cache of
translations (R246, R252-R254, R269). -/
def Obligations.CopyTriggers : Prop :=
  ∀ g x s v t,
    (Fires (.cpCopy g x) g x s v t →
      (copyIllegal v = true → Faults (.cpCopy g x) s (mkFault 1 14 8 1 0)) ∧
      (copyIllegal v = false → 1024 ≤ t.copies.length → Freezes (.cpCopy g x) s) ∧
      (copyIllegal v = false → t.copies.length < 1024 → (∀ w ∈ [copySrc v, copyDst v], bit w 63 = true → ttHolds t (fld w 0 10) t.serial = false) →
        (choosePump (withTile s t) = none → Freezes (.cpCopy g x) s) ∧
        ∀ p, choosePump (withTile s t) = some p →
          ∃ t' c, GoesTo (.cpCopy g x) s t' ∧ t'.copies = t.copies ++ [c] ∧ c.desc = v ∧ c.serial = t.serial ∧ c.done = 0 ∧ c.bytes = 0 ∧
            c.poi = 0 ∧ c.parked = none ∧ c.finished = false ∧ c.pump = p ∧ c.buf = [] ∧ c.put = 0 ∧ c.rows = none ∧
            c.src = (if bit (copySrc v) 63 then tfind t.table (fld (copySrc v) 0 10) else none) ∧
            c.dst = (if bit (copyDst v) 63 then tfind t.table (fld (copyDst v) 0 10) else none) ∧
            t'.net.sent = t.net.sent + 1 ∧ t'.serial = t.serial + 1 ∧
            { t' with copies := t.copies, net := t.net, serial := t.serial } = t) ∧
      (copyIllegal v = false → t.copies.length < 1024 → (∃ w ∈ [copySrc v, copyDst v], bit w 63 = true ∧ ttHolds t (fld w 0 10) t.serial = true) →
        Freezes (.cpCopy g x) s)) ∧
    (Fires (.cpCstat g x) g x s v t → Room t 14 9 [0] → ∃ r, GoesTo (.cpCstat g x) s (deliver t 14 9 0 2 r none) ∧
      (bit (vecWord v) 16 = true → r = toVec t.copies.length) ∧
      (bit (vecWord v) 16 = false → (∀ c ∈ t.copies, copyTag c.desc ≠ fld (vecWord v) 0 16) → r = 0) ∧
      (bit (vecWord v) 16 = false → ∀ c, t.copies.find? (fun c => decide (copyTag c.desc = fld (vecWord v) 0 16)) = some c →
        r = toVec (c.bytes % 2 ^ 40 * 2 ^ 24 + min c.poi 255 * 2 ^ 16 + if c.parked.isSome then 2 else 1))) ∧
    (Fires (.cpCcancel g x) g x s v t → Room t 14 10 [0] →
      let hit := t.copies.filter fun c => decide (copyTag c.desc = fld v 0 16)
      ∃ t', GoesTo (.cpCcancel g x) s (deliver t' 14 10 0 2 (toVec hit.length) none) ∧
        t'.copies = (t.copies.filter fun c => decide (∀ d ∈ hit, c.serial ≠ d.serial)) ∧
        t'.net.received = t.net.received + BitVec.ofNat 48 hit.length ∧
        { t' with copies := t.copies, net := t.net, checked := t.checked } = t) ∧
    (∀ ops t1, Fires (.cpPrefetch g x) g x s v t → Takes t 14 11 x [0] ops t1 →
      let n := fld (opAt ops 0) 0 64
      (1 ≤ n → n ≤ 2 ^ 20 → ∃ wk ds, exec (.cpPrefetch g x) s =
        .next (withTile { s with dev := { s.dev with dies := ds } } { t1 with walk := wk }) ∧
        (ds.map fun d => { d with walk := [] }) = s.dev.dies.map fun d => { d with walk := [] }) ∧
      (n = 0 ∨ 2 ^ 20 < n → Faults (.cpPrefetch g x) s (mkFault 1 14 11 1 0)))

/-- netSend, netSendm, netPsend, netQcnt. send and sendm put their value on its way through their circuit, sendm to every member of its block; a circuit that
is absent or of the other kind faults with cause 23 and its number, and a fifth unsent value freezes. psend puts its value on its way to its
tile or block of its part's grid; qcnt answers how many elements stand in a queue and its spillway, or in the completion queue (R291, R293,
R294, R299). -/
def Obligations.NetTriggers : Prop :=
  (∀ (multi : Bool) i g x s v t0 ops t, i = (if multi then .netSendm g x else .netSend g x) → Fires i g x s v t0 →
    Takes t0 15 (if multi then 9 else 8) x [0] ops t →
    let n := fld v 0 6
    (t0.net.circuits.find? (fun k => k.id == n) = none → Faults i s (mkFault 23 15 (if multi then 9 else 8) 1 n)) ∧
    ∀ k, t0.net.circuits.find? (fun k => k.id == n) = some k →
      (k.multi ≠ multi → Faults i s (mkFault 23 15 (if multi then 9 else 8) 1 n)) ∧
      (k.multi = multi → 4 ≤ (t0.net.out.filter fun e => decide (e.circuit = some n) && !e.sent).length → Freezes i s) ∧
      (k.multi = multi → (t0.net.out.filter fun e => decide (e.circuit = some n) && !e.sent).length < 4 →
        ∃ t' e, GoesTo i s t' ∧ t'.net.out = t.net.out ++ [e] ∧ e.val = opAt ops 0 ∧ e.q = k.q ∧ e.ui = k.ui ∧ e.circuit = some n ∧
          e.sent = false ∧ e.fresh = true ∧ e.serial = t.serial ∧ t'.serial = t.serial + 1 ∧
          e.dsts = ((if multi then block k.row k.col (2 ^ k.lh) (2 ^ k.lw) else [(k.row, k.col)]).map fun q =>
            memberTile (withTile s t0) t0.place.part q.1 q.2) ∧
          t'.net.sent = t.net.sent + BitVec.ofNat 48 e.dsts.length ∧
          { t' with net := t.net, serial := t.serial, checked := t.checked } = t)) ∧
  (∀ g x s v t0 ops t, Fires (.netPsend g x) g x s v t0 → Takes t0 15 10 x [0] ops t →
    let w := vecWord v
    (bit w 28 = true → 4 < fld w 13 3 ∨ 4 < fld w 10 3 → Faults (.netPsend g x) s (mkFault 1 15 10 1 0)) ∧
    ((bit w 28 = true → fld w 13 3 ≤ 4 ∧ fld w 10 3 ≤ 4) →
      (packetIllegal t0 w = true → Faults (.netPsend g x) s (mkFault 12 15 10 1 0)) ∧
      (packetIllegal t0 w = false → 8 ≤ (t0.net.out.filter fun e => e.circuit.isNone && e.place.isNone).length → Freezes (.netPsend g x) s) ∧
      (packetIllegal t0 w = false → (t0.net.out.filter fun e => e.circuit.isNone && e.place.isNone).length < 8 →
        ∃ t' e, GoesTo (.netPsend g x) s t' ∧ t'.net.out = t.net.out ++ [e] ∧ e.val = opAt ops 0 ∧ e.q = fld w 26 2 ∧ e.ui = bit w 29 ∧
          e.circuit = none ∧ e.sent = false ∧ e.serial = t.serial ∧ t'.serial = t.serial + 1 ∧
          e.dsts = ((if bit w 28 then block (fld w 20 4) (fld w 16 4) (2 ^ fld w 13 3) (2 ^ fld w 10 3) else [(fld w 20 4, fld w 16 4)]).map
            fun q => memberTile (withTile s t0) (fld w 30 2) q.1 q.2) ∧
          { t' with net := t.net, serial := t.serial, checked := t.checked } = t))) ∧
  ∀ g x s v t, Fires (.netQcnt g x) g x s v t → Room t 15 11 [0] →
    GoesTo (.netQcnt g x) s (deliver t 15 11 0 2 (toVec (if bit v 2 then t.net.cq.length
      else (tget [] t.net.q (fld v 0 2)).length + spillCount t (fld v 0 2) * 2 ^ 16)) none)

/-- lnkLaunch, lnkMbind, lnkMunbind, lnkMpos, lnkPermit. launch, mbind, munbind and mpos join the socket in trigger order with a place on y0 for the answer; a reserved bit
faults, and with four of a kind awaiting answers a launch, bind or detach freezes. permit answers 0 and adds its count to the
permit counter of its pump and slot, or 2 where no main runs there, or 1 where the counter would pass 2^20 - 1, and then adds nothing; it freezes where a first permit finds its pump's queue of 64 full (R269, R300,
R301, R303, R339, R342, R348, R349). -/
def Obligations.LinkTriggers : Prop :=
  (∀ g x s v t0 ops t, Fires (.lnkLaunch g x) g x s v t0 → Takes t0 18 8 x [0] ops t →
    (launchIllegal (opAt ops 0) = true → Faults (.lnkLaunch g x) s (mkFault 1 18 8 1 0)) ∧
    (launchIllegal (opAt ops 0) = false → 4 ≤ (t0.lnk.filter fun o => o.code == 8 || o.code == 0).length → Freezes (.lnkLaunch g x) s) ∧
    (launchIllegal (opAt ops 0) = false → (t0.lnk.filter fun o => o.code == 8 || o.code == 0).length < 4 → Room t0 18 8 [0] →
      ∃ t', GoesTo (.lnkLaunch g x) s t' ∧
        t'.lnk = t.lnk ++ [{ code := 8, arg := toVec ((opAt ops 0).toNat % 2 ^ 512), serial := t.serial }] ∧
        t'.serial = t.serial + 1 ∧ (bit t.csr.status 7 = false → t'.checked = t.checked) ∧
        (portOf (sockOf t' 18) 0).fifo = (portOf (sockOf t 18) 0).fifo ++ [{ due := .waits t.serial, val := 0, narrowed := none }] ∧
        { t' with lnk := t.lnk, serial := t.serial, socks := t.socks, checked := t.checked } = t)) ∧
  (∀ i g x code s v t, Fires i g x s v t → mainRow i = some code →
    (code = 9 → mainIllegal v = true → Faults i s (mkFault 1 18 9 1 0)) ∧
    ((code = 9 → mainIllegal v = false) → (code ≠ 11 → (t.lnk.filter fun o => o.code == 9 || o.code == 10).length < 4) → Room t 18 code [0] →
      ∃ t', GoesTo i s t' ∧ t'.lnk = t.lnk ++ [{ code := code, arg := v, serial := t.serial }] ∧ t'.serial = t.serial + 1 ∧
        (portOf (sockOf t' 18) 0).fifo = (portOf (sockOf t 18) 0).fifo ++ [{ due := .waits t.serial, val := 0, narrowed := none }] ∧
        { t' with lnk := t.lnk, serial := t.serial, socks := t.socks } = t) ∧
    ((code = 9 → mainIllegal v = false) → code ≠ 11 → 4 ≤ (t.lnk.filter fun o => o.code == 9 || o.code == 10).length → Freezes i s)) ∧
  ∀ g x s v t, Fires (.lnkPermit g x) g x s v t →
    let n := fld v 16 16
    let key := permitKey (clusterOf t.id) (fld v 0 2) (fld v 4 4)
    let now := tget 0 s.dev.permits key
    let runs := slotRuns (withTile s t) [clusterOf t.id] (fld v 4 4)
    (n = 0 → Faults (.lnkPermit g x) s (mkFault 1 18 12 1 0)) ∧
    (n ≠ 0 → Room t 18 12 [0] →
      (runs = false → GoesTo (.lnkPermit g x) s (deliver t 18 12 0 4 (toVec 2) none)) ∧
      (runs = true → 2 ^ 20 - 1 < now + n → GoesTo (.lnkPermit g x) s (deliver t 18 12 0 4 (toVec 1) none)) ∧
      (runs = true → now + n ≤ 2 ^ 20 - 1 → now = 0 ∧ 64 ≤ pumpQueue (withTile s t) (clusterOf t.id) (fld v 0 2) →
        Freezes (.lnkPermit g x) s) ∧
      (runs = true → now + n ≤ 2 ^ 20 - 1 → ¬ (now = 0 ∧ 64 ≤ pumpQueue (withTile s t) (clusterOf t.id) (fld v 0 2)) → ∃ s', exec (.lnkPermit g x) s = .next (withTile s' (deliver t 18 12 0 4 (toVec 0) none)) ∧
        tget 0 s'.dev.permits key = now + n ∧ (∀ k, k ≠ key → tget 0 s'.dev.permits k = tget 0 s.dev.permits k) ∧
        { s' with dev := { s'.dev with permits := s.dev.permits, granted := s.dev.granted } } = s))

/-- sluSinit, sluSreset, sluArrive, sluArrivb, sluSemadd. A reserved field of b, or no units, is illegal and a group or target off the rectangle is an
illegal group. sinit sets target and group and keeps C, P and ovf, so earlier arrivals may complete; sreset clears its counter; arrive,
arrivb and semadd join the releases of the tile, of which 8 may wait, and take effect at once where nothing before them is left
(R362, R366-R368). -/
def Obligations.CounterTriggers : Prop :=
  ∀ i g x code s v t0 ops t, Fires i g x s v t0 → sluRow i = some code →
    Takes t0 16 code x (if code ∈ [8, 10, 13, 14] then [0] else []) ops t →
    let w := vecWord v
    let a := fld (opAt ops 0) 0 64
    let idx := fld w 0 6
    let row := fld w 12 4
    let col := fld w 16 4
    let lh := fld w 20 3
    let lw := fld w 23 3
    let p := t0.place
    let bad := ((code ∈ [13, 14] ∨ (code ∈ [11, 12] ∧ bit w 6 = true)) ∧ 16 ≤ idx) ∨ (code = 8 ∧ (4 < lh ∨ 4 < lw)) ∨
      (code ∈ [10, 13, 14] ∧ a % 2 ^ 32 = 0)
    let off := (code = 8 ∧ ¬ (row % 2 ^ lh = 0 ∧ col % 2 ^ lw = 0 ∧ row + 2 ^ lh ≤ rectRows p ∧ col + 2 ^ lw ≤ rectCols p ∧
        (row ≤ relRow t0 ∧ relRow t0 < row + 2 ^ lh) ∧ col ≤ relCol t0 ∧ relCol t0 < col + 2 ^ lw)) ∨
      (code = 13 ∧ bit w 9 = true ∧ ¬ (row < rectRows p ∧ col < rectCols p ∧ fld w 10 2 < p.span))
    (bad → Faults i s (mkFault 1 16 code 1 0)) ∧ (¬ bad → off → Faults i s (mkFault 12 16 code 1 0)) ∧
    (¬ bad → ¬ off → Room t0 16 code (if code ∈ [11, 14] then [0] else []) →
      (code = 8 →
        let old := sluiceOf t idx
        let k := if a % 2 ^ 40 = 0 then 0 else min (old.c / (a % 2 ^ 40)) (255 - old.p)
        ∃ t', GoesTo i s t' ∧ sluiceOf t' idx =
            { old with t := a % 2 ^ 40, row := row, col := col, lh := lh, lw := lw, span := bit w 26, c := old.c - k * (a % 2 ^ 40), p := old.p + k } ∧
          (∀ j, j ≠ idx → sluiceOf t' j = sluiceOf t j) ∧ { t' with sluices := t.sluices } = t) ∧
      (code = 12 → GoesTo i s (if bit w 6 then putSem t idx Sem.reset else putSluice t idx Sluice.reset)) ∧
      (code ∈ [9, 10, 13] → 8 ≤ (t.arrives.filter fun e => e.held).length → Freezes i s) ∧
      (code ∈ [9, 10, 13] → (t.arrives.filter fun e => e.held).length < 8 → ∃ t' as e, GoesTo i s t' ∧ t'.arrives = as ++ [e] ∧
        e.sem = decide (code = 13) ∧ e.idx = idx ∧ e.units = (if code = 9 then 1 else a % 2 ^ 32) ∧ e.serial = t.serial ∧
        e.targets.map Prod.fst = (if code = 13 then [if bit w 9 then memberTile (withTile s t) (fld w 10 2) row col else t.id]
          else groupOf (withTile s t) (sluiceOf t idx)) ∧
        t'.serial = t.serial + 1 ∧ { t' with arrives := t.arrives, serial := t.serial } = t ∧
        ((∀ b ∈ t.arrives, b.serial ≠ t.serial) → as = t.arrives ∧ (e.held = false → lsDone (withTile s t) t.serial e.scope = true))))

/-- sluStest and sluSemsub. The completion check comes first; take consumes one completion or unit where there is one and raises the timebase
to the counter's timestamp, and y0 reports as R369 lays it out. semsub takes its units where the value has them and answers 1, and answers 0
and changes nothing otherwise; a consumer is ordered after what the counter carries, by `learn` (R263, R364, R366, R368, R369, R373). -/
def Obligations.CounterReports : Prop :=
  ∀ (code : Nat) i g x s v t0 ops t, i = (if code = 11 then .sluStest g x else .sluSemsub g x) → code ∈ [11, 14] → Fires i g x s v t0 →
    Takes t0 16 code x (if code = 14 then [0] else []) ops t → Room t0 16 code [0] →
    let w := vecWord v
    let n := fld (opAt ops 0) 0 64 % 2 ^ 32
    let idx := fld w 0 6
    let sem := code = 14 ∨ bit w 6 = true
    let u := if code = 11 then completeAll t else t
    let z := semOf u idx
    let y := sluiceOf u idx
    let raised := fun (ts : Word) (t' : Tile) => ∃ s', exec i s = .next (withTile s' t') ∧
      (t0.id.die < s.dev.dies.length → tscOf s' = if (tscOf (withTile s t0)).toNat < ts.toNat then ts else tscOf (withTile s t0)) ∧
      { s' with dev := { s'.dev with dies := s.dev.dies } } = withTile s s'.cur ∧ s'.cur.id = t0.id
    let out := fun (r : Nat) (t' : Tile) => deliver t' 16 code 0 2 (toVec r) none
    (sem → idx < 16) → (code = 14 → n ≠ 0) →
    (code = 14 → n ≤ z.val → raised z.ts (out 1 (learn 0 z.view (putSem u idx { z with val := z.val - n })))) ∧
    (code = 14 → z.val < n → GoesTo i s (out 0 u)) ∧
    (code = 11 → bit w 6 = true → bit w 7 = true → 1 ≤ z.val → raised z.ts
      (out ((z.val - 1) * 2 ^ 32 + (if z.ovf then 2 else 0) + 1) (learn 0 z.view (putSem u idx { z with val := z.val - 1 })))) ∧
    (code = 11 → bit w 6 = true → (bit w 7 = true → z.val = 0) → GoesTo i s (out (z.val * 2 ^ 32 + if z.ovf then 2 else 0) u)) ∧
    (code = 11 → bit w 6 = false → bit w 8 = false → bit w 7 = true → 1 ≤ y.p → raised y.ts
      (out (y.c * 2 ^ 24 + (y.p - 1) * 2 ^ 16 + (if y.ovf then 2 else 0) + 1) (learn 0 y.view (putSluice u idx { y with p := y.p - 1 })))) ∧
    (code = 11 → bit w 6 = false → bit w 8 = false → (bit w 7 = true → y.p = 0) →
      GoesTo i s (out (y.c * 2 ^ 24 + y.p * 2 ^ 16 + if y.ovf then 2 else 0) u)) ∧
    (code = 11 → bit w 6 = false → bit w 8 = true →
      let at' := if y.row = 16 then (relRow t0, relCol t0) else (y.row, y.col)
      GoesTo i s (out ((at'.1 % 16 + at'.2 % 16 * 16 + y.lh * 256 + y.lw * 2048 + if y.span then 16384 else 0) * 2 ^ 40 + y.t) u))

/-- sysCsrr, sysCsrw, sysCsrs, sysCsrc. The full value of b names the CSR; a value R86 does not list, or a write of a read-only CSR, is illegal, and a
system CSR in user mode a privilege fault. y0 receives the old value two cycles later; csrw, csrs and csrc then write a, the old bits with
those of a set, or cleared, and csrs and csrc with a = 0 write nothing; a SOCKMODE write waits for the sockets it changes and takes effect
at the end of the bundle (R5, R86, R87, R94, R125). -/
def Obligations.RegisterOperations : Prop :=
  ∀ i g x code s v t0 ops t, Fires i g x s v t0 → csrRow i = some code →
    Takes t0 19 code x (if code = 8 then [] else [0]) ops t →
    let n := v.toNat
    let a := vecWord (opAt ops 0)
    let writes := code = 9 ∨ (code ∈ [10, 11] ∧ a ≠ 0)
    let old := csrRead (withTile s t0) n
    let value := fun (c : Word) => if code = 9 then a else if code = 10 then c ||| a else c &&& ~~~a
    let out := fun (t' : Tile) => deliver t' 19 code 0 2 (wordVec old) none
    ((csrAccess n = none ∨ (csrAccess n = some .readOnly ∧ writes)) → Faults i s (mkFault 1 19 code 1 0)) ∧
    (isSystem t0 = false → (csrAccess n = some .system ∨ (csrAccess n = some .systemWrite ∧ writes)) → Faults i s (mkFault 2 19 code 1 0)) ∧
    ∀ acc, csrAccess n = some acc → (isSystem t0 = true ∨ acc = .user ∨ ¬ writes ∧ acc ≠ .system) → (writes → acc ≠ .readOnly) →
      Room t0 19 code [0] →
      (¬ writes → GoesTo i s (out t)) ∧
      (writes → n ≠ 0 → n ≠ 1 → ∃ t', GoesTo i s (out t') ∧ { t' with csr := t.csr } = t ∧
        (∀ k, k ≠ n → csrRead (withTile s t') k = csrRead (withTile s t) k) ∧
        (n ≠ 0x100 → csrRead (withTile s t') n = (old &&& ~~~csrMask n) ||| (value old &&& csrMask n)) ∧
        (n = 0x100 → t'.csr.status = (t.csr.status &&& ~~~0x43) ||| (value old &&& 0x43))) ∧
      (writes → n = 0 → GoesTo i s (out (writeFmt t (value (fmtFinal t0))))) ∧
      (writes → n = 1 → modeWaits t0 (value old) = false → ∃ t', GoesTo i s t' ∧ t'.csr.sockmode = value old &&& modeMask ∧
        { t'.csr with sockmode := t.csr.sockmode } = t.csr ∧ { t' with csr := t.csr, socks := t.socks, ctl := t.ctl } = t ∧ t'.ctl.mode = none ∧
        (bit t.csr.sockmode 19 = false → (portOf (sockOf t' 19) 0).fifo =
          (portOf (sockOf t 19) 0).fifo ++ [{ due := .cycles 2, val := wordVec old, narrowed := none }])) ∧
      (writes → n = 1 → modeWaits t0 (value old) = true → exec i s = .next (onCur (fun t => { t with run := .drain }) s))

/-- sysTsc, sysEst, sysEcall, sysCouple, sysDecouple. tsc reads TSC; est writes EST and sends it to the headworks, which answers later; ecall takes the trap of cause
33 after its bundle, with its number as detail, EPC.pc the next bundle and EPC.w and CAUSE.late 0; couple and decouple are illegal with
b ≠ 0, else a privilege fault in user mode; they answer at once where R128 says so and otherwise wait for the partner (R86, R126-R128). -/
def Obligations.SystemOperations : Prop :=
  (∀ g x s v t, Fires (.sysTsc g x) g x s v t → Room t 19 12 [0] →
    GoesTo (.sysTsc g x) s (deliver t 19 12 0 2 (wordVec (tscOf (withTile s t))) none)) ∧
  (∀ g x s v t, Fires (.sysEst g x) g x s v t → Room t 19 13 [0] → ∃ t', GoesTo (.sysEst g x) s t' ∧
    t'.csr.est = (t.csr.est &&& ~~~0xFFFFFFFFFF) ||| (vecWord v &&& 0xFFFFFFFFFF) ∧
    t'.lnk = t.lnk ++ [{ code := 113, arg := wordVec t'.csr.est, serial := t.serial }] ∧ t'.serial = t.serial + 1 ∧
    (portOf (sockOf t' 19) 0).fifo = (portOf (sockOf t 19) 0).fifo ++ [{ due := .waits t.serial, val := 0, narrowed := none }] ∧
    { t' with csr := { t'.csr with est := t.csr.est }, lnk := t.lnk, serial := t.serial, socks := t.socks } = t) ∧
  (∀ g x s v t, Fires (.sysEcall g x) g x s v t → exec (.sysEcall g x) s =
    .next (takeException (mkFault 33 19 14 1 (fld v 0 16)) (s.cur.pc.toNat + 1) false false (withTile s t))) ∧
  (∀ (couple : Bool) i g x s v t, i = (if couple then .sysCouple g x else .sysDecouple g x) → Fires i g x s v t →
    let code := if couple then 15 else 16
    let now := if couple then (if s.dev.variantH then some 1 else if partnerInNode (withTile s t) then none else some 2)
      else if bit t.csr.status 7 then none else some 0
    (v ≠ 0 → Faults i s (mkFault 1 19 code 1 0)) ∧
    (v = 0 → isSystem t = false → Faults i s (mkFault 2 19 code 1 0)) ∧
    (isSystem t = true → v = 0 → Room t 19 code [0] →
      (∀ r, now = some r → GoesTo i s (deliver t 19 code 0 2 (toVec r) none)) ∧
      (now = none → ∃ t', GoesTo i s t' ∧ t'.lnk = t.lnk ++ [{ code := code + 100, arg := 0, serial := t.serial }] ∧
        (portOf (sockOf t' 19) 0).fifo = (portOf (sockOf t 19) 0).fifo ++ [{ due := .waits t.serial, val := 0, narrowed := none }] ∧
        { t' with lnk := t.lnk, serial := t.serial, socks := t.socks } = t)))

/-- Encodings that the spec works out word for word (R33, R35, R37, R38, R45) decode to the instruction they stand for, and a reserved literal
form, op and destination code decode to none (R30, R49). -/
def Obligations.WorkedWords : Prop :=
  (∀ e ∈ [((0x18049201 : BitVec 32), Instr.moveToOperand { inv := false, pred := 3 } (.reg { cls := .x, idx := 4 } true) 4 1),
      (0x02401288, .vaFadd { inv := false, pred := 0 } (.port 4 0 false) true),
      (0x05FF7088, .iaAdd { inv := false, pred := 0 } (.imm (-5)) false),
      (0x7A200018, .moveToRegister { inv := false, pred := 15 } (.port 2 0 false) { cls := .x, idx := 6 }),
      (0x0040120F, .vaFcmp { inv := false, pred := 0 } (.reg { cls := .v, idx := 0 } false) false),
      (0x00801500, .moveToOperand { inv := false, pred := 0 } (.reg { cls := .j, idx := 0 } false) 10 0),
      (0x00441520, .ivCadd { inv := false, pred := 0 } (.reg { cls := .v, idx := 4 } false)),
      (0x02A20204, .moveToRegister { inv := false, pred := 0 } (.port 10 1 false) { cls := .j, idx := 1 }),
      (0x0500140D, .mxMread { inv := false, pred := 0 } (.lit 7)), (0x05001689, .gmSt { inv := false, pred := 0 } (.lit 7)),
      (0x0400B788, .netSend { inv := false, pred := 0 } (.imm 5)), (0x00461909, .lnkMbind { inv := false, pred := 0 } (.reg { cls := .v, idx := 6 } false)),
      (0x05001808, .sluSinit { inv := false, pred := 0 } (.lit 7)), (0x04007809, .sluArrive { inv := false, pred := 0 } (.imm 3)), (0, emptySlot)],
    decodeMove e.1 (some 7) = .ok e.2) ∧
  (∀ e ∈ [((0x50000000 : BitVec 32), Instr.ctlNop { xstall := 2, quiet := true, lit := .none }),
      (0x04E00489, .ctlLoop { xstall := 0, quiet := false, lit := .w32 } 2 2 9 7), (0x01000001, .ctlLend { xstall := 0, quiet := false, lit := .none } 1),
      (0x01418000, .ctlWait { xstall := 0, quiet := false, lit := .none } 3 false), (0x01C00000, .ctlStrokeend { xstall := 0, quiet := false, lit := .none })],
    decodeCtl e.1 7 = .ok e.2) ∧
  decodeCtl 0x0C000000 0 = .error .controlLit ∧ decodeCtl 0x02200000 0 = .error .controlOp ∧ decodeMove 0x000010FF none = .error .destCode

/-- Decoding and encoding agree (R29-R39, R44, R45). Every well-formed move and control operation, at every operand value, decodes from its
word; every well-formed bundle with all its slots and its literal decodes from its 256 bits; and whatever a bundle decodes to is well-formed. -/
def Obligations.EncodeDecode : Prop :=
  (∀ i g x, i.move = some (g, x) → i.wf = true → ∃ w, encode i = some w ∧
    ∀ lit, (∀ v, x = .lit v → lit = some v) → decodeMove w lit = .ok i) ∧
  (∀ i h, i.head = some h → i.wf = true → ∃ w, encode i = some w ∧
    ∀ lit, (∀ h body st t strides, i = .ctlLoop h body st t strides → lit = strides) → decodeCtl w lit = .ok i) ∧
  (∀ (b : Bundle) h (lit : Option Word), b.ctl.head = some h → b.ctl.wf = true → b.moves.length = slotCount h.lit →
    (∀ i ∈ b.moves, i.wf = true ∧ i.move.isSome = true ∧ ∀ v, i.literal = some v → lit = some v) →
    (∀ h body st t strides, b.ctl = .ctlLoop h body st t strides → strides = lit.getD 0) →
    (h.lit = .none → lit = none) → (h.lit = .w32 → ∃ v, lit = some ((v : BitVec 32).signExtend 64)) → (h.lit = .w64 → lit.isSome = true) →
    decodeBundle (encodeBundle b lit) = .ok b) ∧
  ∀ w b, decodeBundle w = .ok b → b.ctl.head.isSome = true ∧ b.ctl.wf = true ∧ ∀ i ∈ b.moves, i.wf = true ∧ i.move.isSome = true

/-- A step runs the bundle at the PC: at the focused tile's turn it is, once the ring's arrivals are applied and what a fault captured is re-armed, the
bundle that the words there decode to; its cycle ends and the turn passes on; no step fails. A control operation alone, and a move alone with
every other slot empty, is exec of it, after which the PC moves past the bundle (R42, R96, R97, R99, R105; log 1: the order of turns is the model's
choice). -/
def Obligations.StepRunsBundle : Prop :=
  (∀ s b, Turn s → Issuing (ringArrivals s).cur b →
    let s0 := ringArrivals s
    let r := issueBundle false b (if s0.cur.ctl.rearms then onCur rearm s0 else s0)
    let froze := r.2 == .frozen
    Machine.step s = .next (passTurn (endCycle r.2 false (froze && splitCycle s0.cur r.1.cur)
      (onCur (fun t => { t with ctl := { t.ctl with froze := froze } }) r.1)))) ∧
  (∀ s, ∃ t, Machine.step s = .next t) ∧
  (∀ i h k s, i.head = some h → exec i s = .next (issueBundle false { ctl := i, moves := List.replicate k emptySlot } s).1) ∧
  ∀ i g x f k s, i.move = some (g, x) → fireOf i = some f → AtRest s.cur → s.cur.ctl.quietPoint = 0 → s.cur.ctl.split = none →
    moveIllegal s i = false → (isSystem s.cur = true ∨ systemOnly i = false) →
    let r := if guardFires s.cur g then (readSrc s.cur 1 x).bind fun q => f 1 x.hold q.1 { s with cur := q.2 } else .ok s
    let after := (issueBundle false { ctl := .ctlNop { xstall := 0, quiet := false, lit := .none }, moves := i :: List.replicate k emptySlot } s).1
    (∀ u, r = .ok u → u.cur.ctl.traps = [] → exec i s = .next (onCur endMoves u) ∧
      after = onCur (fun t => goesOn (t.pc.toNat + 1) 0 { t with ctl := { t.ctl with controlOnly := false, split := none } }) (onCur endMoves u)) ∧
    ((∀ u, r ≠ .ok u) → exec i s = .next after)

/-- What reset leaves (R39, R70, R85, R86, R114, R171, R201, R286, R328, R359): every register of a tile at the value the spec gives, no operand
and no unread result anywhere, accumulators and planes zero, counters and queues empty, SCHED at its fields. Memory lists nothing and the focus is tile
(0, 0, 0) of die 0: the model's choices (logs 1, 4). An SG9-H has its M dies out of service and no G cistern (R2). -/
def Obligations.ResetState : Prop :=
  (∀ id, let t := Tile.reset id
    (∀ k, getX t k = 0) ∧ (∀ i : BitVec 6, readReg t { cls := .v, idx := i } = 0 ∧ readReg t { cls := .k, idx := i } = 0 ∧
      readReg t { cls := .j, idx := i } = packLanes 64 (List.replicate 16 0xFF8000007F800000) ∧
      readReg t { cls := .p, idx := i } = if i = 0 then 1 else 0) ∧
    (∀ f, tfind t.streams f = none) ∧ (∀ k o, tfind (sockOf t k).o o = none) ∧
    (∀ k y, portOf (sockOf t k) y = { fifo := [], val := 0, unread := false, flight := [] }) ∧
    t.csr.fmt = 0x20 ∧ t.csr.sockmode = 0 ∧ t.csr.stc = 0 ∧ t.csr.qib = 0xFFFFFFFF ∧ t.csr.cutn = 0 ∧ t.csr.npt = 10 ∧ t.csr.npf = 0 ∧ t.csr.fstat = 0 ∧
    t.csr.faddr = 0 ∧ t.csr.uivec = 0 ∧ t.csr.uicause = 0 ∧ t.csr.uiepc = 0 ∧ statusWord t = 0 ∧ t.csr.cause = 0 ∧ t.csr.epc = 0 ∧
    t.mx.acc = [] ∧ t.mx.p0.w = [] ∧ t.mx.p1.w = [] ∧ t.mx.queue = [] ∧ t.qnt.tau = 12 ∧ t.qnt.configured = false ∧ t.sluices = [] ∧ t.sems = [] ∧
    t.ctl.loops = [] ∧ t.ctl.events = [] ∧ t.net.q = [] ∧ t.net.cq = [] ∧ t.table = [] ∧ t.run = .idle) ∧
  State.reset.cur = Tile.reset { die := 0, row := 0, col := 0 } ∧ State.reset.peers = [] ∧ State.reset.agenda = [] ∧
  fld State.reset.dev.hw.sched 32 16 = 200 ∧ fld State.reset.dev.hw.sched 16 16 = 50 ∧ fld State.reset.dev.hw.sched 0 16 = 0 ∧ fld State.reset.dev.hw.sched 48 16 = 0 ∧
  State.reset.dev.hw.ctxs = [] ∧ State.reset.dev.hw.nodes = [] ∧ Memory.wf State.reset.dev.mem = true ∧ (∀ a, mget State.reset.dev.mem a = 0) ∧
  State.reset.dev.variantH = false ∧ State.resetH.dev.variantH = true ∧ State.resetH.dev.cisterns = [0, 1, 2, 3, 4, 5, 6, 7] ∧
  State.resetH.dev.dies.map Die.service = [false, false, false, false, true, true, true, true]

/-- Memory (R3, R208, R221; the byte an unlisted address reads as is log 4): a write of bytes keeps the canonical form, reads back as written, low
address first, and leaves every other byte; a little-endian word reads back; two canonical memories that read alike are equal. A write clears the
poison of each word (32 bytes in a cistern, 8 in storage) that it covers whole; one that covers part of a poisoned word is refused, and writes
nothing. -/
def Obligations.MemoryLaws : Prop :=
  (∀ m a bs, Memory.wf m = true → Memory.wf (mwrite m a bs) = true) ∧
  (∀ m a bs, mread (mwrite m a bs) a bs.length = bs ∧ ∀ b, b < a ∨ a + bs.length ≤ b → mget (mwrite m a bs) b = mget m b) ∧
  (∀ m n : Memory, Memory.wf m = true → Memory.wf n = true → (∀ a, mget m a = mget n a) → m = n) ∧
  (∀ s a (w : Word), memWord (memStore s a (leBytes 8 w.toNat)) a = w.toNat ∧ (memStore s a (leBytes 8 w.toNat)).cur = s.cur) ∧
  (∀ s a bs, memRead (memStore s a bs) a bs.length = bs ∧ (Memory.wf s.dev.mem = true → Memory.wf (memStore s a bs).dev.mem = true) ∧
    ∀ w, w ∈ (memStore s a bs).dev.poison ↔ w ∈ s.dev.poison ∧ ¬ (a ≤ w * 32 ∧ (w + 1) * 32 ≤ a + bs.length)) ∧
  (∀ s a n, addrStatus s a = 0 → homeRefuses s a n = if poisonPart s.dev.poison 32 a n = true then 4 else 0) ∧
  ∀ s sp off bs, (poisonPart (spacePoison s sp) 8 off bs.length = true → spaceWrite s sp off bs = none) ∧
    (poisonPart (spacePoison s sp) 8 off bs.length = false → ∃ t, spaceWrite s sp off bs = some t ∧
      spaceMem t sp = mwrite (spaceMem s sp) off bs ∧ (spaceRead t sp off bs.length).1 = bs ∧
      ∀ w, w ∈ spacePoison t sp ↔ w ∈ spacePoison s sp ∧ ¬ (off ≤ w * 8 ∧ (w + 1) * 8 ≤ off + bs.length))

/-- frozenBundleTakesEffect, drainWaitEnd, sockmodeWriteEffect, fmtWriteEffect, freeRunningResultDue, dataLockedCompletion, lateFaultReport,
storeResponseArrival, strokeStart, waitSatisfied, strokeendDrainEnd, userInterruptEntry, haltResume, hangWatchdogExpiry, qibOverrun. A frozen bundle,
or one whose drain wait is over, issues, one in parts when its last part is due (R97), with what a fault captured re-armed (R99); a SOCKMODE value of the bundle before
applies; FMT writes due take effect in issue order; results that are due come to their ports; a late fault is taken; the answer to a
posted access ends it; a stroke starts with its counters taken; a satisfied wait takes its counter and goes on; the drain of a strokeend ends the stroke;
a handler is entered; a halted tile resumes; the hang watchdog faults with cause 25; the quiet interval's bound raises late cause 11
(R23, R31, R72, R92, R94, R96, R113, R117, R121, R122, R244, R307, R313, R328, R364). -/
def Obligations.SequencerEvents : Prop :=
  ∀ j s, let u := focus j s
    let t := u.cur
    (∀ b, Issuing t b → (∀ p, t.ctl.split = some p → p.left = 0) →
      let v := if t.ctl.rearms then onCur rearm u else u
      (t.run = .frozen → Befalls (.frozenBundleTakesEffect j) s (issueBundle false b v).1) ∧
      (t.run = .drain → Befalls (.drainWaitEnd j) s (issueBundle false b v).1) ∧
      (t.ctl.mode = none → t.run = .drain → Befalls (.sockmodeWriteEffect j) s (issueBundle false b v).1)) ∧
    (∀ k g, t.run = .frozen → t.ctl.split = some { left := k + 1, got := g } →
      Befalls (.frozenBundleTakesEffect j) s (withTile u { t with ctl := { t.ctl with split := some { left := k, got := g } } })) ∧
    (∀ m, t.ctl.mode = some m → ∃ t', Befalls (.sockmodeWriteEffect j) s (withTile u t') ∧ t'.csr.sockmode = m ∧ t'.ctl.mode = none ∧
      { t' with csr := { t'.csr with sockmode := t.csr.sockmode }, ctl := { t'.ctl with mode := t.ctl.mode }, socks := t.socks } = t) ∧
    (∃ t', Befalls (.fmtWriteEffect j) s (withTile u t') ∧
      t'.csr.fmt = (t.ctl.fmtPending.filter fun p => decide (p.rem ≤ 1)).foldl (fun w p => setFmt w p.field p.val) t.csr.fmt ∧
      t'.ctl.fmtPending = (t.ctl.fmtPending.filter fun p => decide (1 < p.rem)) ∧
      { t' with csr := { t'.csr with fmt := t.csr.fmt }, ctl := { t'.ctl with fmtPending := t.ctl.fmtPending } } = t) ∧
    (∀ (k : BitVec 5) y p o, (sockOf t k.toNat).y = [(y, p)] → p.flight = [o] → o.rem ≤ 1 → o.narrowed = none →
      ∃ t', Befalls (.freeRunningResultDue j k) s (withTile u t') ∧
        portOf (sockOf t' k.toNat) y = { p with flight := [], val := o.val, unread := true } ∧
        t'.ctl.lost = (if p.unread && bit t.csr.stc 1 && t.ctl.lost.isNone then some (k.toNat, y) else t.ctl.lost) ∧
        { t' with socks := t.socks, ctl := { t'.ctl with lost := t.ctl.lost } } = t) ∧
    (∀ k : BitVec 5, k.toNat ∉ [11, 12, 13] → ∃ t', Befalls (.dataLockedCompletion j k) s (withTile u t') ∧
      (∀ y, (portOf (sockOf t' k.toNat) y).fifo = (portOf (sockOf t k.toNat) y).fifo.map fun r =>
        if r.due = .cycles 1 ∨ r.due = .cycles 0 then { r with due := .ready } else r) ∧
      { t' with socks := t.socks, csr := { t'.csr with npf := t.csr.npf } } = t) ∧
    (∀ f fs, t.ctl.late = f :: fs →
      let v := withTile u { t with ctl := { t.ctl with late := fs } }
      (t.run = .go ∨ t.run = .frozen ∨ t.run = .drain → Befalls (.lateFaultReport j) s (takeException f t.pc.toNat false true v)) ∧
      (t.run = .idle ∨ t.run = .between ∨ (∃ m i n, t.run = .waiting m i n) ∨ (∃ d n, t.run = .ending d n) →
        Befalls (.lateFaultReport j) s (takeException f ((t.pc.toNat + 1) % 8192) false false v))) ∧
    (∀ e, t.gm.find? (fun g => decide (g.serial = e.serial)) = some e → e.posted = true → e.performed = true →
      let gone := onCur fun t => { t with gm := t.gm.filter fun g => decide (g.serial ≠ e.serial) }
      (e.st = 0 → replyOpen u e = true → Befalls (.storeResponseArrival j e.serial) s (gone (replyOver e u))) ∧
      (e.st ≠ 0 → e.st ≠ 6 → replyOpen u e = true → Befalls (.storeResponseArrival j e.serial) s
        (onCur (fun t => failStore t (e.scope (replyOver e u)) false (BitVec.ofNat 64 (gmVa e.word))) (gone (replyOver e u)))) ∧
      (e.st = 6 → Befalls (.storeResponseArrival j e.serial) s
        (onCur (fun t => failStore t (e.scope u) true (BitVec.ofNat 64 (gmVa e.word))) (gone u)))) ∧
    (∀ k ks, t.run = .idle ∨ t.run = .between → t.code.strokes = k :: ks → t.wheel % 20 = 0 → cutHolds t = false → spanFails u = false →
      (∀ w ∈ k.waits, (k.waits.filter fun v => v == w).length ≤
        if w.1 then (semOf (completeAll t) w.2).val else (sluiceOf (completeAll t) w.2).p) →
      ∃ t', Befalls (.strokeStart j) s (withTile (k.waits.foldl (fun s w => consume w.1 w.2 s) (withTile u (completeAll t))) t') ∧
        t'.pc = BitVec.ofNat 13 (256 + k.first) ∧ t'.run = .go ∧ t'.code.strokes = ks ∧ t'.code.running = true ∧ t'.perf.quietGap = 0) ∧
    (∀ sem i n, t.run = .waiting sem i n → satisfied (completeAll t) sem i = true → Befalls (.waitSatisfied j) s
      (onCur (goesOn (t.pc.toNat + 1) n) (consume sem i (withTile u (completeAll t))))) ∧
    (∀ n, t.run = .ending false n → t.ctl.late = [] → socketsDone t = true → interruptReady t = false →
      Befalls (.strokeendDrainEnd j) s (withTile u (if n = 0 then
        { t with socks := [], run := if t.code.strokes = [] then .idle else .between, code := { t.code with running := false } }
        else { t with socks := [], run := .ending true n }))) ∧
    (∀ back w e es, interruptReady t = true → interruptPoint t = some (back, w) → t.ctl.events = e :: es →
      targetLegal t false (fld t.csr.uivec 0 13) = true → ∃ t', Befalls (.userInterruptEntry j) s (withTile u t') ∧
        t'.pc = BitVec.ofNat 13 (fld t.csr.uivec 0 13) ∧ t'.run = .go ∧ bit t'.csr.status 5 = true ∧ t'.ctl.events = es ∧
        t'.csr.uicause = (e.setWidth 64 ||| if t.ctl.dropped then 1 <<< 63 else 0) ∧
        t'.csr.uiepc = BitVec.ofNat 64 (back % 8192 + if w then 65536 else 0)) ∧
    (∀ n, t.run = .halted n → ∃ t', Befalls (.haltResume j) s (withTile u t') ∧ t'.run = (if n = 0 then .go else .stall n) ∧ bit t'.csr.status 6 = false ∧
      (∀ k, k ≠ 6 → bit t'.csr.status k = bit t.csr.status k) ∧ { t' with run := t.run, csr := { t'.csr with status := t.csr.status } } = t) ∧
    (t.code.period ≤ t.perf.hang → (∀ n, t.run ≠ .halted n) → t.run ≠ .owner → t.run ≠ .stopped →
      Befalls (.hangWatchdogExpiry j) s
        (takeException (mkFault 25 0 0 0 0) t.pc.toNat false false (withTile u { t with perf := { t.perf with hang := 0 } }))) ∧
    (bit t.csr.qib 32 = true → fld t.csr.qib 0 32 < t.perf.quietGap → (∀ f ∈ t.ctl.late, f.cause ≠ 11) →
      Befalls (.qibOverrun j) s (withTile u
        { t with ctl := { t.ctl with late := t.ctl.late ++ [{ mkFault 11 0 0 0 t.perf.quietGap with late := true }] } }))

/-- bankWheelSlot, streamFetch, streamStore, hallocZeroingDone, pageWalkComplete, migrationWaitEnd, mxArrayStart, mxArrayComplete,
mxLoadComplete, mxWswapEffect, qntUnitWrite. The bank wheel serves the accesses whose slot it is and goes on; a stream's unit fetches an element
into its buffer, or stores one with its checks; a zeroed allocation answers its handle; a bundle that waited for a walk or a migration
issues; a queued array operation starts, an array operation or a load completes into accumulators or plane, a wswap turns the planes; a
unit of the quantiser enters its stream (R16, R178, R186, R195, R206, R218, R219, R231, R355). -/
def Obligations.MemoryEvents : Prop :=
  ∀ j s, let u := focus j s
    let t := u.cur
    Befalls (.bankWheelSlot j) s (onCur (fun t => { t with wheel := (t.wheel + 1) % 60 }) (serveBanks u)) ∧
    (∀ (f : BitVec 4) st e s', tfind t.streams f.toNat = some st → tfind t.table st.h = some e → st.fresh = false →
      elemOk t st st.unit = true → (st.write = false → st.buf.length + st.coming.length < 8 → st.unit < walkLen st → (t.gm.all fun e => !e.fences 0) = true →
        handleEvent u e .read = some s' → (spaceRead s' e.space (e.off + (elemOff st st.unit).toNat) (Machine.sizeOf st.esz)).2 = false →
        let lat := max (max 1 (loadLatency (handleLevel st.h))) (((st.coming.getLast?).map Prod.fst).getD 0)
        let v := bytesVec (spaceRead s' e.space (e.off + (elemOff st st.unit).toNat) (Machine.sizeOf st.esz)).1
        Befalls (.streamFetch j f) s (onCur (fun t =>
          { t with streams := tput t.streams f.toNat { st with coming := st.coming ++ [(lat, v, 0)], unit := st.unit + 1, rows := 0 } }) s')) ∧
      (∀ v p rest, st.write = true → st.buf = (v, p) :: rest → st.stopped = false → fenceLimit t f.toNat = none →
        (elemOff st st.unit).toNat + Machine.sizeOf st.esz ≤ e.size → handleEvent u e .write = some s' →
        Befalls (.streamStore j f) s (storeOut (onCur (fun t =>
          { t with streams := tput t.streams f.toNat { st with buf := rest, unit := st.unit + 1, rows := 0 } }) s') e (elemOff st st.unit).toNat (leBytes (Machine.sizeOf st.esz) v.toNat)
          (handleWord st.h st.esz (elemOff st st.unit).toNat) s'.cur.serial))) ∧
    (∀ z, t.zero = [z] → Befalls (.hallocZeroingDone j) s
      (onCur (fun t => answer { t with zero := [] } 17 z.serial 2 (toVec z.h)) (zeroRows z z.left u))) ∧
    (∀ b, Issuing t b → (∀ p, t.ctl.split = some p → p.left = 0) → t.run = .frozen ∨ t.run = .drain →
      let v := if t.ctl.rearms then onCur rearm u else u
      Befalls (.pageWalkComplete j) s (issueBundle false b v).1 ∧ Befalls (.migrationWaitEnd j) s (issueBundle false b v).1) ∧
    (∀ o, t.mx.array = none → t.mx.queue.find? MxOp.isArray = some o → o.age ≠ 0 →
      (∀ l ∈ pendingLoads t.mx, l.seq < o.seq → l.plane ≠ o.plane) →
      Befalls (.mxArrayStart j) s (withTile u
        { t with mx := { t.mx with array := some o, rows := 0, phase := 0, queue := t.mx.queue.filter fun x => decide (x.seq ≠ o.seq) } })) ∧
    (∀ e m, t.mx.ending.find? (fun e => e.op.isLoad == false) = some e →
      completeArray { t.mx with ending := t.mx.ending.erase e } e.op e.plane = .ok m → Befalls (.mxArrayComplete j) s (withTile u { t with mx := m })) ∧
    (∀ e p, t.mx.ending.find? (fun e => e.op.isLoad == true) = some e → loadedPlane e.op = .ok p → Befalls (.mxLoadComplete j) s
      (withTile u { t with mx := putPlane { t.mx with ending := t.mx.ending.erase e } e.op.plane p })) ∧
    (∀ o rest, t.mx.queue = o :: rest → o.code = 9 → (∀ x ∈ t.mx.array.toList ++ pendingLoads t.mx, o.seq ≤ x.seq) →
      Befalls (.mxWswapEffect j) s (withTile u { t with mx := { t.mx with front := !t.mx.front, queue := rest } })) ∧
    (∀ f v rest st, t.qnt.units = (f, v) :: rest → tfind t.streams f = some st → st.write = true → st.esz = 6 → st.moved < walkLen st →
      elemOk t st st.moved = true → st.stopped = false → st.buf.length < 8 → Befalls (.qntUnitWrite j) s (withTile u
        { t with qnt := { t.qnt with units := rest }, streams := tput t.streams f { st with buf := st.buf ++ [(v, 0)], moved := st.moved + 1 } }))

/-- copyElementWrite, copyCompletion, copyPark, sluiceArrival, semaphoreAddition, sluReleaseEffect, circuitSlot, circuitArrival, packetArrival,
packetReinject, vc2Forward, checkedMismatch, checkedWriteTimeout. A copy reads its next element, or writes the one read, ends with its count and
interrupt, or parks; an arrival or an addition sent by packet is counted at its target with the writes that it carries, and a release that may
take effect does; a circuit's slot sends a flit of its next element, which arrives in transit order; a packet is delivered, goes one router on, or
is refused, and is sent again 256 mesh cycles later; a multicast packet at the head of its buffer reaches a branch with credit; compared writes
that differ, or wait 1,024 cycles alone, stop the pair (R248, R251, R263, R268, R292, R294-R297, R311, R362, R365, R366). -/
def Obligations.MessageEvents : Prop :=
  (∀ (e : Elem) d s, spillCount (tileAt s d) e.q = 0 → (tget [] (tileAt s d).net.q e.q).length < 16 → e.ui = false →
    (offer e d s).1 = true ∧ tget [] (tileAt (offer e d s).2 d).net.q e.q = tget [] (tileAt s d).net.q e.q ++ [e.val]) ∧
  (∀ packet credit s v, s.dev.vc2.find? (fun v => decide (v.serial = packet)) = some v → vc2First s v = true → v.left ≠ [] →
    (∀ i ∈ v.left, i ∈ credit) →
    let others := s.dev.vc2.filter fun x => x.serial != packet
    let struck := s.dev.vc2.map fun x => if x.serial = packet then { x with left := [] } else x
    ((∀ i ∈ v.left, hopFrom s (v.place / 16) (v.place % 16) i = .here) → branchOpen s v .here = true →
      let r := offerAll { v.elem with dsts := v.left } { s with dev := { s.dev with vc2 := struck } }
      r.1 = [] → exec (.vc2Forward packet credit) s =
        .next (leaveBuffer 2 packetFlits v.buf { r.2 with dev := { r.2.dev with vc2 := others } })) ∧
    (∀ ks d r, (∀ i ∈ v.left, hopFrom s (v.place / 16) (v.place % 16) i = .across ks d r) → branchOpen s v (.across ks d r) = true →
      packet ≠ s.dev.hw.serial →
      let w : Vc2 := { v with serial := s.dev.hw.serial, place := d * 16 + r, buf := ks.getLast? }
      exec (.vc2Forward packet credit) s = .next (leaveBuffer 2 packetFlits v.buf (goOver 2 packetFlits ks
        { s with dev := { s.dev with vc2 := others ++ [w], hw := { s.dev.hw with serial := s.dev.hw.serial + 1 } } })))) ∧
  ∀ j s, let u := focus j s
    let t := u.cur
    (∀ c, t.copies.find? (fun d => decide (d.serial = c.serial)) = some c → copyGoes t c = true →
      (∀ a s1, c.isRead = false → copyReadNext u c false = .ok (a, s1) → slotRows c a = [] →
        let v := spotWalked c false s1
        Befalls (.copyElementWrite j c.serial) s (writeRead c.serial false (onCur (putCopy c.serial fun c => { c with
          buf := c.buf ++ (copyRead v (copyElem c.desc) [] a).drop c.buf.length, rows := none }) v))) ∧
      (∀ b s1 s2 n, c.isRead = true → bit t.csr.status 7 = false → c.put = 0 → copyWriteNext u c false = .ok (b, s1) → slotRows c b = [] →
        copyWrite (spotWalked c true s1) (copyElem c.desc) c.buf b = some (s2, n) →
        let v := recordCopy c (spotBytes (spotWalked c true s1) (copyElem c.desc) b) (spotWalked c true s1) s2
        ∃ t', Befalls (.copyElementWrite j c.serial) s (withTile v t') ∧
          t'.copies = (v.cur.copies.map fun d => if d.serial = c.serial then
            { d with done := d.done + 1, bytes := d.bytes + copyElem c.desc, poi := d.poi + n,
                     finished := decide (copyTotal c.desc ≤ c.done + 1), buf := [], put := 0, rows := none } else d) ∧
          { t' with copies := v.cur.copies, sluices := v.cur.sluices } = v.cur)) ∧
    (∀ c, t.copies.find? (fun d => decide (d.serial = c.serial)) = some c → c.finished = true →
      let v := match c.dst with | some e => countCompletion u e | none => u
      ∃ t', Befalls (.copyCompletion j c.serial) s (withTile v t') ∧ t'.copies = (t.copies.filter fun d => decide (d.serial ≠ c.serial)) ∧
        t'.net.received = t.net.received + 1 ∧ (bit (copyCtl c.desc) 15 = false → t'.ctl = t.ctl) ∧
        (bit (copyCtl c.desc) 15 = true → t.ctl.events.length < 32 →
          t'.ctl.events = t.ctl.events ++ [BitVec.ofNat 24 (65536 + copyTag c.desc % 65536)])) ∧
    (∀ c cause d, t.copies.find? (fun d => decide (d.serial = c.serial)) = some c → c.parked = none → c.finished = false →
      copyStop u c = some (cause, d) → Befalls (.copyPark j c.serial) s (parkCopy c cause d u)) ∧
    (∀ a q, t.arrives.find? (fun b => decide (b.serial = a.serial)) = some a → a.held = false → packetTarget t a = some q →
      (a.sem = false → Befalls (.sluiceArrival j a.serial) s
        (onCur (strike a.serial q) (onTile q.1 (onCur fun v => carryView false a.idx a.view
          (putSluice v a.idx (arrived (sluiceOf v a.idx) a.units a.ts.toNat (decide (t.id ≠ q.1))))) u))) ∧
      (a.sem = true → Befalls (.semaphoreAddition j a.serial) s
        (onCur (strike a.serial q) (onTile q.1 (onCur fun v => carryView true a.idx a.view
          (putSem v a.idx (added (semOf v a.idx) a.units a.ts.toNat (decide (t.id ≠ q.1))))) u)))) ∧
    (∀ a, releasable u = some a → let ts := BitVec.ofNat 64 ((tscOf u).toNat + 1)
      Befalls (.sluReleaseEffect j) s (withTile u { t with arrives := t.arrives.map fun b =>
        if b.serial = a.serial ∧ b.held then
          { b with held := false, ts := ts, view := knownBy t 0 b.scope, targets := b.targets.map fun q => (q.1, ringDue t.wheel t.id q.1) }
        else b })) ∧
    (∀ (c : BitVec 6) e k, nextElem u c.toNat = some e → t.net.circuits.find? (fun k => k.id == c.toNat) = some k →
      c.toNat ∉ t.net.slotDone → let i := k.offs.idxOf t.net.revCount
      i < k.offs.length → slotFits e i = true →
      let t' := putElem e.serial (fun d => if d.age = 0 then { d with age := 1, pair := some (i / 2) } else { d with sent := true, age := k.transit }) t
      Befalls (.circuitSlot j c) s (withTile u { t' with net := { t'.net with slotDone := c.toNat :: t.net.slotDone } })) ∧
    (∀ e c, t.net.out.find? (fun d => decide (d.serial = e.serial)) = some e → e.sent = true → e.circuit = some c → e.age = 0 →
      ((∃ d ∈ t.net.out, d.circuit = some c ∧ d.serial < e.serial) →
        Befalls (.circuitArrival j e.serial) s (withTile u (putElem e.serial (fun d => { d with sent := false, age := 0 }) t))) ∧
      ((∀ d ∈ t.net.out, d.circuit = some c → e.serial ≤ d.serial) → Befalls (.circuitArrival j e.serial) s
        (onCur (putElem e.serial fun d => { d with dsts := (offerAll e u).1, sent := false, age := 0 }) (offerAll e u).2))) ∧
    (∀ e, packetOf u e.serial = some e →
      (∀ i is, e.multi = false → e.dsts = i :: is →
        (packetHop u e = .here → let o := offer e i (leaveBuffer 0 packetFlits e.buf u)
          let v := onCur (putPacket e.serial i fun d => { d with dsts := [] }) o.2
          o.1 = true → packetOf v e.serial = none → Befalls (.packetArrival j e.serial) s v) ∧
        (packetHop u e = .here → let o := offer e i (leaveBuffer 0 packetFlits e.buf u)
          let v := onCur (putPacket e.serial i fun d => { d with refused := true, age := 0, place := none, buf := none })
            (returnPacket u.cur.id 32 (e.router t.id).1 (e.router t.id).2 o.2)
          o.1 = false → packetOf v e.serial = none → Befalls (.packetArrival j e.serial) s v) ∧
        (∀ ks d r, packetHop u e = .across ks d r →
          let v := onCur (putPacket e.serial i fun x => { x with place := some (d * 16 + r), buf := ks.getLast? })
            (leaveBuffer 0 packetFlits e.buf (goOver 0 packetFlits ks u))
          packetOf v e.serial = none → Befalls (.packetArrival j e.serial) s v)) ∧
      (e.multi = true → ∃ t' d', Befalls (.packetArrival j e.serial) s { withTile u t' with dev := d' } ∧
        t' = { t with net := { t.net with out := t.net.out.filter fun d => decide (d.serial ≠ e.serial) } } ∧
        d'.vc2 = u.dev.vc2 ++
          [{ serial := u.dev.hw.serial, place := t.id.die * 16 + routerOf t.id, buf := none, src := t.id, elem := e, left := e.dsts }] ∧
        { d' with vc2 := u.dev.vc2, hw := { d'.hw with serial := u.dev.hw.serial } } = u.dev)) ∧
    (∀ k, Befalls (.packetReinject j k) s
      (withTile u (putElem k (fun d => if d.refused && decide (256 ≤ d.age) then { d with refused := false, age := 0 } else d) t))) ∧
    (pairDiffers u = true → Befalls (.checkedMismatch j) s (mismatch u)) ∧
    (∀ c ∈ t.checked.drop (tileAt u (partnerOf t.id)).checked.length, 1024 ≤ c.age → comparing u = true →
      Befalls (.checkedWriteTimeout j) s (mismatch u))

/-- pumpTileDelivery, pumpHandover, multicastSend, fetchPark, pumpWriteBack, mainBindAtHome, mainDetachAtHome, mainRebindAtRestore,
homeCisternFailure. A delivery fetches one source's tile at the next position, spends a permit and sends its elements; elements that
were refused are offered again; a handover reads a sealed output row by row in the pump's slots, and with the last row moves the position,
spends one permit of every destination, sends, releases the output and counts an arrival at sluice 63; a fetch fault parks the main with a
record; the write-back writes an output tile, whose bytes are free here (log 16), and sends it on; the home answers binds and detaches in
order with the refusals of R342; a failed cistern faults the mains of its groups (R16, R19, R303, R340-R346, R349, R353, R402, R403, R418). -/
def Obligations.PumpEvents : Prop :=
  (∀ s m, mainOf s m.id = some m →
    (m.pipe ≠ [] → exec (.pumpTileDelivery m.id) s = .next (offerAgain m.id s)) ∧
    (∀ vs s1 i, m.pipe = [] → fetchable s m = true → fetchNext s m = .ok (vs, s1) → stageTile s m 0 = some i →
      let m' := if m.source + 1 < (sourcesOf m.desc).length then { m with source := m.source + 1 }
        else { m with source := 0, pos := tset 0 m.pos 0 (nextPos m 0) }
      exec (.pumpTileDelivery m.id) s = .next (sendTo m.id i vs (spendPermit m 0 (putMain m' s1)))) ∧
    (∀ d i e r, 0 < d → canHandOver s m d = true → outputReady s m d = some (i, e) → handRow s m d = some r →
      let left := (handRows m d e).erase r
      let s0 := onTile i (useSlot (handPort s m d)) s
      let s1 := if tfind m.rows d = none then (handleEvent s0 e .read).getD s0 else s0
      let n := outputSize m (d - 1) e
      let f := freeBytes n s1
      let bs := ((spaceRead s1 e.space e.off n).1.zip f.1).zipIdx.map fun q =>
        if poisonHit (spacePoison s1 e.space) 8 (e.off + q.2) 1 then q.1.2 else q.1.1
      let ds := fun s => destinations s m d
      let s2 := putMain { m with pos := tset 0 m.pos d (nextPos m d), rows := m.rows.filter fun x => x.1 != d } f.2
      let s3 := (ds f.2).foldl (fun s b => spendPermit b d s) s2
      let s4 := (ds f.2).foldl (fun s b => match stageTile s b d with | some j => sendTo b.id j (elemsOf bs) s | none => s) s3
      let v := if left ≠ [] then putMain { m with rows := tput m.rows d left } s1
        else settleMains (onTile i (onCur (countUp false 63 1 0 false)) ((handleEvent s4 e .release).getD s4))
      (multicasts s m d = false → exec (.pumpHandover m.id (d - 1)) s = .next v) ∧
      (multicasts s m d = true → exec (.multicastSend m.id d) s = .next v)) ∧
    (∀ cause addr pa i n, fetchable s m = true → fetchNext s m = .error (.fault cause addr pa) → stageTile s m 0 = some i →
      nodeOf s m.node = some n →
      let s1 := putMain { m with parked := some (cause, BitVec.ofNat 64 addr) } s
      let s2 := if cause = 26 then logFetch m i pa s1 else s1
      let t := tileAt s2 i
      exec (.fetchPark m.id) s = .next (eventRecord m.owner
        (faultRecord 2 cause 0 (entryWord n.ref) (queueByte n) m.part (relRow t % 16 * 16 + relCol t % 16) 0 0 addr (dieOf s2 i).tsc.toNat
          (2 ^ 17 + if m.bound then m.handle else 0)) s2)) ∧
    (∀ g (dest : Word), let nst := m.stages.length
      m.stages[nst - 1]? = some g →
      let n := fld g.oshape 0 16 * fld g.oshape 16 16 * 2 ^ fld g.oshape 32 8
      stageRuns s m (nst - 1) = true → permitted s m (nst - 1) = true → destsTake s m nst = true → spent m nst = false →
      ownAddr s dest.toNat = true → addrStatus s dest.toNat = 0 → addrStatus s (dest.toNat + n - 1) = 0 → ∃ bytes k, bytes.length = n ∧
        exec (.pumpWriteBack m.id dest) s =
          .next (sendAll m nst (elemsOf bytes) (memStore { spendPermit m (nst - 1) s with fresh := k } dest.toNat bytes)))) ∧
  (∀ n part d keep s,
    (((objectOf s n).bind fun o => (o.funcs[n.decl.fn]?).bind fun f => f.mains[fld d 0 16]?) = none →
      bindMain n part d keep s = some (bindValue 0 2 0 0, s)) ∧
    (∀ o f gs, objectOf s n = some o → o.funcs[n.decl.fn]? = some f → f.mains[fld d 0 16]? = some gs →
      let bad := (∃ k, k < 4 ∧ sourceIllegal d k = true) ∨ sourcesOf d = [] ∨ maskedSources gs ≠ sourcesOf d
      (bad → bindMain n part d keep s = some (bindValue 0 7 0 0, s)) ∧
      (¬ bad → (∃ k ∈ sourcesOf d, sourceTiles d k ≠ sourceTiles d ((sourcesOf d).headD 0)) →
        bindMain n part d keep s = some (bindValue 0 6 0 0, s)) ∧
      (¬ bad → (∀ k ∈ sourcesOf d, sourceTiles d k = sourceTiles d ((sourcesOf d).headD 0)) →
        (allPages s n.ref.ctx d = some none → bindMain n part d keep s = some (bindValue 0 3 0 0, s)) ∧
        (∀ pages, allPages s n.ref.ctx d = some (some pages) →
          (slotRuns s (nodeClusters n) (fld d 16 4) = true → bindMain n part d keep s = some (bindValue 0 4 0 0, s)) ∧
          (slotRuns s (nodeClusters n) (fld d 16 4) = false → 4096 ≤ s.dev.mains.length →
            bindMain n part d keep s = some (bindValue 0 5 0 0, s)))))) ∧
  (∀ j s, let u := focus j s
    ∀ o, homeOp u.cur = some o →
      (∀ n v u', o.code = 9 → curNode u = some n → lsDone u o.serial 3 = true → bindMain n u.cur.place.part o.arg none u = some (v, u') →
        Befalls (.mainBindAtHome j) s (homeReads u'.cur.lnk.length (onCur (answerLnk 18 o v) u'))) ∧
      (o.code = 10 →
        (∀ m, byHandle u (ctxNum u.cur) (fld o.arg 0 16) = some m → Befalls (.mainDetachAtHome j) s
          (homeReads (detachMain m u).cur.lnk.length (onCur (answerLnk 18 o 0) (detachMain m u)))) ∧
        (byHandle u (ctxNum u.cur) (fld o.arg 0 16) = none → Befalls (.mainDetachAtHome j) s
          (homeReads u.cur.lnk.length (onCur (answerLnk 18 o 1) u))))) ∧
  (∀ s n q v s', nodeOf s n.ref = some n → n.resume = true → n.parts ≠ [] → rebinds s n = [q] →
    bindMain n q.part q.desc (some q.handle) s = some (v, s') → exec (.mainRebindAtRestore n.ref) s = .next s') ∧
  ∀ (c : BitVec 4) s, ∃ s', exec (.homeCisternFailure c) s = .next s' ∧ c.toNat ∈ s'.dev.downC ∧
    s'.dev.mains = s.dev.mains.map fun m => if m.home = c.toNat ∧ m.key ≠ 0 then { m with faulted := true } else m

/-- kickRegister, kickAccept, nodeReady, handOffMigration, nodeLoaded, placementRound, launchAccept, estPublish. A kick waits in its
register, 64 at most, or is dropped with a record; the one at the head is refused with its cause or becomes a replay, under the lowest number
that no running replay holds, whose roots are ready; a node becomes ready in order; its hand-offs move page by page, the leaf marked, the page
copied, the leaf changed; a placement round places a reserved node and the first node that fits; a loaded node runs, from its start or from its
image; a launch is answered 1, 2 or 0; an estimate is acknowledged (R26, R88, R126, R219, R222, R275, R276, R280-R286, R300, R301, R336). -/
def Obligations.SchedulerEvents : Prop :=
  (∀ (c : BitVec 12) (word : Word) s x, s.dev.fabric.assigned = true → ctxOf s c.toNat = some x →
    (x.kicks.length < 64 → exec (.kickRegister c word) s = .next (pushOrder c.toNat true (putCtx { x with kicks := x.kicks ++ [word] } s))) ∧
    (64 ≤ x.kicks.length → exec (.kickRegister c word) s = .next (eventRecord c.toNat (kickRecord 9 0 word s) s))) ∧
  (∀ (c : BitVec 12) s a x word rest, let s0 := cleanNodes s
    s.dev.hw.active = some a → ctxOf s0 c.toNat = some x → x.kicks = word :: rest → nextIs s0 c.toNat false = false →
    let s1 := popOrder c.toNat (putCtx { x with kicks := rest } s0)
    let refused := fun (cause : Nat) => exec (.kickAccept c) s = .next (eventRecord c.toNat (kickRecord 8 cause word s0) s1)
    (x.graphs.find? (fun g => g.num == fld word 48 16) = none → refused 1) ∧
    ∀ g, x.graphs.find? (fun g => g.num == fld word 48 16) = some g →
      (∀ cause, readPatches s0 c.toNat (fld word 0 48) g.slots.length = some (.error cause) → refused cause) ∧
      ∀ patches num, readPatches s0 c.toNat (fld word 0 48) g.slots.length = some (.ok patches) →
        (List.range 16).find? (fun i => decide (i ∉ (s0.dev.hw.replays.filter fun r => r.ctx == c.toNat && r.graph == g.num).map Replay.num)) =
          some num →
        let slots := patches.foldl (fun l e => setAt l e.1 e.2) g.slots
        let nodes := g.nodes.zipIdx.map fun q =>
          newNode { ctx := c.toNat, graph := g.num, replay := num, node := q.2, serial := 0 } q.1 q.1.prio (paramsOf q.1 slots) none
        let s2 := onHw (fun h => { h with nodes := h.nodes ++ nodes, replays := h.replays ++ [{ ctx := c.toNat, graph := g.num, num := num, slots := slots }] })
          (popOrder c.toNat (putCtx { x with kicks := rest } (retag c.toNat g.num num s0)))
        exec (.kickAccept c) s = .next ((nodes.filter fun n => (edgesInto g n.ref.node).isEmpty).foldl
          (fun s n => match nodeOf s n.ref with | some m => makeReady m false s | none => s)
          (doneRecord c.toNat (completionRecord 1 0 (g.num * 2 ^ 48 + num * 2 ^ 40) word.toNat 0 (cisternTsc s2 0).toNat 0) s2))) ∧
  (∀ s n, nodeOf s n.ref = some n →
    (readyNow s n = true → ∃ m, exec (.nodeReady n.ref) s = .next (putNode m (onHw (fun h => { h with order := h.order + 1 }) s)) ∧
      m.state = .ready ∧ m.seq = s.dev.hw.order ∧ m.rounds = 0 ∧ m.resume = false ∧ m.ref = n.ref ∧ m.decl = n.decl ∧ m.images = n.images) ∧
    (∀ e k es c, n.state = .waiting → handOffs s n = (e, k) :: es → ctxOf s n.ref.ctx = some c →
      let m := n.moving.getD { edge := k, va := e.rva.toNat, page := 0, used := [], dest := none, copied := false }
      (e.rva.toNat + e.rlen.toNat ≤ m.va → exec (.handOffMigration n.ref) s = .next (endHandOff n k true s)) ∧
      (∀ ea sh leaf, m.va < e.rva.toNat + e.rlen.toNat → findLeaf s m.va 4 0 c.root.toNat = some (ea, sh, leaf) →
        let size := 2 ^ sh
        let old := leaf / 256 * 256
        let put := fun (v : Nat) (s : State) => dropTranslations c.num m.va size (memStore s ea (leBytes 8 v))
        (m.dest = none → bitsOf leaf 6 1 = 1 → exec (.handOffMigration n.ref) s = .next s) ∧
        (∀ pool new used, m.dest = none → bitsOf leaf 6 1 = 0 → readPool s c.num e.pool.toNat = some pool →
          pagePlace s n.cls pool m size old = some (new, used) →
          exec (.handOffMigration n.ref) s = .next (putNode { n with moving := some { m with dest := some new, used := used } } (put (leaf + 64) s))) ∧
        (∀ new, m.dest = some new →
          (m.copied = false → exec (.handOffMigration n.ref) s =
            .next (putNode { n with moving := some { m with copied := true } } (movePage old new size s))) ∧
          (m.copied = true → exec (.handOffMigration n.ref) s = .next (putNode
            { n with moving := some { m with va := (m.va / size + 1) * size, page := m.page + 1, dest := none, copied := false } }
            (put (new + leaf % 64 + leaf / 128 % 2 * 128) s)))))) ∧
    (∀ f, n.state = .loading → gangHolds s n.ref = false → funcOf s n = some f →
      (n.resume = false →
        let s1 := (placedTiles n).foldl (fun s q => onTile q.1 (loadTile n f false q.2.1 q.2.2) s) s
        let s2 := if linksLive s1 then s1 else routeParts n s1
        ∃ m, exec (.nodeLoaded n.ref) s = .next (raiseParts n (putNode m (onHw (fun h => { h with order := h.order + 1 }) s2))) ∧
          m.state = .running ∧ m.placed = s2.dev.hw.order ∧ m.sweep = none ∧ m.ref = n.ref ∧ m.parts = n.parts) ∧
      (∀ i, resumeImage s n = some i → rebinds s n = [] →
        let s1 := (placedTiles n).foldl (fun s q => onTile q.1 (loadTile n f true q.2.1 q.2.2) s) s
        let s2 := restoreNode n i (if linksLive s1 then s1 else routeParts n s1)
        let s3 := if (lastImage n).map Image.seq = some i.seq then s2 else deviceEvent n.ref.ctx 5 0 s2
        ∃ m, exec (.nodeLoaded n.ref) s = .next (raiseParts n (putNode m (onHw (fun h => { h with order := h.order + 1 }) s3))) ∧
          m.state = .running ∧ m.resume = false ∧ m.placed = s3.dev.hw.order ∧ m.ref = n.ref ∧ m.parts = n.parts))) ∧
  (∀ (d : BitVec 3) s a x, s.dev.hw.active = some a → s.dev.dies[d.toNat]? = some x → x.service = true →
    let s1 := placeReserved d.toNat (reserveAged d.toNat (cleanReserved s))
    (∀ n spots passed, scan s1 d.toNat (scanOrder s1 d.toNat) [] = (some (n, spots), passed) →
      exec (.placementRound d) s = .next (roundDone d.toNat (firstVictim d.toNat passed (placeNode n spots s1)))) ∧
    (∀ passed, scan s1 d.toNat (scanOrder s1 d.toNat) [] = (none, passed) →
      exec (.placementRound d) s = .next (roundDone d.toNat (firstVictim d.toNat passed s1)))) ∧
  ∀ j s, let u := focus j s
    ∀ a n, u.dev.hw.active = some a → curNode u = some n →
      (∀ o, u.cur.lnk.find? (fun o => o.code == 8) = some o → lsDone u o.serial 3 = true → launchBlocked u.cur o = false →
        ((∀ g, graphOf u n.ref = some g → g.tmpls[fld o.arg 0 16]? = none) → Befalls (.launchAccept j) s (answerLaunch o 1 u)) ∧
        ∀ g d, graphOf u n.ref = some g → g.tmpls[fld o.arg 0 16]? = some d →
          (classPresent u d.cls = false → Befalls (.launchAccept j) s (answerLaunch o 2 u)) ∧
          (classPresent u d.cls = true → let c := childOf u n g d o.arg
            Befalls (.launchAccept j) s
              (answerLaunch o 0 (makeReady c false (onHw (fun h => { h with nodes := h.nodes ++ [c], serial := h.serial + 1 }) u))))) ∧
      (∀ o, u.cur.lnk.find? (fun o => o.code == 113) = some o → Befalls (.estPublish j) s (onCur (answerLnk 19 o 0)
        (putNode { n with est := tset 0 n.est (tileIndex u.cur.id) ((cisternTsc u 0).toNat + fld o.arg 0 40) } u)))

/-- childCompletionDelivery, endSweep, stopRequest, cutRound, imageSealed, saveWatchdogExpiry, headworksFailover, gangReady, gangGo,
gangDefer. A completion goes to the parent's tile or to the context, or waits for a cut; two equal idle sweeps end a node; a stop request drains,
cuts or kills what may be; a cut takes the largest number its tiles report until all stand there, and the save begins with the image's header; an
image is sealed once every tile rests and its node requeued; a save that expires kills its context; the standby headworks takes over; a gang goes
when every device is ready in time, and is deferred by its coordinator where one is late (R26, R280, R285, R287, R288, R302, R312, R313,
R329-R332). -/
def Obligations.NodeEvents : Prop :=
  (∀ s p, s.dev.hw.completions.find? (fun q => decide (q.child = p.child)) = some p →
    let gone := onHw (fun h => { h with completions := h.completions.erase p }) s
    (nodeOf s p.ref = none → exec (.childCompletionDelivery p.child) s = .next (recordCompletion p gone)) ∧
    ∀ q, nodeOf s p.ref = some q →
      (q.state ∈ [.running, .draining, .faulted] → exec (.childCompletionDelivery p.child) s = .next (landCompletion q p gone)) ∧
      (q.state = .cutting → exec (.childCompletionDelivery p.child) s = .next s) ∧
      (q.state ∈ [.waiting, .ended] → exec (.childCompletionDelivery p.child) s = .next (recordCompletion p gone))) ∧
  (∀ s n, nodeOf s n.ref = some n →
    (n.state = .running ∨ n.state = .draining → (∀ t ∈ sweptTiles s n, tileDone t = true) →
      let sent := ((sweptTiles s n).map fun t => t.net.sent.toNat).sum
      let got := ((sweptTiles s n).map fun t => t.net.received.toNat + t.net.lost.toNat).sum
      ((∃ t ∈ sweptTiles s n, idleFlag t = false) ∨ sent ≠ got → exec (.endSweep n.ref) s = .next (putNode { n with sweep := none } s)) ∧
      ((∀ t ∈ sweptTiles s n, idleFlag t = true) → sent = got →
        (n.sweep ≠ some (sent, got) → exec (.endSweep n.ref) s = .next (putNode { n with sweep := some (sent, got) } s)) ∧
        (n.sweep = some (sent, got) → exec (.endSweep n.ref) s = .next (endNode n s)))) ∧
    (holdsAttached s n.ref = false → n.state = .running →
      exec (.stopRequest n.ref .drain) s = .next (putNode { n with state := .draining, stopping := some .drain } s) ∧
      (n.decl.has 0 = true → exec (.stopRequest n.ref .checkpoint) s = .next (beginCut n s)) ∧
      (n.decl.has 1 = true → exec (.stopRequest n.ref .kill) s = .next (requeueNode n.ref false (queueCompletion n 1 s)))) ∧
    (n.failing = true → exec (.cutRound n.ref) s = .next (finishSpan n s)) ∧
    (let ts := ((nodeTiles n).map fun i => tileAt s i).filter takesPart
     let begun := putNode (putImage (headerOnly 0 (makeImage n s)) { n with saving := some (cisternTsc s 0).toNat }) s
     n.failing = false → n.state = .cutting → n.saving = none →
      (ts = [] → exec (.cutRound n.ref) s = .next begun) ∧
      (ts ≠ [] → n.target = none → (∀ t ∈ ts, t.ctl.reported.isSome = true) →
        exec (.cutRound n.ref) s = .next (broadcastCut n (maxCut (ts.map fun t => (t.ctl.reported.getD 0).toNat)) s)) ∧
      (∀ m, ts ≠ [] → n.target = some m → (∀ t ∈ ts, cutStopped t = true) →
        (maxCut (ts.map fun t => t.csr.cutn.toNat) = m.toNat → exec (.cutRound n.ref) s = .next begun) ∧
        (maxCut (ts.map fun t => t.csr.cutn.toNat) ≠ m.toNat →
          exec (.cutRound n.ref) s = .next (broadcastCut n (maxCut (ts.map fun t => t.csr.cutn.toNat)) s)))) ∧
    (∀ start, n.state = .cutting → n.saving = some start →
      ((∀ i ∈ nodeTiles n, tileRests (focus i s) = true) →
        exec (.imageSealed n.ref) s = .next (requeueNode n.ref true (putNode (putImage (makeImage n s) n) s))) ∧
      ((if n.decl.wdog = 0 then 2 ^ 32 else n.decl.wdog) ≤ 3 * ((cisternTsc s 0).toNat - start) →
       let s1 := putNode (putImage (headerOnly 2 (makeImage n s)) n) s
       let s2 := (s1.dev.hw.nodes.filter fun m => m.ref.ctx == n.ref.ctx).foldl (fun s m =>
         match nodeOf s m.ref with
         | some m =>
           if m.state = .running ∨ m.state = .draining ∨ m.state = .cutting ∨ m.state = .loading then
             detachNode m.ref (putNode { m with state := .faulted, stopping := none, target := none, saving := none }
               (onNodeTiles m (stopTile .stopped) s))
           else s
         | none => s) s1
       exec (.saveWatchdogExpiry n.ref) s = .next (eventRecord n.ref.ctx
         (faultRecord 6 25 5 (entryWord n.ref) (queueByte n) 0 0 0 0 0 (cisternTsc s2 0).toNat 0) (freezeAll n.ref.ctx s2))))) ∧
  (∀ s, (s.dev.hw.active = some 0 → exec .headworksFailover s = .next (deviceEventAll 1 0 (onHw (fun h => { h with active := some 1 }) s))) ∧
    (∀ k, s.dev.hw.active = some k → k ≠ 0 → exec .headworksFailover s = .next (deviceEventAll 7 0 (onHw (fun h => { h with active := none }) s)))) ∧
  ∀ s g, s.dev.hw.gangs.find? (fun x => x.num == g.num) = some g →
    let limit := g.start.toNat + fld s.dev.hw.sched 16 16 * 1000
    (∀ d : BitVec 12, d.toNat ∈ g.devs → (d.toNat = s.dev.fabric.dev → gangStands s g = true) → g.sent = none →
      exec (.gangReady g.num d) s = .next (onGang g.num (fun g => { g with ready := d.toNat :: g.ready.filter fun e => e != d.toNat }) s)) ∧
    (g.sent = none → ((∃ d ∈ g.devs, d < s.dev.fabric.dev) ∨ ((∀ d ∈ g.devs, d ∈ g.ready) ∧ (cisternTsc s 0).toNat ≤ limit)) →
      exec (.gangGo g.num) s = .next (onGang g.num (fun g => { g with sent := some true }) s)) ∧
    (g.sent = none → g.nodes = [] → ((∃ d ∈ g.devs, d < s.dev.fabric.dev) ∨ ((∃ d ∈ g.devs, d ∉ g.ready) ∧ limit ≤ (cisternTsc s 0).toNat)) →
      exec (.gangDefer g.num) s = .next (onGang g.num (fun g => { g with sent := some false }) s))

/-- linkTrained, linkCredit, auditSend, auditCheck, linkReplayRequest, linkAcknowledgment, failedFlit, linkDead, rerouteComplete,
rerouteTimeout, supervisorTileFailure. A link that trains starts its credits and flit numbers again, in both directions; a fabric port's flits
are numbered, acknowledged and sent again; an audit repairs credits or kills the link; a dead link loses what was on it and pauses its dies until
the new routes stand, and a span node across it fails; a die whose reroute takes too long or whose supervisor fails leaves service (R14, R312,
R321, R322, R325, R370, R371, R379; log 19). -/
def Obligations.LinkEvents : Prop :=
  (∀ k s, let l := linkOf s k
    (∀ depth : BitVec 8, linkExists s k = true → exec (.linkTrained k depth) s = .next ([k, reverseLink k].foldl (fun s j =>
      putLink j { Link.reset with trained := true, repair := (linkOf s j).repair, chans := (List.range 4).map fun v =>
        (v, { d := depth, h := depth, occ := 0, sc := 0, rc := 0, back := 0, audit := none, last := none }) } s) s)) ∧
    (l.trained = true → l.dead = false →
      (∀ v : BitVec 2, let c := chanOf l v.toNat
        let put := fun (l : Link) (c : Channel) => Host.Outcome.next (putLink k (putChan v.toNat c l) s)
        (18 ≤ k → exec (.auditSend k v) s = put l { c with audit := some (c.h, c.rc) }) ∧
        (k < 18 → l.unacked.length < 512 → exec (.auditSend k v) s =
          put { l with nextSeq := l.nextSeq + 1, unacked := l.unacked ++ [l.nextSeq.toNat] } { c with audit := some (c.h, c.rc) }) ∧
        (k < 18 → 512 ≤ l.unacked.length → exec (.auditSend k v) s = .next s) ∧
        (∀ crd : BitVec 8,
          (k < 18 → exec (.linkCredit k v crd) s = put (goodFlit k l) { c with h := c.h + crd, rc := c.rc + crd.setWidth 16 }) ∧
          (18 ≤ k → let n := if crd.toNat ≤ c.back.toNat then crd else c.back
            exec (.linkCredit k v crd) s = put (goodFlit k l) { c with h := c.h + n, rc := c.rc + n.setWidth 16, back := c.back - n })) ∧
        ∀ h rc, c.audit = some (h, rc) →
          let m : Int := (c.d.toNat : Int) - (h.toNat + c.occ.toNat + (c.sc - rc).toNat)
          (m = 0 → exec (.auditCheck k v) s = put (goodFlit k l) { c with audit := none, last := none }) ∧
          (0 < m → c.last ≠ some m → exec (.auditCheck k v) s = put (goodFlit k l) { c with audit := none, last := some m }) ∧
          (0 < m → c.last = some m →
            let s1 := putLink k (putChan v.toNat
              { c with audit := none, last := none, sc := c.sc + BitVec.ofNat 16 m.toNat, rc := c.rc + BitVec.ofNat 16 m.toNat, h := c.h + BitVec.ofNat 8 m.toNat }
              (goodFlit k l)) s
            let j := min k (reverseLink k)
            exec (.auditCheck k v) s = .next ((linkDies k).eraseDups.foldl (fun s d =>
              match s.dev.dies[d]? with | some x => putDie s d { x with routerLog := x.routerLog ++ [(k, m.toNat)] } | none => s)
              (putLink j { linkOf s1 j with repair := sat32 (linkOf s1 j).repair } s1))) ∧
          (m < 0 → (∀ p, c.last = some p → 0 ≤ p) → exec (.auditCheck k v) s = put (goodFlit k l) { c with audit := none, last := some m }) ∧
          (m < 0 → (∃ p, c.last = some p ∧ p < 0) → exec (.auditCheck k v) s =
            exec (.linkDead k) (putLink k (putChan v.toNat { c with audit := none, last := none } (goodFlit k l)) s))) ∧
      (∀ seq : BitVec 10,
        exec (.linkReplayRequest k seq) s = .next (putLink k { goodFlit k l with resend := l.unacked.dropWhile fun x => x != seq.toNat } s) ∧
        (seq.toNat ∈ l.unacked → let kept := (l.unacked.dropWhile fun x => x != seq.toNat).drop 1
          exec (.linkAcknowledgment k seq) s =
            .next (putLink k { goodFlit k l with unacked := kept, resend := l.resend.filter fun x => decide (x ∈ kept) } s))) ∧
      (let s1 := putLink k { l with failed := l.failed + 1, lost := if k < 18 then l.lost ++ [l.expected.toNat] else l.lost } s
       let x := (Config.freeValue s1.fresh).toNat % 8
       (l.failed < 15 → k % 8192 < 18 → exec (.failedFlit k) s = .next s1) ∧
       (l.failed < 15 → 18 ≤ k % 8192 → exec (.failedFlit k) s = .next (onChan k (x % 4)
         (fun c => if x < 4 then { c with h := c.h - if c.h = 0 then 0 else 1 } else { c with back := 0 }) { s1 with fresh := s1.fresh + 1 })) ∧
       (15 ≤ l.failed → exec (.failedFlit k) s = exec (.linkDead k) s1))) ∧
    (l.dead = true ∨ linkExists s k = false → exec (.linkDead k) s = .next s) ∧
    (l.dead = false → linkExists s k = true → k % 8192 < 18 → exec (.linkDead k) s = exec (.portLost (k % 8192)) s) ∧
    (l.dead = false → linkExists s k = true → 18 ≤ k % 8192 →
      let s1 := loseMulticast k (((s.cur :: s.peers).map Tile.id).foldl (fun s i => onTile i (loseTraffic k) s) s)
      let s2 := [k, reverseLink k].foldl (fun s j => putLink j { linkOf s j with trained := false, dead := true } s) s1
      let dies := (linkDies k).eraseDups
      let s3 := dies.foldl (fun s d => match s.dev.dies[d]? with | some x => putDie s d { x with paused := true } | none => s) s2
      let across := s3.dev.hw.nodes.filter fun n => onTiles n && dies.all fun d => n.parts.any fun q => q.1 == d
      (dies.length < 2 ∨ across = [] → exec (.linkDead k) s = .next s3) ∧
      (∀ n m, 2 ≤ dies.length → across = [n] → nodeOf s3 n.ref = some m → exec (.linkDead k) s = .next (failSpan m s3)))) ∧
  (∀ (d : BitVec 3) s x, s.dev.dies[d.toNat]? = some x →
    (x.paused = false → exec (.rerouteComplete d) s = .next s ∧ exec (.rerouteTimeout d) s = .next s) ∧
    (x.paused = true → exec (.rerouteTimeout d) s = exec (.supervisorTileFailure d) s) ∧
    (x.service = true → exec (.supervisorTileFailure d) s = .next (deviceEventAll 3 0 (putDie s d.toNat { x with service := false }))) ∧
    (x.paused = true →
      let s0 := rewriteTables d.toNat (putDie s d.toNat { x with paused := false })
      let hit := fun (i : TileId) => decide (i.die = d.toNat) || !(dieOf s0 i).paused
      let s1 := (s0.dev.losers.filter hit).foldl lostRecord s0
      let s2 := { s1 with dev := { s1.dev with losers := s1.dev.losers.filter fun i => !hit i } }
      let here := s2.dev.hw.nodes.filter fun n => onTiles n && !n.failing && n.parts.any fun q => q.1 == d.toNat
      (here = [] → exec (.rerouteComplete d) s = .next s2) ∧
      (∀ n m, here = [n] → nodeOf s2 n.ref = some m →
        let routed := m.parts.foldl (fun (r : Option State) q => r.bind fun s => if q.1 = d.toNat then reroutePart m q s else some s) (some s2)
        (routed = none ∨ partsRoute s2 (2 ^ m.decl.lh) (2 ^ m.decl.lw) m.parts = false → exec (.rerouteComplete d) s = .next (evacuate m s2)) ∧
        (∀ v, routed = some v → partsRoute s2 (2 ^ m.decl.lh) (2 ^ m.decl.lw) m.parts = true → exec (.rerouteComplete d) s = .next v))))

/-- timebaseTick, align, patrolScrub, levelGaugeSample, voltageRaise, frequencyStep, powerLimitStall, packageReset. A tick and an align raise every timebase; the scrub counts a corrected word and poisons
another; gauges, voltage and frequency follow their samples; a power limit stalls a tile; package reset keeps memory, storage and
flash and resets the rest (R221, R373, R374, R381, R385, R388). -/
def Obligations.IslandAndPackageEvents : Prop :=
  (∀ s, ∃ t, exec .timebaseTick s = .next t ∧ t.cur = s.cur ∧ t.peers = s.peers ∧ t.dev.mem = s.dev.mem ∧
    (∀ d : Nat, t.dev.dies[d]? = (s.dev.dies[d]?).map fun x : Die => { x with tsc := x.tsc + 1 }) ∧
    ∀ c, cisternTsc t c = if c < 12 then cisternTsc s c + 1 else cisternTsc s c) ∧
  (∀ (time : Word) s, ∃ t, exec (.align time) s = .next t ∧ t.cur = s.cur ∧ t.peers = s.peers ∧ t.dev.mem = s.dev.mem ∧
    (∀ d : Nat, t.dev.dies[d]? = (s.dev.dies[d]?).map fun x : Die => { x with tsc := if x.tsc.toNat < time.toNat then time else x.tsc }) ∧
    ∀ c < 12, cisternTsc t c = if (cisternTsc s c).toNat < time.toNat then time else cisternTsc s c) ∧
  (∀ (a : Word) s, ownAddr s a.toNat = true → addrStatus s a.toNat = 0 → let place := 16 + cisField a.toNat
    exec (.patrolScrub a .clean) s = .next s ∧
    exec (.patrolScrub a .correctable) s = .next (onErrors s place fun e => { e with correctable := sat32 e.correctable }) ∧
    (a.toNat / 32 ∈ s.dev.poison → exec (.patrolScrub a .uncorrectable) s = .next s) ∧
    (a.toNat / 32 ∉ s.dev.poison → (tget Errors.reset s.dev.errors place).log.length < 256 →
      exec (.patrolScrub a .uncorrectable) s = .next (onErrors { s with dev := { s.dev with poison := a.toNat / 32 :: s.dev.poison } } place fun r =>
        { r with uncorrectable := sat32 r.uncorrectable,
                 log := r.log ++ [{ addr := BitVec.ofNat 64 (a.toNat / 32 * 32), ctx := 0, pos := 0xFFFF, kind := 1, time := cisternTsc s (cisField a.toNat), st := 3 }] }))) ∧
  (∀ k s, islandExists s k = true → let x := islandOf s k
    (∀ slack : BitVec 8, exec (.levelGaugeSample k slack) s = .next (putIsland k
      { x with slack := slack, least := if slack.toNat < x.least.toNat then slack else x.least,
               near := if slack.toNat < Config.guardSlack then sat32 x.near else x.near } s)) ∧
    exec (.voltageRaise k) s = .next (putIsland k { x with volts := x.volts + 1 } s) ∧
    (s.dev.hw.nodes = [] → exec (.frequencyStep k) s = .next ((stepGroup k).foldl (fun s j =>
      putIsland j { islandOf s j with steps := if (islandOf s j).steps = 255 then 255 else (islandOf s j).steps + 1 } s) s))) ∧
  (∀ (i : TileId) n s, Befalls (.powerLimitStall i n) s
    (onCur (fun t => { t with perf := { t.perf with powerStall := t.perf.powerStall + n } }) (focus i s))) ∧
  ∀ s, ∃ t, exec .packageReset s = .next t ∧ t.dev.mem = s.dev.mem ∧ t.dev.poison = s.dev.poison ∧ t.dev.storage = s.dev.storage ∧
    t.dev.firmware = s.dev.firmware ∧ t.cur = State.reset.cur ∧ t.peers = State.reset.peers ∧ t.dev.fabric = Device.reset.fabric ∧
    t.dev.window = Device.reset.window ∧ t.dev.hw.ctxs = [] ∧ t.dev.hw.nodes = [] ∧ t.dev.mains = [] ∧
    (∀ c, c ∈ t.dev.cisterns ↔ c < 12 ∧ (s.dev.variantH = true → c < 8) ∧ imageRuns s (16 + c) = true) ∧
    (∀ d x, s.dev.dies[d]? = some x → ∃ y, t.dev.dies[d]? = some y ∧ y.m = x.m ∧ y.stepping = x.stepping ∧ y.tsc = 0 ∧
      (y.service = true ↔ imageRuns s d = true ∧ (x.m && s.dev.variantH) = false)) ∧
    (imageRuns s 16 = true → t.dev.hw.active = some 0 ∧ t.dev.fallback = false) ∧
    (imageRuns s 16 = false → imageRuns s 17 = true → t.dev.hw.active = some 1 ∧ t.dev.fallback = true) ∧
    (imageRuns s 16 = false → imageRuns s 17 = false → t.dev.hw.active = none)

/-- fabricRead, fabricWrite, fabricReleaseWrite, fabricAtomic, fabricReduction, fabricReductionRead, fabricFenceOrder, fabricReservedOp,
fabricReply, hello, assign, portLost. A request of another endpoint is refused where it is misdirected or malformed, answered again where it is repeated,
else performed once; an access of a tile is performed at its home where the links take it, or lost with the last way there, and one at another
device ends with its reply, as does a copy's; hello, assign and a lost port act (R323, R377, R380, R381). -/
def Obligations.FabricEvents : Prop :=
  (∀ (q : FabricReq) s,
    (∀ e ∈ [(Instr.fabricRead q, 1, 0x81), (.fabricWrite q, 2, 0x82), (.fabricReleaseWrite q, 3, 0x82), (.fabricAtomic q, 4, 0x84), (.fabricReduction q, 5, 0x85),
        (.fabricReductionRead q, 6, 0x86), (.fabricFenceOrder q, 7, 0x87)], q.op.toNat = e.2.1 →
      (q.tile = none →
        let wrong := s.dev.fabric.assigned = false ∨ q.ddev.toNat ≠ s.dev.fabric.dev ∨ (e.2.1 ≠ 7 ∧ ownAddr s q.addr.toNat = false)
        let now := fun (s : State) => cisternTsc s (cisField q.addr.toNat)
        (wrong → exec e.1 s = .next (sendReply q e.2.2 1 [] 0 s)) ∧
        (¬ wrong → malformed q = true → exec e.1 s = .next (sendReply q e.2.2 7 [] (now s) s)) ∧
        (¬ wrong → malformed q = false →
          (∀ data st, earlier s q = some (data, st) → exec e.1 s = .next (sendReply q e.2.2 st data (now s) s)) ∧
          (earlier s q = none → ∀ st data u, edgePerform q s = (st, data, u) →
            exec e.1 s = .next (sendReply q e.2.2 st data (now u) (remember q data st u)))))) ∧
    (inWindow q.addr.toNat = false → 0 < q.len → addrStatus s (q.addr.toNat + q.len - 1) = 0 →
      (∀ bs, q.op = 1 → homeRead s q.addr.toNat q.len = (0, bs) → edgePerform q s = (0, bs, s)) ∧
      (homeRefuses s q.addr.toNat q.len = 0 → let u := memStore s q.addr.toNat q.data
        (q.op = 2 → edgePerform q s = (0, [], u)) ∧ (q.op = 3 → edgePerform q s = (0, [], raiseCistern u (cisField q.addr.toNat) q.ts)))) ∧
    (q.tile = none → q.op.toNat ∉ [1, 2, 3, 4, 5, 6, 7, 0x10, 0x81, 0x82, 0x84, 0x85, 0x86, 0x87] →
      exec (.fabricReservedOp q) s = .next (sendReply q (replyOp q.op.toNat) (if s.dev.fabric.assigned then 7 else 1) [] (cisternTsc s 0) s)) ∧
    ∀ i serial, q.tile = some (i, serial) → let u := focus i s
      (∀ r, u.cur.gm.find? (fun e => decide (e.serial = serial)) = some r →
        (∀ e ∈ [(Instr.fabricRead q, 1), (.fabricWrite q, 2), (.fabricReleaseWrite q, 3), (.fabricAtomic q, 4), (.fabricReduction q, 5), (.fabricReductionRead q, 6)],
          q.op.toNat = e.2 → r.code ∈ opCodes e.2 → gmReady u r = true → r.remote u = false → checkedOf u.cur serial = none →
          (noWay u r = true → r.posted = true → Befalls e.1 s (loseAccess r u)) ∧
          (askOpen u r = true → noWay u r = false → let x := performHere (askOver r u) r
          let u1 := homeTime x.2.2 r x.1
          Befalls e.1 s (onCur (putGm serial fun e => { e with performed := true, st := x.1, reply := x.2.1, replyTs := replyTime u1 r }) u1))) ∧
        (r.isFence = true → needsGrant r = true → fenceCovered u r = true →
          (q.op = 7 → r.performed = false → u.dev.fabric.dev = 0 → Befalls (.fabricFenceOrder q) s
            (onCur (putGm serial fun e => { e with performed := true }) { u with dev := { u.dev with fabric := { u.dev.fabric with grants := u.dev.fabric.grants + 1 } } })) ∧
          (q.op = 0x87 → q.st = 0 → r.serial = serial → Befalls (.fabricReply q) s (onCur (putGm serial fun e => { e with performed := true }) u))) ∧
        (r.code = 8 → q.op = 0x81 → q.st = 0 → r.serial = serial → r.remote u = true → gmReady u r = true → checkedOf u.cur serial = none →
          ∀ got v, performHere u r = (0, got, v) → checkedOf v.cur serial = none → Befalls (.fabricReply q) s (replyGm serial (onCur (putGm serial fun e =>
            { e with performed := true, st := 0, reply := got + toVec (placeData r (farLanes u r) q.data), replyTs := q.ts }) v)))) ∧
      ∀ c, u.cur.gm.find? (fun e => decide (e.serial = serial)) = none → u.cur.copies.find? (fun c => decide (c.serial = serial)) = some c →
        copyGoes u.cur c = true →
        (∀ a, q.op = 0x81 → copySpot u c false c.done = .ok a → a.far u = true → c.isRead = false →
          (q.st = 0 ∨ q.st = 3 → Befalls (.fabricReply q) s (elementWrite c.serial (some (q.data.map fun x => (x, q.st == 3))) u)) ∧
          (q.st ≠ 0 → q.st ≠ 3 → Befalls (.fabricReply q) s (parkCopy c (if q.st = 6 then 0 else 26) false u))) ∧
        (∀ b, q.op = 0x82 → copySpot u c true c.done = .ok b → b.far u = true → c.isRead = true →
          (q.st = 0 → Befalls (.fabricReply q) s (writeRead c.serial true u)) ∧
          (q.st = 4 → Befalls (.fabricReply q) s (onCur (fun t =>
            countElement c 0 (failStore t (spotScope u b) false (copyWord (copyDst c.desc) (copyOff c.desc true c.done)))) u)) ∧
          (q.st ≠ 0 → q.st ≠ 4 → Befalls (.fabricReply q) s (parkCopy c (if q.st = 6 then 0 else 26) true u)))) ∧
  (∀ s, let f := s.dev.fabric
    (∀ port < 18, port ∉ f.lostPorts →
      (port ∉ f.hello → (linkOf s port).trained = true → exec (.hello port) s = .next (sendManaged
        (leBytes 1 1 ++ leBytes 8 Config.moduleSerial.toNat ++ (List.range 4).flatMap fun v => leBytes 1 (((tfind (linkOf s port).chans v).map fun c => c.d.toNat).getD 0))
        { s with dev := { s.dev with fabric := { f with hello := port :: f.hello } } })) ∧
      exec (.portLost port) s = .next (deviceEventAll 8 0 (sendManaged [BitVec.ofNat 8 4, BitVec.ofNat 8 port]
        (putLink port { linkOf s port with trained := false, dead := true } { s with dev := { s.dev with fabric := { f with lostPorts := port :: f.lostPorts } } })))) ∧
    ∀ (d : BitVec 12) count, d.toNat < 2048 →
      (f.assigned = false → exec (.assign d count) s = .next { s with dev := { s.dev with fabric := { f with dev := d.toNat, assigned := true, domain := count } } }) ∧
      (f.assigned = true → f.dev = d.toNat → exec (.assign d count) s = .next s) ∧
      (f.assigned = true → f.dev ≠ d.toNat → exec (.assign d count) s = .next (logRefusal s (windowPlace s)
        { addr := 0, ctx := 0, pos := 0xFFFF, kind := 0, time := cisternTsc s 0, st := 7 })))

/-- commandWindowWrite, commandWordStore. A store into the command window is refused with 1 before the assignment, with 5 on a page that another endpoint holds, with 7 at an undefined
offset or size, and acts otherwise; a command word joins its page's queue of 16 with the page's arguments, or is refused with cause 6 or
reported (R381-R383; log 14). -/
def Obligations.CommandWindowEvents : Prop :=
  (∀ (sender : BitVec 16) (off : BitVec 24) size (v : Word) s, ∃ q : FabricReq, q.sdev = sender ∧ q.tag = 0 ∧ q.addr = BitVec.ofNat 64 (s.dev.fabric.dev * 2 ^ 52 + 0xFF0000000000 + off.toNat) ∧
    let page := off.toNat / 4096
    let owner := tget 0 s.dev.window.grants page
    let held := fun (s : State) => { s with dev := { s.dev with window := { s.dev.window with grants := tset 0 s.dev.window.grants page (sender.toNat + 1) } } }
    let ends := fun st (u : State) => exec (.commandWindowWrite sender off size v) s = Host.Outcome.next (sendReply q 0x82 st [] (cisternTsc u 0) u)
    (s.dev.fabric.assigned = false → ends 1 s) ∧
    (s.dev.fabric.assigned = true →
      (owner ≠ 0 → owner ≠ sender.toNat + 1 → ends 5 (logWindow s off.toNat 10 5)) ∧
      (owner = 0 ∨ owner = sender.toNat + 1 →
        (size ≠ 8 → ends 7 (logWindow s off.toNat 10 7)) ∧
        (size = 8 → let o := off.toNat % 4096
          (page ≠ 0 → o = 0 → ends 0 (held (storeKick page v s))) ∧
          (o = 0x40 → ends 0 (held (storeCommand page v s))) ∧
          (∀ i < 7, o = 0x48 + 8 * i → ends 0 (held { s with dev := { s.dev with window := { s.dev.window with args := tset 0 s.dev.window.args (page * 8 + i) v } } })) ∧
          (page = 0 → o = 8 → ends 0 (held { s with dev := { s.dev with window := { s.dev.window with ringAddr := v } } })) ∧
          (page = 0 → o = 16 → ends 0 (held { s with dev := { s.dev with window := { s.dev.window with ringDepth := v } } })) ∧
          (page = 0 → o = 0 → ends 7 (logWindow s off.toNat 10 7)) ∧
          (o % 8 ≠ 0 ∨ 0x80 ≤ o → ends 7 (logWindow s off.toNat 10 7)))))) ∧
  (∀ (p : BitVec 12) word s, s.dev.fabric.assigned = true → p = 0 ∨ (ctxOf s p.toNat).isSome = true →
    ((commandsOf s p.toNat).length < 16 → exec (.commandWordStore p word) s = .next (pushOrder p.toNat false
      { s with dev := { s.dev with window := { s.dev.window with cmds := tset [] s.dev.window.cmds p.toNat (commandsOf s p.toNat ++ [(word, pageArgs s p.toNat)]) } } })) ∧
    (16 ≤ (commandsOf s p.toNat).length →
      (p = 0 → exec (.commandWordStore p word) s = .next (commandRefused 0 (fld word 56 8) 6 (word.setWidth 56) s)) ∧
      (p ≠ 0 → exec (.commandWordStore p word) s = .next (deviceEvent p.toNat 6 0 s))))

/-- createContext, destroyContext, writeSched, readCounters, attestationReport, invalidate, uploadGraph, thaw, drop, resolved, abandon. Each acts in its turn, on the device page or its context's, and leaves its record: create, destroy, write SCHED, read counters,
attestation, upload with its causes, invalidate, thaw and drop of a faulted node, resolved and abandon of a parked tile (R220, R271,
R286, R308, R309, R383, R385; logs 12-14). -/
def Obligations.CommandEffects : Prop :=
  (∀ (tag : BitVec 56),
    (∀ root key tokens cA cD eA eD : Word, Acts (.createContext root key tokens cA cD eA eD tag) 0 1 tag [root, key, tokens, cA, cD, eA, eD] (createContext root key tokens cA cD eA eD tag) ∧
      ∀ u, (ringLegal u cA cD = false ∨ ringLegal u eA eD = false → createContext root key tokens cA cD eA eD tag u = commandRefused 0 1 2 tag u) ∧
        ∀ n, ringLegal u cA cD = true → ringLegal u eA eD = true → ((List.range 4095).map Nat.succ).find? (fun n => (ctxOf u n).isNone) = some n →
          u.dev.fallback = false → createContext root key tokens cA cD eA eD tag u = commandDone 0 1 n tag (onHw (fun h => { h with ctxs := h.ctxs ++
            [{ num := n, root := root, key := key, tokens := tokens.toNat, done := { Ring.reset with addr := cA, depth := cD.toNat },
               events := { Ring.reset with addr := eA, depth := eD.toNat }, kicks := [], graphs := [] }] })
            (memStore (memStore u cA.toNat (leBytes 8 0)) eA.toNat (leBytes 8 0)))) ∧
    (∀ c : Word, Acts (.destroyContext c tag) 0 2 tag [c] (destroyContext c tag) ∧ ∀ u, ctxOf u c.toNat = none → destroyContext c tag u = commandRefused 0 2 2 tag u) ∧
    (∀ v : Word, Acts (.writeSched v tag) 0 3 tag [v] fun u => commandDone 0 3 0 tag (onHw (fun h => { h with sched := v &&& 0x0000FFFFFFFF0000 }) u)) ∧
    (∀ sel buf : Word, Acts (.readCounters sel buf tag) 0 4 tag [sel, buf] fun u => fillBuffer 4 buf (Config.counterReport sel.toNat (allCounters u)) tag u) ∧
    (∀ n0 n1 n2 n3 buf : Word, Acts (.attestationReport n0 n1 n2 n3 buf tag) 0 5 tag [n0, n1, n2, n3, buf] fun u =>
      let body := attested (leBytes 8 n0.toNat ++ leBytes 8 n1.toNat ++ leBytes 8 n2.toNat ++ leBytes 8 n3.toNat) u
      fillBuffer 5 buf (body ++ slice (Config.attestationSignature body) 0 2420) tag u) ∧
    ∀ c : BitVec 12,
      (∀ va len : Word, ActsIn (.invalidate c va len tag) c 0x11 tag [va, len] fun x u => commandDone x.num 0x11 0 tag (dropTranslations x.num va.toNat len.toNat u)) ∧
      (∀ a len : Word, ∀ s h x, s.dev.hw.active = some h → commandsOf s c.toNat = [] → c ≠ 0 → ctxOf s c.toNat = some x → x.num = c.toNat → uploadWaits c.toNat a len s = false → len ≠ 0 →
        (readVa s c.toNat a.toNat len.toNat = some none → exec (.uploadGraph c a len tag) s = .next (commandRefused c.toNat 0x10 2 tag s)) ∧
        ∀ bs n, readVa s c.toNat a.toNat len.toNat = some (some bs) → (List.range 65536).find? (fun n => x.graphs.all fun g => g.num != n) = some n →
          (readGraph s n bs = none → exec (.uploadGraph c a len tag) s = .next (commandRefused c.toNat 0x10 3 tag s)) ∧
          ∀ g, readGraph s n bs = some g → exec (.uploadGraph c a len tag) s = .next (commandDone c.toNat 0x10 n tag (putCtx { x with graphs := x.graphs ++ [g] } s))) ∧
      ∀ entry : Word,
        (ActsIn (.thaw c entry tag) c 0x12 tag [entry] (fun x => thawNode x entry tag) ∧ ActsIn (.drop c entry tag) c 0x13 tag [entry] (fun x => dropNode x entry tag) ∧
          ∀ x u, ((∀ n ∈ entryNodes u x.num entry, isFaulted u n = false) →
              thawNode x entry tag u = commandRefused x.num 0x12 5 tag u ∧ dropNode x entry tag u = commandRefused x.num 0x13 5 tag u) ∧
            ∀ n ns, entryNodes u x.num entry = n :: ns → isFaulted u n = true →
              thawNode x entry tag u = commandDone x.num 0x12 0 tag (discardNode n (onHw (fun h => { h with frozenQ := h.frozenQ.filter fun q => decide (q ≠ (x.num, n.cls, n.prio)) }) u)) ∧
              (n.parts ≠ [] → dropNode x entry tag u = commandDone x.num 0x13 0 tag (discardNode n u))) ∧
        ∀ pos item : Word,
          ActsIn (.resolved c entry pos item tag) c 0x14 tag [entry, pos, item] (fun x => answerItem true x entry pos item tag) ∧
          ActsIn (.abandon c entry pos item tag) c 0x15 tag [entry, pos, item] (fun x => answerItem false x entry pos item tag) ∧
          ∀ x u, ((∀ n ∈ entryNodes u x.num entry, answeredTile n pos = none) →
              answerItem true x entry pos item tag u = commandRefused x.num 0x14 5 tag u ∧
              answerItem false x entry pos item tag u = commandRefused x.num 0x15 5 tag u) ∧
            ∀ n ns i, entryNodes u x.num entry = n :: ns → answeredTile n pos = some i → let v := focus i u
              (item = 0 → recordCtx u (tileAt u i) n = x.num → ∀ f, v.cur.run = .owner → v.cur.ctl.owner = some f →
                answerItem true x entry pos item tag u = commandDone x.num 0x14 0 tag (focus u.cur.id (onCur returnException v)) ∧
                answerItem false x entry pos item tag u = commandDone x.num 0x15 0 tag (focus u.cur.id
                  (faultCurNode f.cause f.addr (onCur (fun t => { t with ctl := { t.ctl with owner := none } }) v)))) ∧
              (∀ k c cause, k < 2 ^ 16 → item = BitVec.ofNat 64 (2 ^ 16 + k) → recordCtx u (tileAt u i) n = x.num →
                v.cur.copies.find? (fun c => copyTag c.desc == k && c.parked.isSome) = some c → c.parked = some cause →
                answerItem true x entry pos item tag u =
                  commandDone x.num 0x14 0 tag (focus u.cur.id (onCur (putCopy c.serial fun c => { c with parked := none }) v)) ∧
                answerItem false x entry pos item tag u =
                  commandDone x.num 0x15 0 tag (focus u.cur.id (faultCurNode cause (stopWord c c.atDst) (onCur (endCopy c.serial) v)))) ∧
              (∀ h m cause addr, h < 2 ^ 16 → item = BitVec.ofNat 64 (2 * 2 ^ 16 + h) →
                u.dev.mains.find? (fun m => decide (m.node = n.ref) && m.parked.isSome &&
                  (if h = 0 then !m.bound && m.owner == x.num && stageTile u m 0 == some i else m.bound && m.ctx == x.num && m.handle == h)) = some m →
                m.parked = some (cause, addr) →
                answerItem true x entry pos item tag u = commandDone x.num 0x14 0 tag (putMain { m with parked := none } u) ∧
                answerItem false x entry pos item tag u =
                  commandDone x.num 0x15 0 tag (onTile i (faultCurNode cause addr) (putMain { m with parked := none } u))))
end

