-- ==== Sys2Proof/Laws/Exec.lean ====
section
/-!
SUPPORT. Laws/Exec.lean: each arm of `exec` as an equation.
-/
namespace Sys2Proof.Machine

@[simp] theorem exec_ctlNop (h) (s : State) : exec (.ctlNop h) s = execCtlNop h s := rfl
@[simp] theorem exec_ctlStall (h) (m) (s : State) : exec (.ctlStall h m) s = execCtlStall h m s := rfl
@[simp] theorem exec_ctlBra (h) (d) (s : State) : exec (.ctlBra h d) s = execCtlBra h d s := rfl
@[simp] theorem exec_ctlBrp (h) (p) (inv) (d) (s : State) : exec (.ctlBrp h p inv d) s = execCtlBrp h p inv d s := rfl
@[simp] theorem exec_ctlBri (h) (x) (s : State) : exec (.ctlBri h x) s = execCtlBri h x s := rfl
@[simp] theorem exec_ctlCall (h) (d) (s : State) : exec (.ctlCall h d) s = execCtlCall h d s := rfl
@[simp] theorem exec_ctlRet (h) (s : State) : exec (.ctlRet h) s = execCtlRet h s := rfl
@[simp] theorem exec_ctlLoop (h) (body) (stages) (trip) (strides) (s : State) : exec (.ctlLoop h body stages trip strides) s = execCtlLoop h body stages trip strides s := rfl
@[simp] theorem exec_ctlLend (h) (b) (s : State) : exec (.ctlLend h b) s = execCtlLend h b s := rfl
@[simp] theorem exec_ctlLbrk (h) (s : State) : exec (.ctlLbrk h) s = execCtlLbrk h s := rfl
@[simp] theorem exec_ctlWait (h) (idx) (sem) (s : State) : exec (.ctlWait h idx sem) s = execCtlWait h idx sem s := rfl
@[simp] theorem exec_ctlTrap (h) (s : State) : exec (.ctlTrap h) s = execCtlTrap h s := rfl
@[simp] theorem exec_ctlFmt (h) (f) (v) (s : State) : exec (.ctlFmt h f v) s = execCtlFmt h f v s := rfl
@[simp] theorem exec_ctlUiret (h) (s : State) : exec (.ctlUiret h) s = execCtlUiret h s := rfl
@[simp] theorem exec_ctlStrokeend (h) (s : State) : exec (.ctlStrokeend h) s = execCtlStrokeend h s := rfl
@[simp] theorem exec_ctlHalt (h) (s : State) : exec (.ctlHalt h) s = execCtlHalt h s := rfl
@[simp] theorem exec_ctlSret (h) (s : State) : exec (.ctlSret h) s = execCtlSret h s := rfl
@[simp] theorem exec_moveToRegister (g) (x) (r) (s : State) : exec (.moveToRegister g x r) s = execMoveToRegister g x r s := rfl
@[simp] theorem exec_moveToStream (g) (x) (f) (s : State) : exec (.moveToStream g x f) s = execMoveToStream g x f s := rfl
@[simp] theorem exec_moveToOperand (g) (x) (sk) (o) (s : State) : exec (.moveToOperand g x sk o) s = execMoveToOperand g x sk o s := rfl
@[simp] theorem exec_iaAdd (g) (x) (n) (s : State) : exec (.iaAdd g x n) s = execIaAdd g x n s := rfl
@[simp] theorem exec_iaSub (g) (x) (n) (s : State) : exec (.iaSub g x n) s = execIaSub g x n s := rfl
@[simp] theorem exec_iaAnd (g) (x) (n) (s : State) : exec (.iaAnd g x n) s = execIaAnd g x n s := rfl
@[simp] theorem exec_iaOr (g) (x) (n) (s : State) : exec (.iaOr g x n) s = execIaOr g x n s := rfl
@[simp] theorem exec_iaXor (g) (x) (n) (s : State) : exec (.iaXor g x n) s = execIaXor g x n s := rfl
@[simp] theorem exec_iaAndn (g) (x) (n) (s : State) : exec (.iaAndn g x n) s = execIaAndn g x n s := rfl
@[simp] theorem exec_iaShl (g) (x) (n) (s : State) : exec (.iaShl g x n) s = execIaShl g x n s := rfl
@[simp] theorem exec_iaShr (g) (x) (n) (s : State) : exec (.iaShr g x n) s = execIaShr g x n s := rfl
@[simp] theorem exec_iaSra (g) (x) (n) (s : State) : exec (.iaSra g x n) s = execIaSra g x n s := rfl
@[simp] theorem exec_iaMin (g) (x) (n) (s : State) : exec (.iaMin g x n) s = execIaMin g x n s := rfl
@[simp] theorem exec_iaMax (g) (x) (n) (s : State) : exec (.iaMax g x n) s = execIaMax g x n s := rfl
@[simp] theorem exec_iaMinu (g) (x) (n) (s : State) : exec (.iaMinu g x n) s = execIaMinu g x n s := rfl
@[simp] theorem exec_iaMaxu (g) (x) (n) (s : State) : exec (.iaMaxu g x n) s = execIaMaxu g x n s := rfl
@[simp] theorem exec_iaCeq (g) (x) (n) (s : State) : exec (.iaCeq g x n) s = execIaCeq g x n s := rfl
@[simp] theorem exec_iaCne (g) (x) (n) (s : State) : exec (.iaCne g x n) s = execIaCne g x n s := rfl
@[simp] theorem exec_iaClt (g) (x) (n) (s : State) : exec (.iaClt g x n) s = execIaClt g x n s := rfl
@[simp] theorem exec_iaCltu (g) (x) (n) (s : State) : exec (.iaCltu g x n) s = execIaCltu g x n s := rfl
@[simp] theorem exec_iaCle (g) (x) (n) (s : State) : exec (.iaCle g x n) s = execIaCle g x n s := rfl
@[simp] theorem exec_iaCleu (g) (x) (n) (s : State) : exec (.iaCleu g x n) s = execIaCleu g x n s := rfl
@[simp] theorem exec_iaSel (g) (x) (n) (s : State) : exec (.iaSel g x n) s = execIaSel g x n s := rfl
@[simp] theorem exec_iaPass (g) (x) (n) (s : State) : exec (.iaPass g x n) s = execIaPass g x n s := rfl
@[simp] theorem exec_iaSext (g) (x) (n) (s : State) : exec (.iaSext g x n) s = execIaSext g x n s := rfl
@[simp] theorem exec_iaZext (g) (x) (n) (s : State) : exec (.iaZext g x n) s = execIaZext g x n s := rfl
@[simp] theorem exec_iaClz (g) (x) (n) (s : State) : exec (.iaClz g x n) s = execIaClz g x n s := rfl
@[simp] theorem exec_iaPopc (g) (x) (n) (s : State) : exec (.iaPopc g x n) s = execIaPopc g x n s := rfl
@[simp] theorem exec_iaAddsc (g) (x) (n) (s : State) : exec (.iaAddsc g x n) s = execIaAddsc g x n s := rfl
@[simp] theorem exec_iaBext (g) (x) (n) (s : State) : exec (.iaBext g x n) s = execIaBext g x n s := rfl
@[simp] theorem exec_iaBins (g) (x) (n) (s : State) : exec (.iaBins g x n) s = execIaBins g x n s := rfl
@[simp] theorem exec_imdMul (g) (x) (s : State) : exec (.imdMul g x) s = execImdMul g x s := rfl
@[simp] theorem exec_imdMulh (g) (x) (s : State) : exec (.imdMulh g x) s = execImdMulh g x s := rfl
@[simp] theorem exec_imdMulhu (g) (x) (s : State) : exec (.imdMulhu g x) s = execImdMulhu g x s := rfl
@[simp] theorem exec_imdDiv (g) (x) (s : State) : exec (.imdDiv g x) s = execImdDiv g x s := rfl
@[simp] theorem exec_imdDivu (g) (x) (s : State) : exec (.imdDivu g x) s = execImdDivu g x s := rfl
@[simp] theorem exec_imdRem (g) (x) (s : State) : exec (.imdRem g x) s = execImdRem g x s := rfl
@[simp] theorem exec_imdRemu (g) (x) (s : State) : exec (.imdRemu g x) s = execImdRemu g x s := rfl
@[simp] theorem exec_vaFadd (g) (x) (n) (s : State) : exec (.vaFadd g x n) s = execVaFadd g x n s := rfl
@[simp] theorem exec_vaFsub (g) (x) (n) (s : State) : exec (.vaFsub g x n) s = execVaFsub g x n s := rfl
@[simp] theorem exec_vaFmul (g) (x) (n) (s : State) : exec (.vaFmul g x n) s = execVaFmul g x n s := rfl
@[simp] theorem exec_vaFma (g) (x) (n) (s : State) : exec (.vaFma g x n) s = execVaFma g x n s := rfl
@[simp] theorem exec_vaFmin (g) (x) (n) (s : State) : exec (.vaFmin g x n) s = execVaFmin g x n s := rfl
@[simp] theorem exec_vaFmax (g) (x) (n) (s : State) : exec (.vaFmax g x n) s = execVaFmax g x n s := rfl
@[simp] theorem exec_vaFsgn (g) (x) (n) (s : State) : exec (.vaFsgn g x n) s = execVaFsgn g x n s := rfl
@[simp] theorem exec_vaFcmp (g) (x) (n) (s : State) : exec (.vaFcmp g x n) s = execVaFcmp g x n s := rfl
@[simp] theorem exec_vaFcvt (g) (x) (n) (s : State) : exec (.vaFcvt g x n) s = execVaFcvt g x n s := rfl
@[simp] theorem exec_vaFround (g) (x) (n) (s : State) : exec (.vaFround g x n) s = execVaFround g x n s := rfl
@[simp] theorem exec_vaFtoi (g) (x) (n) (s : State) : exec (.vaFtoi g x n) s = execVaFtoi g x n s := rfl
@[simp] theorem exec_vaItof (g) (x) (n) (s : State) : exec (.vaItof g x n) s = execVaItof g x n s := rfl
@[simp] theorem exec_vaIadd (g) (x) (n) (s : State) : exec (.vaIadd g x n) s = execVaIadd g x n s := rfl
@[simp] theorem exec_vaIsub (g) (x) (n) (s : State) : exec (.vaIsub g x n) s = execVaIsub g x n s := rfl
@[simp] theorem exec_vaImul (g) (x) (n) (s : State) : exec (.vaImul g x n) s = execVaImul g x n s := rfl
@[simp] theorem exec_vaIand (g) (x) (n) (s : State) : exec (.vaIand g x n) s = execVaIand g x n s := rfl
@[simp] theorem exec_vaIor (g) (x) (n) (s : State) : exec (.vaIor g x n) s = execVaIor g x n s := rfl
@[simp] theorem exec_vaIxor (g) (x) (n) (s : State) : exec (.vaIxor g x n) s = execVaIxor g x n s := rfl
@[simp] theorem exec_vaIshl (g) (x) (n) (s : State) : exec (.vaIshl g x n) s = execVaIshl g x n s := rfl
@[simp] theorem exec_vaIshr (g) (x) (n) (s : State) : exec (.vaIshr g x n) s = execVaIshr g x n s := rfl
@[simp] theorem exec_vaIsra (g) (x) (n) (s : State) : exec (.vaIsra g x n) s = execVaIsra g x n s := rfl
@[simp] theorem exec_vaImin (g) (x) (n) (s : State) : exec (.vaImin g x n) s = execVaImin g x n s := rfl
@[simp] theorem exec_vaImax (g) (x) (n) (s : State) : exec (.vaImax g x n) s = execVaImax g x n s := rfl
@[simp] theorem exec_vaIcmp (g) (x) (n) (s : State) : exec (.vaIcmp g x n) s = execVaIcmp g x n s := rfl
@[simp] theorem exec_vaBlend (g) (x) (n) (s : State) : exec (.vaBlend g x n) s = execVaBlend g x n s := rfl
@[simp] theorem exec_vaSplat (g) (x) (n) (s : State) : exec (.vaSplat g x n) s = execVaSplat g x n s := rfl
@[simp] theorem exec_vaFclass (g) (x) (n) (s : State) : exec (.vaFclass g x n) s = execVaFclass g x n s := rfl
@[simp] theorem exec_vxPerm (g) (x) (s : State) : exec (.vxPerm g x) s = execVxPerm g x s := rfl
@[simp] theorem exec_vxRot (g) (x) (s : State) : exec (.vxRot g x) s = execVxRot g x s := rfl
@[simp] theorem exec_vxShufl (g) (x) (s : State) : exec (.vxShufl g x) s = execVxShufl g x s := rfl
@[simp] theorem exec_vxRedadd (g) (x) (s : State) : exec (.vxRedadd g x) s = execVxRedadd g x s := rfl
@[simp] theorem exec_vxRedmax (g) (x) (s : State) : exec (.vxRedmax g x) s = execVxRedmax g x s := rfl
@[simp] theorem exec_vxRedmin (g) (x) (s : State) : exec (.vxRedmin g x) s = execVxRedmin g x s := rfl
@[simp] theorem exec_vxScan (g) (x) (s : State) : exec (.vxScan g x) s = execVxScan g x s := rfl
@[simp] theorem exec_vxPart (g) (x) (s : State) : exec (.vxPart g x) s = execVxPart g x s := rfl
@[simp] theorem exec_vxCompact (g) (x) (s : State) : exec (.vxCompact g x) s = execVxCompact g x s := rfl
@[simp] theorem exec_vxExpand (g) (x) (s : State) : exec (.vxExpand g x) s = execVxExpand g x s := rfl
@[simp] theorem exec_vxBcast (g) (x) (s : State) : exec (.vxBcast g x) s = execVxBcast g x s := rfl
@[simp] theorem exec_sfuExp2 (g) (x) (s : State) : exec (.sfuExp2 g x) s = execSfuExp2 g x s := rfl
@[simp] theorem exec_sfuLog2 (g) (x) (s : State) : exec (.sfuLog2 g x) s = execSfuLog2 g x s := rfl
@[simp] theorem exec_sfuRcp (g) (x) (s : State) : exec (.sfuRcp g x) s = execSfuRcp g x s := rfl
@[simp] theorem exec_sfuRsqrt (g) (x) (s : State) : exec (.sfuRsqrt g x) s = execSfuRsqrt g x s := rfl
@[simp] theorem exec_sfuSqrt (g) (x) (s : State) : exec (.sfuSqrt g x) s = execSfuSqrt g x s := rfl
@[simp] theorem exec_sfuSinpi (g) (x) (s : State) : exec (.sfuSinpi g x) s = execSfuSinpi g x s := rfl
@[simp] theorem exec_sfuCospi (g) (x) (s : State) : exec (.sfuCospi g x) s = execSfuCospi g x s := rfl
@[simp] theorem exec_sfuTanh (g) (x) (s : State) : exec (.sfuTanh g x) s = execSfuTanh g x s := rfl
@[simp] theorem exec_sfuSigm (g) (x) (s : State) : exec (.sfuSigm g x) s = execSfuSigm g x s := rfl
@[simp] theorem exec_mxWload (g) (x) (s : State) : exec (.mxWload g x) s = execMxWload g x s := rfl
@[simp] theorem exec_mxWswap (g) (x) (s : State) : exec (.mxWswap g x) s = execMxWswap g x s := rfl
@[simp] theorem exec_mxMstream (g) (x) (s : State) : exec (.mxMstream g x) s = execMxMstream g x s := rfl
@[simp] theorem exec_mxMstreamn (g) (x) (s : State) : exec (.mxMstreamn g x) s = execMxMstreamn g x s := rfl
@[simp] theorem exec_mxMclr (g) (x) (s : State) : exec (.mxMclr g x) s = execMxMclr g x s := rfl
@[simp] theorem exec_mxMread (g) (x) (s : State) : exec (.mxMread g x) s = execMxMread g x s := rfl
@[simp] theorem exec_mxMacw (g) (x) (s : State) : exec (.mxMacw g x) s = execMxMacw g x s := rfl
@[simp] theorem exec_mxMivl (g) (x) (s : State) : exec (.mxMivl g x) s = execMxMivl g x s := rfl
@[simp] theorem exec_mxWloadsp (g) (x) (s : State) : exec (.mxWloadsp g x) s = execMxWloadsp g x s := rfl
@[simp] theorem exec_qntQnt (g) (x) (s : State) : exec (.qntQnt g x) s = execQntQnt g x s := rfl
@[simp] theorem exec_qntQflush (g) (x) (s : State) : exec (.qntQflush g x) s = execQntQflush g x s := rfl
@[simp] theorem exec_qntQrange (g) (x) (s : State) : exec (.qntQrange g x) s = execQntQrange g x s := rfl
@[simp] theorem exec_qntQthr (g) (x) (s : State) : exec (.qntQthr g x) s = execQntQthr g x s := rfl
@[simp] theorem exec_ivIadd (g) (x) (s : State) : exec (.ivIadd g x) s = execIvIadd g x s := rfl
@[simp] theorem exec_ivIsub (g) (x) (s : State) : exec (.ivIsub g x) s = execIvIsub g x s := rfl
@[simp] theorem exec_ivImul (g) (x) (s : State) : exec (.ivImul g x) s = execIvImul g x s := rfl
@[simp] theorem exec_ivIdiv (g) (x) (s : State) : exec (.ivIdiv g x) s = execIvIdiv g x s := rfl
@[simp] theorem exec_ivIsqr (g) (x) (s : State) : exec (.ivIsqr g x) s = execIvIsqr g x s := rfl
@[simp] theorem exec_ivIsqrt (g) (x) (s : State) : exec (.ivIsqrt g x) s = execIvIsqrt g x s := rfl
@[simp] theorem exec_ivIexp (g) (x) (s : State) : exec (.ivIexp g x) s = execIvIexp g x s := rfl
@[simp] theorem exec_ivIlog (g) (x) (s : State) : exec (.ivIlog g x) s = execIvIlog g x s := rfl
@[simp] theorem exec_ivImax (g) (x) (s : State) : exec (.ivImax g x) s = execIvImax g x s := rfl
@[simp] theorem exec_ivImin (g) (x) (s : State) : exec (.ivImin g x) s = execIvImin g x s := rfl
@[simp] theorem exec_ivIhull (g) (x) (s : State) : exec (.ivIhull g x) s = execIvIhull g x s := rfl
@[simp] theorem exec_ivIsect (g) (x) (s : State) : exec (.ivIsect g x) s = execIvIsect g x s := rfl
@[simp] theorem exec_ivImid (g) (x) (s : State) : exec (.ivImid g x) s = execIvImid g x s := rfl
@[simp] theorem exec_ivIrad (g) (x) (s : State) : exec (.ivIrad g x) s = execIvIrad g x s := rfl
@[simp] theorem exec_ivIwid (g) (x) (s : State) : exec (.ivIwid g x) s = execIvIwid g x s := rfl
@[simp] theorem exec_ivIcmp (g) (x) (s : State) : exec (.ivIcmp g x) s = execIvIcmp g x s := rfl
@[simp] theorem exec_ivIin (g) (x) (s : State) : exec (.ivIin g x) s = execIvIin g x s := rfl
@[simp] theorem exec_ivIsubset (g) (x) (s : State) : exec (.ivIsubset g x) s = execIvIsubset g x s := rfl
@[simp] theorem exec_ivImk (g) (x) (s : State) : exec (.ivImk g x) s = execIvImk g x s := rfl
@[simp] theorem exec_ivIlo (g) (x) (s : State) : exec (.ivIlo g x) s = execIvIlo g x s := rfl
@[simp] theorem exec_ivIhi (g) (x) (s : State) : exec (.ivIhi g x) s = execIvIhi g x s := rfl
@[simp] theorem exec_ivCadd (g) (x) (s : State) : exec (.ivCadd g x) s = execIvCadd g x s := rfl
@[simp] theorem exec_ivCsub (g) (x) (s : State) : exec (.ivCsub g x) s = execIvCsub g x s := rfl
@[simp] theorem exec_ivCmul (g) (x) (s : State) : exec (.ivCmul g x) s = execIvCmul g x s := rfl
@[simp] theorem exec_ivCdiv (g) (x) (s : State) : exec (.ivCdiv g x) s = execIvCdiv g x s := rfl
@[simp] theorem exec_ivCsqr (g) (x) (s : State) : exec (.ivCsqr g x) s = execIvCsqr g x s := rfl
@[simp] theorem exec_ivCsqrt (g) (x) (s : State) : exec (.ivCsqrt g x) s = execIvCsqrt g x s := rfl
@[simp] theorem exec_ivCexp (g) (x) (s : State) : exec (.ivCexp g x) s = execIvCexp g x s := rfl
@[simp] theorem exec_ivClog (g) (x) (s : State) : exec (.ivClog g x) s = execIvClog g x s := rfl
@[simp] theorem exec_ivCmax (g) (x) (s : State) : exec (.ivCmax g x) s = execIvCmax g x s := rfl
@[simp] theorem exec_ivCmin (g) (x) (s : State) : exec (.ivCmin g x) s = execIvCmin g x s := rfl
@[simp] theorem exec_lwLd (g) (x) (n) (s : State) : exec (.lwLd g x n) s = execLwLd g x n s := rfl
@[simp] theorem exec_lwSt (g) (x) (n) (s : State) : exec (.lwSt g x n) s = execLwSt g x n s := rfl
@[simp] theorem exec_lwLdx (g) (x) (n) (s : State) : exec (.lwLdx g x n) s = execLwLdx g x n s := rfl
@[simp] theorem exec_lwStx (g) (x) (n) (s : State) : exec (.lwStx g x n) s = execLwStx g x n s := rfl
@[simp] theorem exec_lwBind (g) (x) (n) (s : State) : exec (.lwBind g x n) s = execLwBind g x n s := rfl
@[simp] theorem exec_lwUnbind (g) (x) (n) (s : State) : exec (.lwUnbind g x n) s = execLwUnbind g x n s := rfl
@[simp] theorem exec_lwSeal (g) (x) (n) (s : State) : exec (.lwSeal g x n) s = execLwSeal g x n s := rfl
@[simp] theorem exec_lwRelease (g) (x) (n) (s : State) : exec (.lwRelease g x n) s = execLwRelease g x n s := rfl
@[simp] theorem exec_lwGath (g) (x) (n) (s : State) : exec (.lwGath g x n) s = execLwGath g x n s := rfl
@[simp] theorem exec_lwScat (g) (x) (n) (s : State) : exec (.lwScat g x n) s = execLwScat g x n s := rfl
@[simp] theorem exec_gmLd (g) (x) (s : State) : exec (.gmLd g x) s = execGmLd g x s := rfl
@[simp] theorem exec_gmSt (g) (x) (s : State) : exec (.gmSt g x) s = execGmSt g x s := rfl
@[simp] theorem exec_gmLdacq (g) (x) (s : State) : exec (.gmLdacq g x) s = execGmLdacq g x s := rfl
@[simp] theorem exec_gmStrel (g) (x) (s : State) : exec (.gmStrel g x) s = execGmStrel g x s := rfl
@[simp] theorem exec_gmLdv (g) (x) (s : State) : exec (.gmLdv g x) s = execGmLdv g x s := rfl
@[simp] theorem exec_gmStv (g) (x) (s : State) : exec (.gmStv g x) s = execGmStv g x s := rfl
@[simp] theorem exec_gmAmo (g) (x) (s : State) : exec (.gmAmo g x) s = execGmAmo g x s := rfl
@[simp] theorem exec_gmCas (g) (x) (s : State) : exec (.gmCas g x) s = execGmCas g x s := rfl
@[simp] theorem exec_gmFred (g) (x) (s : State) : exec (.gmFred g x) s = execGmFred g x s := rfl
@[simp] theorem exec_gmFredrd (g) (x) (s : State) : exec (.gmFredrd g x) s = execGmFredrd g x s := rfl
@[simp] theorem exec_gmFredclr (g) (x) (s : State) : exec (.gmFredclr g x) s = execGmFredclr g x s := rfl
@[simp] theorem exec_gmFence (g) (x) (s : State) : exec (.gmFence g x) s = execGmFence g x s := rfl
@[simp] theorem exec_gmGath (g) (x) (s : State) : exec (.gmGath g x) s = execGmGath g x s := rfl
@[simp] theorem exec_gmScat (g) (x) (s : State) : exec (.gmScat g x) s = execGmScat g x s := rfl
@[simp] theorem exec_cpCopy (g) (x) (s : State) : exec (.cpCopy g x) s = execCpCopy g x s := rfl
@[simp] theorem exec_cpCstat (g) (x) (s : State) : exec (.cpCstat g x) s = execCpCstat g x s := rfl
@[simp] theorem exec_cpCcancel (g) (x) (s : State) : exec (.cpCcancel g x) s = execCpCcancel g x s := rfl
@[simp] theorem exec_cpPrefetch (g) (x) (s : State) : exec (.cpPrefetch g x) s = execCpPrefetch g x s := rfl
@[simp] theorem exec_netSend (g) (x) (s : State) : exec (.netSend g x) s = execNetSend g x s := rfl
@[simp] theorem exec_netSendm (g) (x) (s : State) : exec (.netSendm g x) s = execNetSendm g x s := rfl
@[simp] theorem exec_netPsend (g) (x) (s : State) : exec (.netPsend g x) s = execNetPsend g x s := rfl
@[simp] theorem exec_netQcnt (g) (x) (s : State) : exec (.netQcnt g x) s = execNetQcnt g x s := rfl
@[simp] theorem exec_sluSinit (g) (x) (s : State) : exec (.sluSinit g x) s = execSluSinit g x s := rfl
@[simp] theorem exec_sluArrive (g) (x) (s : State) : exec (.sluArrive g x) s = execSluArrive g x s := rfl
@[simp] theorem exec_sluArrivb (g) (x) (s : State) : exec (.sluArrivb g x) s = execSluArrivb g x s := rfl
@[simp] theorem exec_sluStest (g) (x) (s : State) : exec (.sluStest g x) s = execSluStest g x s := rfl
@[simp] theorem exec_sluSreset (g) (x) (s : State) : exec (.sluSreset g x) s = execSluSreset g x s := rfl
@[simp] theorem exec_sluSemadd (g) (x) (s : State) : exec (.sluSemadd g x) s = execSluSemadd g x s := rfl
@[simp] theorem exec_sluSemsub (g) (x) (s : State) : exec (.sluSemsub g x) s = execSluSemsub g x s := rfl
@[simp] theorem exec_ttHalloc (g) (x) (s : State) : exec (.ttHalloc g x) s = execTtHalloc g x s := rfl
@[simp] theorem exec_ttHfree (g) (x) (s : State) : exec (.ttHfree g x) s = execTtHfree g x s := rfl
@[simp] theorem exec_ttHstate (g) (x) (s : State) : exec (.ttHstate g x) s = execTtHstate g x s := rfl
@[simp] theorem exec_ttHset (g) (x) (s : State) : exec (.ttHset g x) s = execTtHset g x s := rfl
@[simp] theorem exec_ttHinfo (g) (x) (s : State) : exec (.ttHinfo g x) s = execTtHinfo g x s := rfl
@[simp] theorem exec_lnkLaunch (g) (x) (s : State) : exec (.lnkLaunch g x) s = execLnkLaunch g x s := rfl
@[simp] theorem exec_lnkMbind (g) (x) (s : State) : exec (.lnkMbind g x) s = execLnkMbind g x s := rfl
@[simp] theorem exec_lnkMunbind (g) (x) (s : State) : exec (.lnkMunbind g x) s = execLnkMunbind g x s := rfl
@[simp] theorem exec_lnkMpos (g) (x) (s : State) : exec (.lnkMpos g x) s = execLnkMpos g x s := rfl
@[simp] theorem exec_lnkPermit (g) (x) (s : State) : exec (.lnkPermit g x) s = execLnkPermit g x s := rfl
@[simp] theorem exec_sysCsrr (g) (x) (s : State) : exec (.sysCsrr g x) s = execSysCsrr g x s := rfl
@[simp] theorem exec_sysCsrw (g) (x) (s : State) : exec (.sysCsrw g x) s = execSysCsrw g x s := rfl
@[simp] theorem exec_sysCsrs (g) (x) (s : State) : exec (.sysCsrs g x) s = execSysCsrs g x s := rfl
@[simp] theorem exec_sysCsrc (g) (x) (s : State) : exec (.sysCsrc g x) s = execSysCsrc g x s := rfl
@[simp] theorem exec_sysTsc (g) (x) (s : State) : exec (.sysTsc g x) s = execSysTsc g x s := rfl
@[simp] theorem exec_sysEst (g) (x) (s : State) : exec (.sysEst g x) s = execSysEst g x s := rfl
@[simp] theorem exec_sysEcall (g) (x) (s : State) : exec (.sysEcall g x) s = execSysEcall g x s := rfl
@[simp] theorem exec_sysCouple (g) (x) (s : State) : exec (.sysCouple g x) s = execSysCouple g x s := rfl
@[simp] theorem exec_sysDecouple (g) (x) (s : State) : exec (.sysDecouple g x) s = execSysDecouple g x s := rfl
@[simp] theorem exec_frozenBundleTakesEffect (t) (s : State) : exec (.frozenBundleTakesEffect t) s = execFrozenBundleTakesEffect t s := rfl
@[simp] theorem exec_drainWaitEnd (t) (s : State) : exec (.drainWaitEnd t) s = execDrainWaitEnd t s := rfl
@[simp] theorem exec_sockmodeWriteEffect (t) (s : State) : exec (.sockmodeWriteEffect t) s = execSockmodeWriteEffect t s := rfl
@[simp] theorem exec_fmtWriteEffect (t) (s : State) : exec (.fmtWriteEffect t) s = execFmtWriteEffect t s := rfl
@[simp] theorem exec_freeRunningResultDue (t) (sock) (s : State) : exec (.freeRunningResultDue t sock) s = execFreeRunningResultDue t sock s := rfl
@[simp] theorem exec_dataLockedCompletion (t) (sock) (s : State) : exec (.dataLockedCompletion t sock) s = execDataLockedCompletion t sock s := rfl
@[simp] theorem exec_lateFaultReport (t) (s : State) : exec (.lateFaultReport t) s = execLateFaultReport t s := rfl
@[simp] theorem exec_storeResponseArrival (t) (serial) (s : State) : exec (.storeResponseArrival t serial) s = execStoreResponseArrival t serial s := rfl
@[simp] theorem exec_strokeStart (t) (s : State) : exec (.strokeStart t) s = execStrokeStart t s := rfl
@[simp] theorem exec_waitSatisfied (t) (s : State) : exec (.waitSatisfied t) s = execWaitSatisfied t s := rfl
@[simp] theorem exec_strokeendDrainEnd (t) (s : State) : exec (.strokeendDrainEnd t) s = execStrokeendDrainEnd t s := rfl
@[simp] theorem exec_userInterruptEntry (t) (s : State) : exec (.userInterruptEntry t) s = execUserInterruptEntry t s := rfl
@[simp] theorem exec_haltResume (t) (s : State) : exec (.haltResume t) s = execHaltResume t s := rfl
@[simp] theorem exec_hangWatchdogExpiry (t) (s : State) : exec (.hangWatchdogExpiry t) s = execHangWatchdogExpiry t s := rfl
@[simp] theorem exec_saveWatchdogExpiry (n) (s : State) : exec (.saveWatchdogExpiry n) s = execSaveWatchdogExpiry n s := rfl
@[simp] theorem exec_qibOverrun (t) (s : State) : exec (.qibOverrun t) s = execQibOverrun t s := rfl
@[simp] theorem exec_bankWheelSlot (t) (s : State) : exec (.bankWheelSlot t) s = execBankWheelSlot t s := rfl
@[simp] theorem exec_streamFetch (t) (f) (s : State) : exec (.streamFetch t f) s = execStreamFetch t f s := rfl
@[simp] theorem exec_streamStore (t) (f) (s : State) : exec (.streamStore t f) s = execStreamStore t f s := rfl
@[simp] theorem exec_hallocZeroingDone (t) (s : State) : exec (.hallocZeroingDone t) s = execHallocZeroingDone t s := rfl
@[simp] theorem exec_pageWalkComplete (t) (s : State) : exec (.pageWalkComplete t) s = execPageWalkComplete t s := rfl
@[simp] theorem exec_migrationWaitEnd (t) (s : State) : exec (.migrationWaitEnd t) s = execMigrationWaitEnd t s := rfl
@[simp] theorem exec_mxArrayStart (t) (s : State) : exec (.mxArrayStart t) s = execMxArrayStart t s := rfl
@[simp] theorem exec_mxArrayComplete (t) (s : State) : exec (.mxArrayComplete t) s = execMxArrayComplete t s := rfl
@[simp] theorem exec_mxLoadComplete (t) (s : State) : exec (.mxLoadComplete t) s = execMxLoadComplete t s := rfl
@[simp] theorem exec_mxWswapEffect (t) (s : State) : exec (.mxWswapEffect t) s = execMxWswapEffect t s := rfl
@[simp] theorem exec_qntUnitWrite (t) (s : State) : exec (.qntUnitWrite t) s = execQntUnitWrite t s := rfl
@[simp] theorem exec_copyElementWrite (t) (serial) (s : State) : exec (.copyElementWrite t serial) s = execCopyElementWrite t serial s := rfl
@[simp] theorem exec_copyCompletion (t) (serial) (s : State) : exec (.copyCompletion t serial) s = execCopyCompletion t serial s := rfl
@[simp] theorem exec_copyPark (t) (serial) (s : State) : exec (.copyPark t serial) s = execCopyPark t serial s := rfl
@[simp] theorem exec_sluiceArrival (t) (serial) (s : State) : exec (.sluiceArrival t serial) s = execSluiceArrival t serial s := rfl
@[simp] theorem exec_semaphoreAddition (t) (serial) (s : State) : exec (.semaphoreAddition t serial) s = execSemaphoreAddition t serial s := rfl
@[simp] theorem exec_sluReleaseEffect (t) (s : State) : exec (.sluReleaseEffect t) s = execSluReleaseEffect t s := rfl
@[simp] theorem exec_circuitSlot (t) (c) (s : State) : exec (.circuitSlot t c) s = execCircuitSlot t c s := rfl
@[simp] theorem exec_circuitArrival (t) (serial) (s : State) : exec (.circuitArrival t serial) s = execCircuitArrival t serial s := rfl
@[simp] theorem exec_packetArrival (t) (serial) (s : State) : exec (.packetArrival t serial) s = execPacketArrival t serial s := rfl
@[simp] theorem exec_packetReinject (t) (serial) (s : State) : exec (.packetReinject t serial) s = execPacketReinject t serial s := rfl
@[simp] theorem exec_vc2Forward (packet) (credit) (s : State) : exec (.vc2Forward packet credit) s = execVc2Forward packet credit s := rfl
@[simp] theorem exec_pumpTileDelivery (main) (s : State) : exec (.pumpTileDelivery main) s = execPumpTileDelivery main s := rfl
@[simp] theorem exec_pumpHandover (main) (stage) (s : State) : exec (.pumpHandover main stage) s = execPumpHandover main stage s := rfl
@[simp] theorem exec_multicastSend (main) (depth) (s : State) : exec (.multicastSend main depth) s = execMulticastSend main depth s := rfl
@[simp] theorem exec_fetchPark (main) (s : State) : exec (.fetchPark main) s = execFetchPark main s := rfl
@[simp] theorem exec_mainBindAtHome (t) (s : State) : exec (.mainBindAtHome t) s = execMainBindAtHome t s := rfl
@[simp] theorem exec_mainDetachAtHome (t) (s : State) : exec (.mainDetachAtHome t) s = execMainDetachAtHome t s := rfl
@[simp] theorem exec_mainRebindAtRestore (n) (s : State) : exec (.mainRebindAtRestore n) s = execMainRebindAtRestore n s := rfl
@[simp] theorem exec_homeCisternFailure (c) (s : State) : exec (.homeCisternFailure c) s = execHomeCisternFailure c s := rfl
@[simp] theorem exec_kickRegister (ctx) (word) (s : State) : exec (.kickRegister ctx word) s = execKickRegister ctx word s := rfl
@[simp] theorem exec_kickAccept (ctx) (s : State) : exec (.kickAccept ctx) s = execKickAccept ctx s := rfl
@[simp] theorem exec_nodeReady (n) (s : State) : exec (.nodeReady n) s = execNodeReady n s := rfl
@[simp] theorem exec_handOffMigration (n) (s : State) : exec (.handOffMigration n) s = execHandOffMigration n s := rfl
@[simp] theorem exec_placementRound (die) (s : State) : exec (.placementRound die) s = execPlacementRound die s := rfl
@[simp] theorem exec_nodeLoaded (n) (s : State) : exec (.nodeLoaded n) s = execNodeLoaded n s := rfl
@[simp] theorem exec_launchAccept (t) (s : State) : exec (.launchAccept t) s = execLaunchAccept t s := rfl
@[simp] theorem exec_estPublish (t) (s : State) : exec (.estPublish t) s = execEstPublish t s := rfl
@[simp] theorem exec_childCompletionDelivery (n) (s : State) : exec (.childCompletionDelivery n) s = execChildCompletionDelivery n s := rfl
@[simp] theorem exec_endSweep (n) (s : State) : exec (.endSweep n) s = execEndSweep n s := rfl
@[simp] theorem exec_stopRequest (n) (policy) (s : State) : exec (.stopRequest n policy) s = execStopRequest n policy s := rfl
@[simp] theorem exec_cutRound (n) (s : State) : exec (.cutRound n) s = execCutRound n s := rfl
@[simp] theorem exec_imageSealed (n) (s : State) : exec (.imageSealed n) s = execImageSealed n s := rfl
@[simp] theorem exec_checkedMismatch (t) (s : State) : exec (.checkedMismatch t) s = execCheckedMismatch t s := rfl
@[simp] theorem exec_checkedWriteTimeout (t) (s : State) : exec (.checkedWriteTimeout t) s = execCheckedWriteTimeout t s := rfl
@[simp] theorem exec_headworksFailover (s : State) : exec (.headworksFailover) s = execHeadworksFailover s := rfl
@[simp] theorem exec_gangReady (gang) (dev) (s : State) : exec (.gangReady gang dev) s = execGangReady gang dev s := rfl
@[simp] theorem exec_gangGo (gang) (s : State) : exec (.gangGo gang) s = execGangGo gang s := rfl
@[simp] theorem exec_gangDefer (gang) (s : State) : exec (.gangDefer gang) s = execGangDefer gang s := rfl
@[simp] theorem exec_linkTrained (link) (depth) (s : State) : exec (.linkTrained link depth) s = execLinkTrained link depth s := rfl
@[simp] theorem exec_auditSend (link) (vc) (s : State) : exec (.auditSend link vc) s = execAuditSend link vc s := rfl
@[simp] theorem exec_auditCheck (link) (vc) (s : State) : exec (.auditCheck link vc) s = execAuditCheck link vc s := rfl
@[simp] theorem exec_linkDead (link) (s : State) : exec (.linkDead link) s = execLinkDead link s := rfl
@[simp] theorem exec_rerouteComplete (die) (s : State) : exec (.rerouteComplete die) s = execRerouteComplete die s := rfl
@[simp] theorem exec_rerouteTimeout (die) (s : State) : exec (.rerouteTimeout die) s = execRerouteTimeout die s := rfl
@[simp] theorem exec_linkReplayRequest (link) (seq) (s : State) : exec (.linkReplayRequest link seq) s = execLinkReplayRequest link seq s := rfl
@[simp] theorem exec_linkAcknowledgment (link) (seq) (s : State) : exec (.linkAcknowledgment link seq) s = execLinkAcknowledgment link seq s := rfl
@[simp] theorem exec_linkCredit (link) (vc) (crd) (s : State) : exec (.linkCredit link vc crd) s = execLinkCredit link vc crd s := rfl
@[simp] theorem exec_fabricRead (q) (s : State) : exec (.fabricRead q) s = execFabricRead q s := rfl
@[simp] theorem exec_fabricWrite (q) (s : State) : exec (.fabricWrite q) s = execFabricWrite q s := rfl
@[simp] theorem exec_fabricReleaseWrite (q) (s : State) : exec (.fabricReleaseWrite q) s = execFabricReleaseWrite q s := rfl
@[simp] theorem exec_fabricAtomic (q) (s : State) : exec (.fabricAtomic q) s = execFabricAtomic q s := rfl
@[simp] theorem exec_fabricReduction (q) (s : State) : exec (.fabricReduction q) s = execFabricReduction q s := rfl
@[simp] theorem exec_fabricReductionRead (q) (s : State) : exec (.fabricReductionRead q) s = execFabricReductionRead q s := rfl
@[simp] theorem exec_fabricFenceOrder (q) (s : State) : exec (.fabricFenceOrder q) s = execFabricFenceOrder q s := rfl
@[simp] theorem exec_fabricReservedOp (q) (s : State) : exec (.fabricReservedOp q) s = execFabricReservedOp q s := rfl
@[simp] theorem exec_fabricReply (q) (s : State) : exec (.fabricReply q) s = execFabricReply q s := rfl
@[simp] theorem exec_hello (port) (s : State) : exec (.hello port) s = execHello port s := rfl
@[simp] theorem exec_assign (dev) (count) (s : State) : exec (.assign dev count) s = execAssign dev count s := rfl
@[simp] theorem exec_align (time) (s : State) : exec (.align time) s = execAlign time s := rfl
@[simp] theorem exec_portLost (port) (s : State) : exec (.portLost port) s = execPortLost port s := rfl
@[simp] theorem exec_timebaseTick (s : State) : exec (.timebaseTick) s = execTimebaseTick s := rfl
@[simp] theorem exec_createContext (root) (key) (tokens) (cAddr) (cDepth) (eAddr) (eDepth) (tag) (s : State) : exec (.createContext root key tokens cAddr cDepth eAddr eDepth tag) s = execCreateContext root key tokens cAddr cDepth eAddr eDepth tag s := rfl
@[simp] theorem exec_destroyContext (ctx) (tag) (s : State) : exec (.destroyContext ctx tag) s = execDestroyContext ctx tag s := rfl
@[simp] theorem exec_writeSched (v) (tag) (s : State) : exec (.writeSched v tag) s = execWriteSched v tag s := rfl
@[simp] theorem exec_readCounters (sel) (buf) (tag) (s : State) : exec (.readCounters sel buf tag) s = execReadCounters sel buf tag s := rfl
@[simp] theorem exec_attestationReport (n0) (n1) (n2) (n3) (buf) (tag) (s : State) : exec (.attestationReport n0 n1 n2 n3 buf tag) s = execAttestationReport n0 n1 n2 n3 buf tag s := rfl
@[simp] theorem exec_uploadGraph (ctx) (addr) (len) (tag) (s : State) : exec (.uploadGraph ctx addr len tag) s = execUploadGraph ctx addr len tag s := rfl
@[simp] theorem exec_invalidate (ctx) (va) (len) (tag) (s : State) : exec (.invalidate ctx va len tag) s = execInvalidate ctx va len tag s := rfl
@[simp] theorem exec_thaw (ctx) (entry) (tag) (s : State) : exec (.thaw ctx entry tag) s = execThaw ctx entry tag s := rfl
@[simp] theorem exec_drop (ctx) (entry) (tag) (s : State) : exec (.drop ctx entry tag) s = execDrop ctx entry tag s := rfl
@[simp] theorem exec_resolved (ctx) (entry) (pos) (item) (tag) (s : State) : exec (.resolved ctx entry pos item tag) s = execResolved ctx entry pos item tag s := rfl
@[simp] theorem exec_abandon (ctx) (entry) (pos) (item) (tag) (s : State) : exec (.abandon ctx entry pos item tag) s = execAbandon ctx entry pos item tag s := rfl
@[simp] theorem exec_commandWindowWrite (sender) (offset) (size) (data) (s : State) : exec (.commandWindowWrite sender offset size data) s = execCommandWindowWrite sender offset size data s := rfl
@[simp] theorem exec_packageReset (s : State) : exec (.packageReset) s = execPackageReset s := rfl
@[simp] theorem exec_patrolScrub (addr) (found) (s : State) : exec (.patrolScrub addr found) s = execPatrolScrub addr found s := rfl
@[simp] theorem exec_levelGaugeSample (island) (slack) (s : State) : exec (.levelGaugeSample island slack) s = execLevelGaugeSample island slack s := rfl
@[simp] theorem exec_voltageRaise (island) (s : State) : exec (.voltageRaise island) s = execVoltageRaise island s := rfl
@[simp] theorem exec_frequencyStep (island) (s : State) : exec (.frequencyStep island) s = execFrequencyStep island s := rfl
@[simp] theorem exec_powerLimitStall (t) (n) (s : State) : exec (.powerLimitStall t n) s = execPowerLimitStall t n s := rfl
@[simp] theorem exec_supervisorTileFailure (die) (s : State) : exec (.supervisorTileFailure die) s = execSupervisorTileFailure die s := rfl
@[simp] theorem exec_failedFlit (link) (s : State) : exec (.failedFlit link) s = execFailedFlit link s := rfl
@[simp] theorem exec_commandWordStore (page) (word) (s : State) : exec (.commandWordStore page word) s = execCommandWordStore page word s := rfl
@[simp] theorem exec_pumpWriteBack (main) (dest) (s : State) : exec (.pumpWriteBack main dest) s = execPumpWriteBack main dest s := rfl

end Sys2Proof.Machine
end

