-- ==== Sys2Proof/Laws/State.lean ====
section
/-!
SUPPORT. Laws/State.lean: what each named update of a tile or of the machine leaves alone, one simp lemma per field and update, and what the
accessors read after it.
-/
namespace Sys2Proof.Machine

@[simp] theorem setPc_id (t : Tile) (n : Nat) : (setPc n t).id = t.id := rfl
@[simp] theorem setPc_place (t : Tile) (n : Nat) : (setPc n t).place = t.place := rfl
@[simp] theorem setPc_run (t : Tile) (n : Nat) : (setPc n t).run = t.run := rfl
@[simp] theorem setPc_code (t : Tile) (n : Nat) : (setPc n t).code = t.code := rfl
@[simp] theorem setPc_regs (t : Tile) (n : Nat) : (setPc n t).regs = t.regs := rfl
@[simp] theorem setPc_csr (t : Tile) (n : Nat) : (setPc n t).csr = t.csr := rfl
@[simp] theorem setPc_socks (t : Tile) (n : Nat) : (setPc n t).socks = t.socks := rfl
@[simp] theorem setPc_ctl (t : Tile) (n : Nat) : (setPc n t).ctl = t.ctl := rfl
@[simp] theorem setPc_streams (t : Tile) (n : Nat) : (setPc n t).streams = t.streams := rfl
@[simp] theorem setPc_mx (t : Tile) (n : Nat) : (setPc n t).mx = t.mx := rfl
@[simp] theorem setPc_qnt (t : Tile) (n : Nat) : (setPc n t).qnt = t.qnt := rfl
@[simp] theorem setPc_lw (t : Tile) (n : Nat) : (setPc n t).lw = t.lw := rfl
@[simp] theorem setPc_zero (t : Tile) (n : Nat) : (setPc n t).zero = t.zero := rfl
@[simp] theorem setPc_gm (t : Tile) (n : Nat) : (setPc n t).gm = t.gm := rfl
@[simp] theorem setPc_walk (t : Tile) (n : Nat) : (setPc n t).walk = t.walk := rfl
@[simp] theorem setPc_copies (t : Tile) (n : Nat) : (setPc n t).copies = t.copies := rfl
@[simp] theorem setPc_net (t : Tile) (n : Nat) : (setPc n t).net = t.net := rfl
@[simp] theorem setPc_sluices (t : Tile) (n : Nat) : (setPc n t).sluices = t.sluices := rfl
@[simp] theorem setPc_sems (t : Tile) (n : Nat) : (setPc n t).sems = t.sems := rfl
@[simp] theorem setPc_arrives (t : Tile) (n : Nat) : (setPc n t).arrives = t.arrives := rfl
@[simp] theorem setPc_table (t : Tile) (n : Nat) : (setPc n t).table = t.table := rfl
@[simp] theorem setPc_tt (t : Tile) (n : Nat) : (setPc n t).tt = t.tt := rfl
@[simp] theorem setPc_lnk (t : Tile) (n : Nat) : (setPc n t).lnk = t.lnk := rfl
@[simp] theorem setPc_know (t : Tile) (n : Nat) : (setPc n t).know = t.know := rfl
@[simp] theorem setPc_checked (t : Tile) (n : Nat) : (setPc n t).checked = t.checked := rfl
@[simp] theorem setPc_perf (t : Tile) (n : Nat) : (setPc n t).perf = t.perf := rfl
@[simp] theorem setPc_well (t : Tile) (n : Nat) : (setPc n t).well = t.well := rfl
@[simp] theorem setPc_wellPoison (t : Tile) (n : Nat) : (setPc n t).wellPoison = t.wellPoison := rfl
@[simp] theorem setPc_wheel (t : Tile) (n : Nat) : (setPc n t).wheel = t.wheel := rfl
@[simp] theorem setPc_serial (t : Tile) (n : Nat) : (setPc n t).serial = t.serial := rfl
@[simp] theorem setPc_prevCtx (t : Tile) (n : Nat) : (setPc n t).prevCtx = t.prevCtx := rfl

@[simp] theorem goOn_id (t : Tile) (n : Nat) : (goOn n t).id = t.id := rfl
@[simp] theorem goOn_place (t : Tile) (n : Nat) : (goOn n t).place = t.place := rfl
@[simp] theorem goOn_pc (t : Tile) (n : Nat) : (goOn n t).pc = t.pc := rfl
@[simp] theorem goOn_code (t : Tile) (n : Nat) : (goOn n t).code = t.code := rfl
@[simp] theorem goOn_regs (t : Tile) (n : Nat) : (goOn n t).regs = t.regs := rfl
@[simp] theorem goOn_csr (t : Tile) (n : Nat) : (goOn n t).csr = t.csr := rfl
@[simp] theorem goOn_socks (t : Tile) (n : Nat) : (goOn n t).socks = t.socks := rfl
@[simp] theorem goOn_ctl (t : Tile) (n : Nat) : (goOn n t).ctl = t.ctl := rfl
@[simp] theorem goOn_streams (t : Tile) (n : Nat) : (goOn n t).streams = t.streams := rfl
@[simp] theorem goOn_mx (t : Tile) (n : Nat) : (goOn n t).mx = t.mx := rfl
@[simp] theorem goOn_qnt (t : Tile) (n : Nat) : (goOn n t).qnt = t.qnt := rfl
@[simp] theorem goOn_lw (t : Tile) (n : Nat) : (goOn n t).lw = t.lw := rfl
@[simp] theorem goOn_zero (t : Tile) (n : Nat) : (goOn n t).zero = t.zero := rfl
@[simp] theorem goOn_gm (t : Tile) (n : Nat) : (goOn n t).gm = t.gm := rfl
@[simp] theorem goOn_walk (t : Tile) (n : Nat) : (goOn n t).walk = t.walk := rfl
@[simp] theorem goOn_copies (t : Tile) (n : Nat) : (goOn n t).copies = t.copies := rfl
@[simp] theorem goOn_net (t : Tile) (n : Nat) : (goOn n t).net = t.net := rfl
@[simp] theorem goOn_sluices (t : Tile) (n : Nat) : (goOn n t).sluices = t.sluices := rfl
@[simp] theorem goOn_sems (t : Tile) (n : Nat) : (goOn n t).sems = t.sems := rfl
@[simp] theorem goOn_arrives (t : Tile) (n : Nat) : (goOn n t).arrives = t.arrives := rfl
@[simp] theorem goOn_table (t : Tile) (n : Nat) : (goOn n t).table = t.table := rfl
@[simp] theorem goOn_tt (t : Tile) (n : Nat) : (goOn n t).tt = t.tt := rfl
@[simp] theorem goOn_lnk (t : Tile) (n : Nat) : (goOn n t).lnk = t.lnk := rfl
@[simp] theorem goOn_know (t : Tile) (n : Nat) : (goOn n t).know = t.know := rfl
@[simp] theorem goOn_checked (t : Tile) (n : Nat) : (goOn n t).checked = t.checked := rfl
@[simp] theorem goOn_perf (t : Tile) (n : Nat) : (goOn n t).perf = t.perf := rfl
@[simp] theorem goOn_well (t : Tile) (n : Nat) : (goOn n t).well = t.well := rfl
@[simp] theorem goOn_wellPoison (t : Tile) (n : Nat) : (goOn n t).wellPoison = t.wellPoison := rfl
@[simp] theorem goOn_wheel (t : Tile) (n : Nat) : (goOn n t).wheel = t.wheel := rfl
@[simp] theorem goOn_serial (t : Tile) (n : Nat) : (goOn n t).serial = t.serial := rfl
@[simp] theorem goOn_prevCtx (t : Tile) (n : Nat) : (goOn n t).prevCtx = t.prevCtx := rfl

@[simp] theorem putSock_id (t : Tile) (n : Nat) (k : Socket) : (putSock t n k).id = t.id := rfl
@[simp] theorem putSock_place (t : Tile) (n : Nat) (k : Socket) : (putSock t n k).place = t.place := rfl
@[simp] theorem putSock_run (t : Tile) (n : Nat) (k : Socket) : (putSock t n k).run = t.run := rfl
@[simp] theorem putSock_pc (t : Tile) (n : Nat) (k : Socket) : (putSock t n k).pc = t.pc := rfl
@[simp] theorem putSock_code (t : Tile) (n : Nat) (k : Socket) : (putSock t n k).code = t.code := rfl
@[simp] theorem putSock_regs (t : Tile) (n : Nat) (k : Socket) : (putSock t n k).regs = t.regs := rfl
@[simp] theorem putSock_csr (t : Tile) (n : Nat) (k : Socket) : (putSock t n k).csr = t.csr := rfl
@[simp] theorem putSock_ctl (t : Tile) (n : Nat) (k : Socket) : (putSock t n k).ctl = t.ctl := rfl
@[simp] theorem putSock_streams (t : Tile) (n : Nat) (k : Socket) : (putSock t n k).streams = t.streams := rfl
@[simp] theorem putSock_mx (t : Tile) (n : Nat) (k : Socket) : (putSock t n k).mx = t.mx := rfl
@[simp] theorem putSock_qnt (t : Tile) (n : Nat) (k : Socket) : (putSock t n k).qnt = t.qnt := rfl
@[simp] theorem putSock_lw (t : Tile) (n : Nat) (k : Socket) : (putSock t n k).lw = t.lw := rfl
@[simp] theorem putSock_zero (t : Tile) (n : Nat) (k : Socket) : (putSock t n k).zero = t.zero := rfl
@[simp] theorem putSock_gm (t : Tile) (n : Nat) (k : Socket) : (putSock t n k).gm = t.gm := rfl
@[simp] theorem putSock_walk (t : Tile) (n : Nat) (k : Socket) : (putSock t n k).walk = t.walk := rfl
@[simp] theorem putSock_copies (t : Tile) (n : Nat) (k : Socket) : (putSock t n k).copies = t.copies := rfl
@[simp] theorem putSock_net (t : Tile) (n : Nat) (k : Socket) : (putSock t n k).net = t.net := rfl
@[simp] theorem putSock_sluices (t : Tile) (n : Nat) (k : Socket) : (putSock t n k).sluices = t.sluices := rfl
@[simp] theorem putSock_sems (t : Tile) (n : Nat) (k : Socket) : (putSock t n k).sems = t.sems := rfl
@[simp] theorem putSock_arrives (t : Tile) (n : Nat) (k : Socket) : (putSock t n k).arrives = t.arrives := rfl
@[simp] theorem putSock_table (t : Tile) (n : Nat) (k : Socket) : (putSock t n k).table = t.table := rfl
@[simp] theorem putSock_tt (t : Tile) (n : Nat) (k : Socket) : (putSock t n k).tt = t.tt := rfl
@[simp] theorem putSock_lnk (t : Tile) (n : Nat) (k : Socket) : (putSock t n k).lnk = t.lnk := rfl
@[simp] theorem putSock_know (t : Tile) (n : Nat) (k : Socket) : (putSock t n k).know = t.know := rfl
@[simp] theorem putSock_checked (t : Tile) (n : Nat) (k : Socket) : (putSock t n k).checked = t.checked := rfl
@[simp] theorem putSock_perf (t : Tile) (n : Nat) (k : Socket) : (putSock t n k).perf = t.perf := rfl
@[simp] theorem putSock_well (t : Tile) (n : Nat) (k : Socket) : (putSock t n k).well = t.well := rfl
@[simp] theorem putSock_wellPoison (t : Tile) (n : Nat) (k : Socket) : (putSock t n k).wellPoison = t.wellPoison := rfl
@[simp] theorem putSock_wheel (t : Tile) (n : Nat) (k : Socket) : (putSock t n k).wheel = t.wheel := rfl
@[simp] theorem putSock_serial (t : Tile) (n : Nat) (k : Socket) : (putSock t n k).serial = t.serial := rfl
@[simp] theorem putSock_prevCtx (t : Tile) (n : Nat) (k : Socket) : (putSock t n k).prevCtx = t.prevCtx := rfl

@[simp] theorem putStatus_id (t : Tile) (i : Nat) (b : Bool) : (putStatus t i b).id = t.id := rfl
@[simp] theorem putStatus_place (t : Tile) (i : Nat) (b : Bool) : (putStatus t i b).place = t.place := rfl
@[simp] theorem putStatus_run (t : Tile) (i : Nat) (b : Bool) : (putStatus t i b).run = t.run := rfl
@[simp] theorem putStatus_pc (t : Tile) (i : Nat) (b : Bool) : (putStatus t i b).pc = t.pc := rfl
@[simp] theorem putStatus_code (t : Tile) (i : Nat) (b : Bool) : (putStatus t i b).code = t.code := rfl
@[simp] theorem putStatus_regs (t : Tile) (i : Nat) (b : Bool) : (putStatus t i b).regs = t.regs := rfl
@[simp] theorem putStatus_socks (t : Tile) (i : Nat) (b : Bool) : (putStatus t i b).socks = t.socks := rfl
@[simp] theorem putStatus_ctl (t : Tile) (i : Nat) (b : Bool) : (putStatus t i b).ctl = t.ctl := rfl
@[simp] theorem putStatus_streams (t : Tile) (i : Nat) (b : Bool) : (putStatus t i b).streams = t.streams := rfl
@[simp] theorem putStatus_mx (t : Tile) (i : Nat) (b : Bool) : (putStatus t i b).mx = t.mx := rfl
@[simp] theorem putStatus_qnt (t : Tile) (i : Nat) (b : Bool) : (putStatus t i b).qnt = t.qnt := rfl
@[simp] theorem putStatus_lw (t : Tile) (i : Nat) (b : Bool) : (putStatus t i b).lw = t.lw := rfl
@[simp] theorem putStatus_zero (t : Tile) (i : Nat) (b : Bool) : (putStatus t i b).zero = t.zero := rfl
@[simp] theorem putStatus_gm (t : Tile) (i : Nat) (b : Bool) : (putStatus t i b).gm = t.gm := rfl
@[simp] theorem putStatus_walk (t : Tile) (i : Nat) (b : Bool) : (putStatus t i b).walk = t.walk := rfl
@[simp] theorem putStatus_copies (t : Tile) (i : Nat) (b : Bool) : (putStatus t i b).copies = t.copies := rfl
@[simp] theorem putStatus_net (t : Tile) (i : Nat) (b : Bool) : (putStatus t i b).net = t.net := rfl
@[simp] theorem putStatus_sluices (t : Tile) (i : Nat) (b : Bool) : (putStatus t i b).sluices = t.sluices := rfl
@[simp] theorem putStatus_sems (t : Tile) (i : Nat) (b : Bool) : (putStatus t i b).sems = t.sems := rfl
@[simp] theorem putStatus_arrives (t : Tile) (i : Nat) (b : Bool) : (putStatus t i b).arrives = t.arrives := rfl
@[simp] theorem putStatus_table (t : Tile) (i : Nat) (b : Bool) : (putStatus t i b).table = t.table := rfl
@[simp] theorem putStatus_tt (t : Tile) (i : Nat) (b : Bool) : (putStatus t i b).tt = t.tt := rfl
@[simp] theorem putStatus_lnk (t : Tile) (i : Nat) (b : Bool) : (putStatus t i b).lnk = t.lnk := rfl
@[simp] theorem putStatus_know (t : Tile) (i : Nat) (b : Bool) : (putStatus t i b).know = t.know := rfl
@[simp] theorem putStatus_checked (t : Tile) (i : Nat) (b : Bool) : (putStatus t i b).checked = t.checked := rfl
@[simp] theorem putStatus_perf (t : Tile) (i : Nat) (b : Bool) : (putStatus t i b).perf = t.perf := rfl
@[simp] theorem putStatus_well (t : Tile) (i : Nat) (b : Bool) : (putStatus t i b).well = t.well := rfl
@[simp] theorem putStatus_wellPoison (t : Tile) (i : Nat) (b : Bool) : (putStatus t i b).wellPoison = t.wellPoison := rfl
@[simp] theorem putStatus_wheel (t : Tile) (i : Nat) (b : Bool) : (putStatus t i b).wheel = t.wheel := rfl
@[simp] theorem putStatus_serial (t : Tile) (i : Nat) (b : Bool) : (putStatus t i b).serial = t.serial := rfl
@[simp] theorem putStatus_prevCtx (t : Tile) (i : Nat) (b : Bool) : (putStatus t i b).prevCtx = t.prevCtx := rfl

@[simp] theorem addLate_id (t : Tile) (f : FaultInfo) : (addLate t f).id = t.id := rfl
@[simp] theorem addLate_place (t : Tile) (f : FaultInfo) : (addLate t f).place = t.place := rfl
@[simp] theorem addLate_run (t : Tile) (f : FaultInfo) : (addLate t f).run = t.run := rfl
@[simp] theorem addLate_pc (t : Tile) (f : FaultInfo) : (addLate t f).pc = t.pc := rfl
@[simp] theorem addLate_code (t : Tile) (f : FaultInfo) : (addLate t f).code = t.code := rfl
@[simp] theorem addLate_regs (t : Tile) (f : FaultInfo) : (addLate t f).regs = t.regs := rfl
@[simp] theorem addLate_csr (t : Tile) (f : FaultInfo) : (addLate t f).csr = t.csr := rfl
@[simp] theorem addLate_socks (t : Tile) (f : FaultInfo) : (addLate t f).socks = t.socks := rfl
@[simp] theorem addLate_streams (t : Tile) (f : FaultInfo) : (addLate t f).streams = t.streams := rfl
@[simp] theorem addLate_mx (t : Tile) (f : FaultInfo) : (addLate t f).mx = t.mx := rfl
@[simp] theorem addLate_qnt (t : Tile) (f : FaultInfo) : (addLate t f).qnt = t.qnt := rfl
@[simp] theorem addLate_lw (t : Tile) (f : FaultInfo) : (addLate t f).lw = t.lw := rfl
@[simp] theorem addLate_zero (t : Tile) (f : FaultInfo) : (addLate t f).zero = t.zero := rfl
@[simp] theorem addLate_gm (t : Tile) (f : FaultInfo) : (addLate t f).gm = t.gm := rfl
@[simp] theorem addLate_walk (t : Tile) (f : FaultInfo) : (addLate t f).walk = t.walk := rfl
@[simp] theorem addLate_copies (t : Tile) (f : FaultInfo) : (addLate t f).copies = t.copies := rfl
@[simp] theorem addLate_net (t : Tile) (f : FaultInfo) : (addLate t f).net = t.net := rfl
@[simp] theorem addLate_sluices (t : Tile) (f : FaultInfo) : (addLate t f).sluices = t.sluices := rfl
@[simp] theorem addLate_sems (t : Tile) (f : FaultInfo) : (addLate t f).sems = t.sems := rfl
@[simp] theorem addLate_arrives (t : Tile) (f : FaultInfo) : (addLate t f).arrives = t.arrives := rfl
@[simp] theorem addLate_table (t : Tile) (f : FaultInfo) : (addLate t f).table = t.table := rfl
@[simp] theorem addLate_tt (t : Tile) (f : FaultInfo) : (addLate t f).tt = t.tt := rfl
@[simp] theorem addLate_lnk (t : Tile) (f : FaultInfo) : (addLate t f).lnk = t.lnk := rfl
@[simp] theorem addLate_know (t : Tile) (f : FaultInfo) : (addLate t f).know = t.know := rfl
@[simp] theorem addLate_checked (t : Tile) (f : FaultInfo) : (addLate t f).checked = t.checked := rfl
@[simp] theorem addLate_perf (t : Tile) (f : FaultInfo) : (addLate t f).perf = t.perf := rfl
@[simp] theorem addLate_well (t : Tile) (f : FaultInfo) : (addLate t f).well = t.well := rfl
@[simp] theorem addLate_wellPoison (t : Tile) (f : FaultInfo) : (addLate t f).wellPoison = t.wellPoison := rfl
@[simp] theorem addLate_wheel (t : Tile) (f : FaultInfo) : (addLate t f).wheel = t.wheel := rfl
@[simp] theorem addLate_serial (t : Tile) (f : FaultInfo) : (addLate t f).serial = t.serial := rfl
@[simp] theorem addLate_prevCtx (t : Tile) (f : FaultInfo) : (addLate t f).prevCtx = t.prevCtx := rfl

@[simp] theorem addEvent_id (t : Tile) (c i : Nat) : (addEvent t c i).id = t.id := by unfold addEvent; split <;> rfl
@[simp] theorem addEvent_place (t : Tile) (c i : Nat) : (addEvent t c i).place = t.place := by unfold addEvent; split <;> rfl
@[simp] theorem addEvent_run (t : Tile) (c i : Nat) : (addEvent t c i).run = t.run := by unfold addEvent; split <;> rfl
@[simp] theorem addEvent_pc (t : Tile) (c i : Nat) : (addEvent t c i).pc = t.pc := by unfold addEvent; split <;> rfl
@[simp] theorem addEvent_code (t : Tile) (c i : Nat) : (addEvent t c i).code = t.code := by unfold addEvent; split <;> rfl
@[simp] theorem addEvent_regs (t : Tile) (c i : Nat) : (addEvent t c i).regs = t.regs := by unfold addEvent; split <;> rfl
@[simp] theorem addEvent_csr (t : Tile) (c i : Nat) : (addEvent t c i).csr = t.csr := by unfold addEvent; split <;> rfl
@[simp] theorem addEvent_socks (t : Tile) (c i : Nat) : (addEvent t c i).socks = t.socks := by unfold addEvent; split <;> rfl
@[simp] theorem addEvent_streams (t : Tile) (c i : Nat) : (addEvent t c i).streams = t.streams := by unfold addEvent; split <;> rfl
@[simp] theorem addEvent_mx (t : Tile) (c i : Nat) : (addEvent t c i).mx = t.mx := by unfold addEvent; split <;> rfl
@[simp] theorem addEvent_qnt (t : Tile) (c i : Nat) : (addEvent t c i).qnt = t.qnt := by unfold addEvent; split <;> rfl
@[simp] theorem addEvent_lw (t : Tile) (c i : Nat) : (addEvent t c i).lw = t.lw := by unfold addEvent; split <;> rfl
@[simp] theorem addEvent_zero (t : Tile) (c i : Nat) : (addEvent t c i).zero = t.zero := by unfold addEvent; split <;> rfl
@[simp] theorem addEvent_gm (t : Tile) (c i : Nat) : (addEvent t c i).gm = t.gm := by unfold addEvent; split <;> rfl
@[simp] theorem addEvent_walk (t : Tile) (c i : Nat) : (addEvent t c i).walk = t.walk := by unfold addEvent; split <;> rfl
@[simp] theorem addEvent_copies (t : Tile) (c i : Nat) : (addEvent t c i).copies = t.copies := by unfold addEvent; split <;> rfl
@[simp] theorem addEvent_net (t : Tile) (c i : Nat) : (addEvent t c i).net = t.net := by unfold addEvent; split <;> rfl
@[simp] theorem addEvent_sluices (t : Tile) (c i : Nat) : (addEvent t c i).sluices = t.sluices := by unfold addEvent; split <;> rfl
@[simp] theorem addEvent_sems (t : Tile) (c i : Nat) : (addEvent t c i).sems = t.sems := by unfold addEvent; split <;> rfl
@[simp] theorem addEvent_arrives (t : Tile) (c i : Nat) : (addEvent t c i).arrives = t.arrives := by unfold addEvent; split <;> rfl
@[simp] theorem addEvent_table (t : Tile) (c i : Nat) : (addEvent t c i).table = t.table := by unfold addEvent; split <;> rfl
@[simp] theorem addEvent_tt (t : Tile) (c i : Nat) : (addEvent t c i).tt = t.tt := by unfold addEvent; split <;> rfl
@[simp] theorem addEvent_lnk (t : Tile) (c i : Nat) : (addEvent t c i).lnk = t.lnk := by unfold addEvent; split <;> rfl
@[simp] theorem addEvent_know (t : Tile) (c i : Nat) : (addEvent t c i).know = t.know := by unfold addEvent; split <;> rfl
@[simp] theorem addEvent_checked (t : Tile) (c i : Nat) : (addEvent t c i).checked = t.checked := by unfold addEvent; split <;> rfl
@[simp] theorem addEvent_perf (t : Tile) (c i : Nat) : (addEvent t c i).perf = t.perf := by unfold addEvent; split <;> rfl
@[simp] theorem addEvent_well (t : Tile) (c i : Nat) : (addEvent t c i).well = t.well := by unfold addEvent; split <;> rfl
@[simp] theorem addEvent_wellPoison (t : Tile) (c i : Nat) : (addEvent t c i).wellPoison = t.wellPoison := by unfold addEvent; split <;> rfl
@[simp] theorem addEvent_wheel (t : Tile) (c i : Nat) : (addEvent t c i).wheel = t.wheel := by unfold addEvent; split <;> rfl
@[simp] theorem addEvent_serial (t : Tile) (c i : Nat) : (addEvent t c i).serial = t.serial := by unfold addEvent; split <;> rfl
@[simp] theorem addEvent_prevCtx (t : Tile) (c i : Nat) : (addEvent t c i).prevCtx = t.prevCtx := by unfold addEvent; split <;> rfl

@[simp] theorem putX_id (t : Tile) (i : Nat) (v : Word) : (putX t i v).id = t.id := by unfold putX; split <;> rfl
@[simp] theorem putX_place (t : Tile) (i : Nat) (v : Word) : (putX t i v).place = t.place := by unfold putX; split <;> rfl
@[simp] theorem putX_run (t : Tile) (i : Nat) (v : Word) : (putX t i v).run = t.run := by unfold putX; split <;> rfl
@[simp] theorem putX_pc (t : Tile) (i : Nat) (v : Word) : (putX t i v).pc = t.pc := by unfold putX; split <;> rfl
@[simp] theorem putX_code (t : Tile) (i : Nat) (v : Word) : (putX t i v).code = t.code := by unfold putX; split <;> rfl
@[simp] theorem putX_csr (t : Tile) (i : Nat) (v : Word) : (putX t i v).csr = t.csr := by unfold putX; split <;> rfl
@[simp] theorem putX_socks (t : Tile) (i : Nat) (v : Word) : (putX t i v).socks = t.socks := by unfold putX; split <;> rfl
@[simp] theorem putX_ctl (t : Tile) (i : Nat) (v : Word) : (putX t i v).ctl = t.ctl := by unfold putX; split <;> rfl
@[simp] theorem putX_streams (t : Tile) (i : Nat) (v : Word) : (putX t i v).streams = t.streams := by unfold putX; split <;> rfl
@[simp] theorem putX_mx (t : Tile) (i : Nat) (v : Word) : (putX t i v).mx = t.mx := by unfold putX; split <;> rfl
@[simp] theorem putX_qnt (t : Tile) (i : Nat) (v : Word) : (putX t i v).qnt = t.qnt := by unfold putX; split <;> rfl
@[simp] theorem putX_lw (t : Tile) (i : Nat) (v : Word) : (putX t i v).lw = t.lw := by unfold putX; split <;> rfl
@[simp] theorem putX_zero (t : Tile) (i : Nat) (v : Word) : (putX t i v).zero = t.zero := by unfold putX; split <;> rfl
@[simp] theorem putX_gm (t : Tile) (i : Nat) (v : Word) : (putX t i v).gm = t.gm := by unfold putX; split <;> rfl
@[simp] theorem putX_walk (t : Tile) (i : Nat) (v : Word) : (putX t i v).walk = t.walk := by unfold putX; split <;> rfl
@[simp] theorem putX_copies (t : Tile) (i : Nat) (v : Word) : (putX t i v).copies = t.copies := by unfold putX; split <;> rfl
@[simp] theorem putX_net (t : Tile) (i : Nat) (v : Word) : (putX t i v).net = t.net := by unfold putX; split <;> rfl
@[simp] theorem putX_sluices (t : Tile) (i : Nat) (v : Word) : (putX t i v).sluices = t.sluices := by unfold putX; split <;> rfl
@[simp] theorem putX_sems (t : Tile) (i : Nat) (v : Word) : (putX t i v).sems = t.sems := by unfold putX; split <;> rfl
@[simp] theorem putX_arrives (t : Tile) (i : Nat) (v : Word) : (putX t i v).arrives = t.arrives := by unfold putX; split <;> rfl
@[simp] theorem putX_table (t : Tile) (i : Nat) (v : Word) : (putX t i v).table = t.table := by unfold putX; split <;> rfl
@[simp] theorem putX_tt (t : Tile) (i : Nat) (v : Word) : (putX t i v).tt = t.tt := by unfold putX; split <;> rfl
@[simp] theorem putX_lnk (t : Tile) (i : Nat) (v : Word) : (putX t i v).lnk = t.lnk := by unfold putX; split <;> rfl
@[simp] theorem putX_know (t : Tile) (i : Nat) (v : Word) : (putX t i v).know = t.know := by unfold putX; split <;> rfl
@[simp] theorem putX_checked (t : Tile) (i : Nat) (v : Word) : (putX t i v).checked = t.checked := by unfold putX; split <;> rfl
@[simp] theorem putX_perf (t : Tile) (i : Nat) (v : Word) : (putX t i v).perf = t.perf := by unfold putX; split <;> rfl
@[simp] theorem putX_well (t : Tile) (i : Nat) (v : Word) : (putX t i v).well = t.well := by unfold putX; split <;> rfl
@[simp] theorem putX_wellPoison (t : Tile) (i : Nat) (v : Word) : (putX t i v).wellPoison = t.wellPoison := by unfold putX; split <;> rfl
@[simp] theorem putX_wheel (t : Tile) (i : Nat) (v : Word) : (putX t i v).wheel = t.wheel := by unfold putX; split <;> rfl
@[simp] theorem putX_serial (t : Tile) (i : Nat) (v : Word) : (putX t i v).serial = t.serial := by unfold putX; split <;> rfl
@[simp] theorem putX_prevCtx (t : Tile) (i : Nat) (v : Word) : (putX t i v).prevCtx = t.prevCtx := by unfold putX; split <;> rfl

@[simp] theorem putP_id (t : Tile) (i : Nat) (v : BitVec 2) : (putP t i v).id = t.id := by unfold putP; split <;> rfl
@[simp] theorem putP_place (t : Tile) (i : Nat) (v : BitVec 2) : (putP t i v).place = t.place := by unfold putP; split <;> rfl
@[simp] theorem putP_run (t : Tile) (i : Nat) (v : BitVec 2) : (putP t i v).run = t.run := by unfold putP; split <;> rfl
@[simp] theorem putP_pc (t : Tile) (i : Nat) (v : BitVec 2) : (putP t i v).pc = t.pc := by unfold putP; split <;> rfl
@[simp] theorem putP_code (t : Tile) (i : Nat) (v : BitVec 2) : (putP t i v).code = t.code := by unfold putP; split <;> rfl
@[simp] theorem putP_csr (t : Tile) (i : Nat) (v : BitVec 2) : (putP t i v).csr = t.csr := by unfold putP; split <;> rfl
@[simp] theorem putP_socks (t : Tile) (i : Nat) (v : BitVec 2) : (putP t i v).socks = t.socks := by unfold putP; split <;> rfl
@[simp] theorem putP_ctl (t : Tile) (i : Nat) (v : BitVec 2) : (putP t i v).ctl = t.ctl := by unfold putP; split <;> rfl
@[simp] theorem putP_streams (t : Tile) (i : Nat) (v : BitVec 2) : (putP t i v).streams = t.streams := by unfold putP; split <;> rfl
@[simp] theorem putP_mx (t : Tile) (i : Nat) (v : BitVec 2) : (putP t i v).mx = t.mx := by unfold putP; split <;> rfl
@[simp] theorem putP_qnt (t : Tile) (i : Nat) (v : BitVec 2) : (putP t i v).qnt = t.qnt := by unfold putP; split <;> rfl
@[simp] theorem putP_lw (t : Tile) (i : Nat) (v : BitVec 2) : (putP t i v).lw = t.lw := by unfold putP; split <;> rfl
@[simp] theorem putP_zero (t : Tile) (i : Nat) (v : BitVec 2) : (putP t i v).zero = t.zero := by unfold putP; split <;> rfl
@[simp] theorem putP_gm (t : Tile) (i : Nat) (v : BitVec 2) : (putP t i v).gm = t.gm := by unfold putP; split <;> rfl
@[simp] theorem putP_walk (t : Tile) (i : Nat) (v : BitVec 2) : (putP t i v).walk = t.walk := by unfold putP; split <;> rfl
@[simp] theorem putP_copies (t : Tile) (i : Nat) (v : BitVec 2) : (putP t i v).copies = t.copies := by unfold putP; split <;> rfl
@[simp] theorem putP_net (t : Tile) (i : Nat) (v : BitVec 2) : (putP t i v).net = t.net := by unfold putP; split <;> rfl
@[simp] theorem putP_sluices (t : Tile) (i : Nat) (v : BitVec 2) : (putP t i v).sluices = t.sluices := by unfold putP; split <;> rfl
@[simp] theorem putP_sems (t : Tile) (i : Nat) (v : BitVec 2) : (putP t i v).sems = t.sems := by unfold putP; split <;> rfl
@[simp] theorem putP_arrives (t : Tile) (i : Nat) (v : BitVec 2) : (putP t i v).arrives = t.arrives := by unfold putP; split <;> rfl
@[simp] theorem putP_table (t : Tile) (i : Nat) (v : BitVec 2) : (putP t i v).table = t.table := by unfold putP; split <;> rfl
@[simp] theorem putP_tt (t : Tile) (i : Nat) (v : BitVec 2) : (putP t i v).tt = t.tt := by unfold putP; split <;> rfl
@[simp] theorem putP_lnk (t : Tile) (i : Nat) (v : BitVec 2) : (putP t i v).lnk = t.lnk := by unfold putP; split <;> rfl
@[simp] theorem putP_know (t : Tile) (i : Nat) (v : BitVec 2) : (putP t i v).know = t.know := by unfold putP; split <;> rfl
@[simp] theorem putP_checked (t : Tile) (i : Nat) (v : BitVec 2) : (putP t i v).checked = t.checked := by unfold putP; split <;> rfl
@[simp] theorem putP_perf (t : Tile) (i : Nat) (v : BitVec 2) : (putP t i v).perf = t.perf := by unfold putP; split <;> rfl
@[simp] theorem putP_well (t : Tile) (i : Nat) (v : BitVec 2) : (putP t i v).well = t.well := by unfold putP; split <;> rfl
@[simp] theorem putP_wellPoison (t : Tile) (i : Nat) (v : BitVec 2) : (putP t i v).wellPoison = t.wellPoison := by unfold putP; split <;> rfl
@[simp] theorem putP_wheel (t : Tile) (i : Nat) (v : BitVec 2) : (putP t i v).wheel = t.wheel := by unfold putP; split <;> rfl
@[simp] theorem putP_serial (t : Tile) (i : Nat) (v : BitVec 2) : (putP t i v).serial = t.serial := by unfold putP; split <;> rfl
@[simp] theorem putP_prevCtx (t : Tile) (i : Nat) (v : BitVec 2) : (putP t i v).prevCtx = t.prevCtx := by unfold putP; split <;> rfl

@[simp] theorem setOperand_id (t : Tile) (k o : Nat) (v : Vec) (b : Bool) : (setOperand t k o v b).id = t.id := rfl
@[simp] theorem setOperand_place (t : Tile) (k o : Nat) (v : Vec) (b : Bool) : (setOperand t k o v b).place = t.place := rfl
@[simp] theorem setOperand_run (t : Tile) (k o : Nat) (v : Vec) (b : Bool) : (setOperand t k o v b).run = t.run := rfl
@[simp] theorem setOperand_pc (t : Tile) (k o : Nat) (v : Vec) (b : Bool) : (setOperand t k o v b).pc = t.pc := rfl
@[simp] theorem setOperand_code (t : Tile) (k o : Nat) (v : Vec) (b : Bool) : (setOperand t k o v b).code = t.code := rfl
@[simp] theorem setOperand_regs (t : Tile) (k o : Nat) (v : Vec) (b : Bool) : (setOperand t k o v b).regs = t.regs := rfl
@[simp] theorem setOperand_csr (t : Tile) (k o : Nat) (v : Vec) (b : Bool) : (setOperand t k o v b).csr = t.csr := rfl
@[simp] theorem setOperand_ctl (t : Tile) (k o : Nat) (v : Vec) (b : Bool) : (setOperand t k o v b).ctl = t.ctl := rfl
@[simp] theorem setOperand_streams (t : Tile) (k o : Nat) (v : Vec) (b : Bool) : (setOperand t k o v b).streams = t.streams := rfl
@[simp] theorem setOperand_mx (t : Tile) (k o : Nat) (v : Vec) (b : Bool) : (setOperand t k o v b).mx = t.mx := rfl
@[simp] theorem setOperand_qnt (t : Tile) (k o : Nat) (v : Vec) (b : Bool) : (setOperand t k o v b).qnt = t.qnt := rfl
@[simp] theorem setOperand_lw (t : Tile) (k o : Nat) (v : Vec) (b : Bool) : (setOperand t k o v b).lw = t.lw := rfl
@[simp] theorem setOperand_zero (t : Tile) (k o : Nat) (v : Vec) (b : Bool) : (setOperand t k o v b).zero = t.zero := rfl
@[simp] theorem setOperand_gm (t : Tile) (k o : Nat) (v : Vec) (b : Bool) : (setOperand t k o v b).gm = t.gm := rfl
@[simp] theorem setOperand_walk (t : Tile) (k o : Nat) (v : Vec) (b : Bool) : (setOperand t k o v b).walk = t.walk := rfl
@[simp] theorem setOperand_copies (t : Tile) (k o : Nat) (v : Vec) (b : Bool) : (setOperand t k o v b).copies = t.copies := rfl
@[simp] theorem setOperand_net (t : Tile) (k o : Nat) (v : Vec) (b : Bool) : (setOperand t k o v b).net = t.net := rfl
@[simp] theorem setOperand_sluices (t : Tile) (k o : Nat) (v : Vec) (b : Bool) : (setOperand t k o v b).sluices = t.sluices := rfl
@[simp] theorem setOperand_sems (t : Tile) (k o : Nat) (v : Vec) (b : Bool) : (setOperand t k o v b).sems = t.sems := rfl
@[simp] theorem setOperand_arrives (t : Tile) (k o : Nat) (v : Vec) (b : Bool) : (setOperand t k o v b).arrives = t.arrives := rfl
@[simp] theorem setOperand_table (t : Tile) (k o : Nat) (v : Vec) (b : Bool) : (setOperand t k o v b).table = t.table := rfl
@[simp] theorem setOperand_tt (t : Tile) (k o : Nat) (v : Vec) (b : Bool) : (setOperand t k o v b).tt = t.tt := rfl
@[simp] theorem setOperand_lnk (t : Tile) (k o : Nat) (v : Vec) (b : Bool) : (setOperand t k o v b).lnk = t.lnk := rfl
@[simp] theorem setOperand_know (t : Tile) (k o : Nat) (v : Vec) (b : Bool) : (setOperand t k o v b).know = t.know := rfl
@[simp] theorem setOperand_checked (t : Tile) (k o : Nat) (v : Vec) (b : Bool) : (setOperand t k o v b).checked = t.checked := rfl
@[simp] theorem setOperand_perf (t : Tile) (k o : Nat) (v : Vec) (b : Bool) : (setOperand t k o v b).perf = t.perf := rfl
@[simp] theorem setOperand_well (t : Tile) (k o : Nat) (v : Vec) (b : Bool) : (setOperand t k o v b).well = t.well := rfl
@[simp] theorem setOperand_wellPoison (t : Tile) (k o : Nat) (v : Vec) (b : Bool) : (setOperand t k o v b).wellPoison = t.wellPoison := rfl
@[simp] theorem setOperand_wheel (t : Tile) (k o : Nat) (v : Vec) (b : Bool) : (setOperand t k o v b).wheel = t.wheel := rfl
@[simp] theorem setOperand_serial (t : Tile) (k o : Nat) (v : Vec) (b : Bool) : (setOperand t k o v b).serial = t.serial := rfl
@[simp] theorem setOperand_prevCtx (t : Tile) (k o : Nat) (v : Vec) (b : Bool) : (setOperand t k o v b).prevCtx = t.prevCtx := rfl

@[simp] theorem deliver_id (t : Tile) (k c y l : Nat) (v : Vec) (q : Option Vec) : (deliver t k c y l v q).id = t.id := rfl
@[simp] theorem deliver_place (t : Tile) (k c y l : Nat) (v : Vec) (q : Option Vec) : (deliver t k c y l v q).place = t.place := rfl
@[simp] theorem deliver_run (t : Tile) (k c y l : Nat) (v : Vec) (q : Option Vec) : (deliver t k c y l v q).run = t.run := rfl
@[simp] theorem deliver_pc (t : Tile) (k c y l : Nat) (v : Vec) (q : Option Vec) : (deliver t k c y l v q).pc = t.pc := rfl
@[simp] theorem deliver_code (t : Tile) (k c y l : Nat) (v : Vec) (q : Option Vec) : (deliver t k c y l v q).code = t.code := rfl
@[simp] theorem deliver_regs (t : Tile) (k c y l : Nat) (v : Vec) (q : Option Vec) : (deliver t k c y l v q).regs = t.regs := rfl
@[simp] theorem deliver_csr (t : Tile) (k c y l : Nat) (v : Vec) (q : Option Vec) : (deliver t k c y l v q).csr = t.csr := rfl
@[simp] theorem deliver_ctl (t : Tile) (k c y l : Nat) (v : Vec) (q : Option Vec) : (deliver t k c y l v q).ctl = t.ctl := rfl
@[simp] theorem deliver_streams (t : Tile) (k c y l : Nat) (v : Vec) (q : Option Vec) : (deliver t k c y l v q).streams = t.streams := rfl
@[simp] theorem deliver_mx (t : Tile) (k c y l : Nat) (v : Vec) (q : Option Vec) : (deliver t k c y l v q).mx = t.mx := rfl
@[simp] theorem deliver_qnt (t : Tile) (k c y l : Nat) (v : Vec) (q : Option Vec) : (deliver t k c y l v q).qnt = t.qnt := rfl
@[simp] theorem deliver_lw (t : Tile) (k c y l : Nat) (v : Vec) (q : Option Vec) : (deliver t k c y l v q).lw = t.lw := rfl
@[simp] theorem deliver_zero (t : Tile) (k c y l : Nat) (v : Vec) (q : Option Vec) : (deliver t k c y l v q).zero = t.zero := rfl
@[simp] theorem deliver_gm (t : Tile) (k c y l : Nat) (v : Vec) (q : Option Vec) : (deliver t k c y l v q).gm = t.gm := rfl
@[simp] theorem deliver_walk (t : Tile) (k c y l : Nat) (v : Vec) (q : Option Vec) : (deliver t k c y l v q).walk = t.walk := rfl
@[simp] theorem deliver_copies (t : Tile) (k c y l : Nat) (v : Vec) (q : Option Vec) : (deliver t k c y l v q).copies = t.copies := rfl
@[simp] theorem deliver_net (t : Tile) (k c y l : Nat) (v : Vec) (q : Option Vec) : (deliver t k c y l v q).net = t.net := rfl
@[simp] theorem deliver_sluices (t : Tile) (k c y l : Nat) (v : Vec) (q : Option Vec) : (deliver t k c y l v q).sluices = t.sluices := rfl
@[simp] theorem deliver_sems (t : Tile) (k c y l : Nat) (v : Vec) (q : Option Vec) : (deliver t k c y l v q).sems = t.sems := rfl
@[simp] theorem deliver_arrives (t : Tile) (k c y l : Nat) (v : Vec) (q : Option Vec) : (deliver t k c y l v q).arrives = t.arrives := rfl
@[simp] theorem deliver_table (t : Tile) (k c y l : Nat) (v : Vec) (q : Option Vec) : (deliver t k c y l v q).table = t.table := rfl
@[simp] theorem deliver_tt (t : Tile) (k c y l : Nat) (v : Vec) (q : Option Vec) : (deliver t k c y l v q).tt = t.tt := rfl
@[simp] theorem deliver_lnk (t : Tile) (k c y l : Nat) (v : Vec) (q : Option Vec) : (deliver t k c y l v q).lnk = t.lnk := rfl
@[simp] theorem deliver_know (t : Tile) (k c y l : Nat) (v : Vec) (q : Option Vec) : (deliver t k c y l v q).know = t.know := rfl
@[simp] theorem deliver_checked (t : Tile) (k c y l : Nat) (v : Vec) (q : Option Vec) : (deliver t k c y l v q).checked = t.checked := rfl
@[simp] theorem deliver_perf (t : Tile) (k c y l : Nat) (v : Vec) (q : Option Vec) : (deliver t k c y l v q).perf = t.perf := rfl
@[simp] theorem deliver_well (t : Tile) (k c y l : Nat) (v : Vec) (q : Option Vec) : (deliver t k c y l v q).well = t.well := rfl
@[simp] theorem deliver_wellPoison (t : Tile) (k c y l : Nat) (v : Vec) (q : Option Vec) : (deliver t k c y l v q).wellPoison = t.wellPoison := rfl
@[simp] theorem deliver_wheel (t : Tile) (k c y l : Nat) (v : Vec) (q : Option Vec) : (deliver t k c y l v q).wheel = t.wheel := rfl
@[simp] theorem deliver_serial (t : Tile) (k c y l : Nat) (v : Vec) (q : Option Vec) : (deliver t k c y l v q).serial = t.serial := rfl
@[simp] theorem deliver_prevCtx (t : Tile) (k c y l : Nat) (v : Vec) (q : Option Vec) : (deliver t k c y l v q).prevCtx = t.prevCtx := rfl

@[simp] theorem awaitOn_id (t : Tile) (k y n : Nat) : (awaitOn t k y n).id = t.id := rfl
@[simp] theorem awaitOn_place (t : Tile) (k y n : Nat) : (awaitOn t k y n).place = t.place := rfl
@[simp] theorem awaitOn_run (t : Tile) (k y n : Nat) : (awaitOn t k y n).run = t.run := rfl
@[simp] theorem awaitOn_pc (t : Tile) (k y n : Nat) : (awaitOn t k y n).pc = t.pc := rfl
@[simp] theorem awaitOn_code (t : Tile) (k y n : Nat) : (awaitOn t k y n).code = t.code := rfl
@[simp] theorem awaitOn_regs (t : Tile) (k y n : Nat) : (awaitOn t k y n).regs = t.regs := rfl
@[simp] theorem awaitOn_csr (t : Tile) (k y n : Nat) : (awaitOn t k y n).csr = t.csr := rfl
@[simp] theorem awaitOn_ctl (t : Tile) (k y n : Nat) : (awaitOn t k y n).ctl = t.ctl := rfl
@[simp] theorem awaitOn_streams (t : Tile) (k y n : Nat) : (awaitOn t k y n).streams = t.streams := rfl
@[simp] theorem awaitOn_mx (t : Tile) (k y n : Nat) : (awaitOn t k y n).mx = t.mx := rfl
@[simp] theorem awaitOn_qnt (t : Tile) (k y n : Nat) : (awaitOn t k y n).qnt = t.qnt := rfl
@[simp] theorem awaitOn_lw (t : Tile) (k y n : Nat) : (awaitOn t k y n).lw = t.lw := rfl
@[simp] theorem awaitOn_zero (t : Tile) (k y n : Nat) : (awaitOn t k y n).zero = t.zero := rfl
@[simp] theorem awaitOn_gm (t : Tile) (k y n : Nat) : (awaitOn t k y n).gm = t.gm := rfl
@[simp] theorem awaitOn_walk (t : Tile) (k y n : Nat) : (awaitOn t k y n).walk = t.walk := rfl
@[simp] theorem awaitOn_copies (t : Tile) (k y n : Nat) : (awaitOn t k y n).copies = t.copies := rfl
@[simp] theorem awaitOn_net (t : Tile) (k y n : Nat) : (awaitOn t k y n).net = t.net := rfl
@[simp] theorem awaitOn_sluices (t : Tile) (k y n : Nat) : (awaitOn t k y n).sluices = t.sluices := rfl
@[simp] theorem awaitOn_sems (t : Tile) (k y n : Nat) : (awaitOn t k y n).sems = t.sems := rfl
@[simp] theorem awaitOn_arrives (t : Tile) (k y n : Nat) : (awaitOn t k y n).arrives = t.arrives := rfl
@[simp] theorem awaitOn_table (t : Tile) (k y n : Nat) : (awaitOn t k y n).table = t.table := rfl
@[simp] theorem awaitOn_tt (t : Tile) (k y n : Nat) : (awaitOn t k y n).tt = t.tt := rfl
@[simp] theorem awaitOn_lnk (t : Tile) (k y n : Nat) : (awaitOn t k y n).lnk = t.lnk := rfl
@[simp] theorem awaitOn_know (t : Tile) (k y n : Nat) : (awaitOn t k y n).know = t.know := rfl
@[simp] theorem awaitOn_checked (t : Tile) (k y n : Nat) : (awaitOn t k y n).checked = t.checked := rfl
@[simp] theorem awaitOn_perf (t : Tile) (k y n : Nat) : (awaitOn t k y n).perf = t.perf := rfl
@[simp] theorem awaitOn_well (t : Tile) (k y n : Nat) : (awaitOn t k y n).well = t.well := rfl
@[simp] theorem awaitOn_wellPoison (t : Tile) (k y n : Nat) : (awaitOn t k y n).wellPoison = t.wellPoison := rfl
@[simp] theorem awaitOn_wheel (t : Tile) (k y n : Nat) : (awaitOn t k y n).wheel = t.wheel := rfl
@[simp] theorem awaitOn_serial (t : Tile) (k y n : Nat) : (awaitOn t k y n).serial = t.serial := rfl
@[simp] theorem awaitOn_prevCtx (t : Tile) (k y n : Nat) : (awaitOn t k y n).prevCtx = t.prevCtx := rfl

@[simp] theorem answerOn_id (t : Tile) (k y n l : Nat) (v : Vec) : (answerOn t k y n l v).id = t.id := rfl
@[simp] theorem answerOn_place (t : Tile) (k y n l : Nat) (v : Vec) : (answerOn t k y n l v).place = t.place := rfl
@[simp] theorem answerOn_run (t : Tile) (k y n l : Nat) (v : Vec) : (answerOn t k y n l v).run = t.run := rfl
@[simp] theorem answerOn_pc (t : Tile) (k y n l : Nat) (v : Vec) : (answerOn t k y n l v).pc = t.pc := rfl
@[simp] theorem answerOn_code (t : Tile) (k y n l : Nat) (v : Vec) : (answerOn t k y n l v).code = t.code := rfl
@[simp] theorem answerOn_regs (t : Tile) (k y n l : Nat) (v : Vec) : (answerOn t k y n l v).regs = t.regs := rfl
@[simp] theorem answerOn_csr (t : Tile) (k y n l : Nat) (v : Vec) : (answerOn t k y n l v).csr = t.csr := rfl
@[simp] theorem answerOn_ctl (t : Tile) (k y n l : Nat) (v : Vec) : (answerOn t k y n l v).ctl = t.ctl := rfl
@[simp] theorem answerOn_streams (t : Tile) (k y n l : Nat) (v : Vec) : (answerOn t k y n l v).streams = t.streams := rfl
@[simp] theorem answerOn_mx (t : Tile) (k y n l : Nat) (v : Vec) : (answerOn t k y n l v).mx = t.mx := rfl
@[simp] theorem answerOn_qnt (t : Tile) (k y n l : Nat) (v : Vec) : (answerOn t k y n l v).qnt = t.qnt := rfl
@[simp] theorem answerOn_lw (t : Tile) (k y n l : Nat) (v : Vec) : (answerOn t k y n l v).lw = t.lw := rfl
@[simp] theorem answerOn_zero (t : Tile) (k y n l : Nat) (v : Vec) : (answerOn t k y n l v).zero = t.zero := rfl
@[simp] theorem answerOn_gm (t : Tile) (k y n l : Nat) (v : Vec) : (answerOn t k y n l v).gm = t.gm := rfl
@[simp] theorem answerOn_walk (t : Tile) (k y n l : Nat) (v : Vec) : (answerOn t k y n l v).walk = t.walk := rfl
@[simp] theorem answerOn_copies (t : Tile) (k y n l : Nat) (v : Vec) : (answerOn t k y n l v).copies = t.copies := rfl
@[simp] theorem answerOn_net (t : Tile) (k y n l : Nat) (v : Vec) : (answerOn t k y n l v).net = t.net := rfl
@[simp] theorem answerOn_sluices (t : Tile) (k y n l : Nat) (v : Vec) : (answerOn t k y n l v).sluices = t.sluices := rfl
@[simp] theorem answerOn_sems (t : Tile) (k y n l : Nat) (v : Vec) : (answerOn t k y n l v).sems = t.sems := rfl
@[simp] theorem answerOn_arrives (t : Tile) (k y n l : Nat) (v : Vec) : (answerOn t k y n l v).arrives = t.arrives := rfl
@[simp] theorem answerOn_table (t : Tile) (k y n l : Nat) (v : Vec) : (answerOn t k y n l v).table = t.table := rfl
@[simp] theorem answerOn_tt (t : Tile) (k y n l : Nat) (v : Vec) : (answerOn t k y n l v).tt = t.tt := rfl
@[simp] theorem answerOn_lnk (t : Tile) (k y n l : Nat) (v : Vec) : (answerOn t k y n l v).lnk = t.lnk := rfl
@[simp] theorem answerOn_know (t : Tile) (k y n l : Nat) (v : Vec) : (answerOn t k y n l v).know = t.know := rfl
@[simp] theorem answerOn_checked (t : Tile) (k y n l : Nat) (v : Vec) : (answerOn t k y n l v).checked = t.checked := rfl
@[simp] theorem answerOn_perf (t : Tile) (k y n l : Nat) (v : Vec) : (answerOn t k y n l v).perf = t.perf := rfl
@[simp] theorem answerOn_well (t : Tile) (k y n l : Nat) (v : Vec) : (answerOn t k y n l v).well = t.well := rfl
@[simp] theorem answerOn_wellPoison (t : Tile) (k y n l : Nat) (v : Vec) : (answerOn t k y n l v).wellPoison = t.wellPoison := rfl
@[simp] theorem answerOn_wheel (t : Tile) (k y n l : Nat) (v : Vec) : (answerOn t k y n l v).wheel = t.wheel := rfl
@[simp] theorem answerOn_serial (t : Tile) (k y n l : Nat) (v : Vec) : (answerOn t k y n l v).serial = t.serial := rfl
@[simp] theorem answerOn_prevCtx (t : Tile) (k y n l : Nat) (v : Vec) : (answerOn t k y n l v).prevCtx = t.prevCtx := rfl

@[simp] theorem dropOn_id (t : Tile) (k y n : Nat) : (dropOn t k y n).id = t.id := rfl
@[simp] theorem dropOn_place (t : Tile) (k y n : Nat) : (dropOn t k y n).place = t.place := rfl
@[simp] theorem dropOn_run (t : Tile) (k y n : Nat) : (dropOn t k y n).run = t.run := rfl
@[simp] theorem dropOn_pc (t : Tile) (k y n : Nat) : (dropOn t k y n).pc = t.pc := rfl
@[simp] theorem dropOn_code (t : Tile) (k y n : Nat) : (dropOn t k y n).code = t.code := rfl
@[simp] theorem dropOn_regs (t : Tile) (k y n : Nat) : (dropOn t k y n).regs = t.regs := rfl
@[simp] theorem dropOn_csr (t : Tile) (k y n : Nat) : (dropOn t k y n).csr = t.csr := rfl
@[simp] theorem dropOn_ctl (t : Tile) (k y n : Nat) : (dropOn t k y n).ctl = t.ctl := rfl
@[simp] theorem dropOn_streams (t : Tile) (k y n : Nat) : (dropOn t k y n).streams = t.streams := rfl
@[simp] theorem dropOn_mx (t : Tile) (k y n : Nat) : (dropOn t k y n).mx = t.mx := rfl
@[simp] theorem dropOn_qnt (t : Tile) (k y n : Nat) : (dropOn t k y n).qnt = t.qnt := rfl
@[simp] theorem dropOn_lw (t : Tile) (k y n : Nat) : (dropOn t k y n).lw = t.lw := rfl
@[simp] theorem dropOn_zero (t : Tile) (k y n : Nat) : (dropOn t k y n).zero = t.zero := rfl
@[simp] theorem dropOn_gm (t : Tile) (k y n : Nat) : (dropOn t k y n).gm = t.gm := rfl
@[simp] theorem dropOn_walk (t : Tile) (k y n : Nat) : (dropOn t k y n).walk = t.walk := rfl
@[simp] theorem dropOn_copies (t : Tile) (k y n : Nat) : (dropOn t k y n).copies = t.copies := rfl
@[simp] theorem dropOn_net (t : Tile) (k y n : Nat) : (dropOn t k y n).net = t.net := rfl
@[simp] theorem dropOn_sluices (t : Tile) (k y n : Nat) : (dropOn t k y n).sluices = t.sluices := rfl
@[simp] theorem dropOn_sems (t : Tile) (k y n : Nat) : (dropOn t k y n).sems = t.sems := rfl
@[simp] theorem dropOn_arrives (t : Tile) (k y n : Nat) : (dropOn t k y n).arrives = t.arrives := rfl
@[simp] theorem dropOn_table (t : Tile) (k y n : Nat) : (dropOn t k y n).table = t.table := rfl
@[simp] theorem dropOn_tt (t : Tile) (k y n : Nat) : (dropOn t k y n).tt = t.tt := rfl
@[simp] theorem dropOn_lnk (t : Tile) (k y n : Nat) : (dropOn t k y n).lnk = t.lnk := rfl
@[simp] theorem dropOn_know (t : Tile) (k y n : Nat) : (dropOn t k y n).know = t.know := rfl
@[simp] theorem dropOn_checked (t : Tile) (k y n : Nat) : (dropOn t k y n).checked = t.checked := rfl
@[simp] theorem dropOn_perf (t : Tile) (k y n : Nat) : (dropOn t k y n).perf = t.perf := rfl
@[simp] theorem dropOn_well (t : Tile) (k y n : Nat) : (dropOn t k y n).well = t.well := rfl
@[simp] theorem dropOn_wellPoison (t : Tile) (k y n : Nat) : (dropOn t k y n).wellPoison = t.wellPoison := rfl
@[simp] theorem dropOn_wheel (t : Tile) (k y n : Nat) : (dropOn t k y n).wheel = t.wheel := rfl
@[simp] theorem dropOn_serial (t : Tile) (k y n : Nat) : (dropOn t k y n).serial = t.serial := rfl
@[simp] theorem dropOn_prevCtx (t : Tile) (k y n : Nat) : (dropOn t k y n).prevCtx = t.prevCtx := rfl

@[simp] theorem queueFmt_id (t : Tile) (f v : Nat) : (queueFmt t f v).id = t.id := rfl
@[simp] theorem queueFmt_place (t : Tile) (f v : Nat) : (queueFmt t f v).place = t.place := rfl
@[simp] theorem queueFmt_run (t : Tile) (f v : Nat) : (queueFmt t f v).run = t.run := rfl
@[simp] theorem queueFmt_pc (t : Tile) (f v : Nat) : (queueFmt t f v).pc = t.pc := rfl
@[simp] theorem queueFmt_code (t : Tile) (f v : Nat) : (queueFmt t f v).code = t.code := rfl
@[simp] theorem queueFmt_regs (t : Tile) (f v : Nat) : (queueFmt t f v).regs = t.regs := rfl
@[simp] theorem queueFmt_csr (t : Tile) (f v : Nat) : (queueFmt t f v).csr = t.csr := rfl
@[simp] theorem queueFmt_socks (t : Tile) (f v : Nat) : (queueFmt t f v).socks = t.socks := rfl
@[simp] theorem queueFmt_streams (t : Tile) (f v : Nat) : (queueFmt t f v).streams = t.streams := rfl
@[simp] theorem queueFmt_mx (t : Tile) (f v : Nat) : (queueFmt t f v).mx = t.mx := rfl
@[simp] theorem queueFmt_qnt (t : Tile) (f v : Nat) : (queueFmt t f v).qnt = t.qnt := rfl
@[simp] theorem queueFmt_lw (t : Tile) (f v : Nat) : (queueFmt t f v).lw = t.lw := rfl
@[simp] theorem queueFmt_zero (t : Tile) (f v : Nat) : (queueFmt t f v).zero = t.zero := rfl
@[simp] theorem queueFmt_gm (t : Tile) (f v : Nat) : (queueFmt t f v).gm = t.gm := rfl
@[simp] theorem queueFmt_walk (t : Tile) (f v : Nat) : (queueFmt t f v).walk = t.walk := rfl
@[simp] theorem queueFmt_copies (t : Tile) (f v : Nat) : (queueFmt t f v).copies = t.copies := rfl
@[simp] theorem queueFmt_net (t : Tile) (f v : Nat) : (queueFmt t f v).net = t.net := rfl
@[simp] theorem queueFmt_sluices (t : Tile) (f v : Nat) : (queueFmt t f v).sluices = t.sluices := rfl
@[simp] theorem queueFmt_sems (t : Tile) (f v : Nat) : (queueFmt t f v).sems = t.sems := rfl
@[simp] theorem queueFmt_arrives (t : Tile) (f v : Nat) : (queueFmt t f v).arrives = t.arrives := rfl
@[simp] theorem queueFmt_table (t : Tile) (f v : Nat) : (queueFmt t f v).table = t.table := rfl
@[simp] theorem queueFmt_tt (t : Tile) (f v : Nat) : (queueFmt t f v).tt = t.tt := rfl
@[simp] theorem queueFmt_lnk (t : Tile) (f v : Nat) : (queueFmt t f v).lnk = t.lnk := rfl
@[simp] theorem queueFmt_know (t : Tile) (f v : Nat) : (queueFmt t f v).know = t.know := rfl
@[simp] theorem queueFmt_checked (t : Tile) (f v : Nat) : (queueFmt t f v).checked = t.checked := rfl
@[simp] theorem queueFmt_perf (t : Tile) (f v : Nat) : (queueFmt t f v).perf = t.perf := rfl
@[simp] theorem queueFmt_well (t : Tile) (f v : Nat) : (queueFmt t f v).well = t.well := rfl
@[simp] theorem queueFmt_wellPoison (t : Tile) (f v : Nat) : (queueFmt t f v).wellPoison = t.wellPoison := rfl
@[simp] theorem queueFmt_wheel (t : Tile) (f v : Nat) : (queueFmt t f v).wheel = t.wheel := rfl
@[simp] theorem queueFmt_serial (t : Tile) (f v : Nat) : (queueFmt t f v).serial = t.serial := rfl
@[simp] theorem queueFmt_prevCtx (t : Tile) (f v : Nat) : (queueFmt t f v).prevCtx = t.prevCtx := rfl

@[simp] theorem stopTile_id (t : Tile) (r : Run) : (stopTile r t).id = t.id := rfl
@[simp] theorem stopTile_place (t : Tile) (r : Run) : (stopTile r t).place = t.place := rfl
@[simp] theorem stopTile_pc (t : Tile) (r : Run) : (stopTile r t).pc = t.pc := rfl
@[simp] theorem stopTile_code (t : Tile) (r : Run) : (stopTile r t).code = t.code := rfl
@[simp] theorem stopTile_regs (t : Tile) (r : Run) : (stopTile r t).regs = t.regs := rfl
@[simp] theorem stopTile_csr (t : Tile) (r : Run) : (stopTile r t).csr = t.csr := rfl
@[simp] theorem stopTile_socks (t : Tile) (r : Run) : (stopTile r t).socks = t.socks := rfl
@[simp] theorem stopTile_ctl (t : Tile) (r : Run) : (stopTile r t).ctl = t.ctl := rfl
@[simp] theorem stopTile_streams (t : Tile) (r : Run) : (stopTile r t).streams = t.streams := rfl
@[simp] theorem stopTile_mx (t : Tile) (r : Run) : (stopTile r t).mx = t.mx := rfl
@[simp] theorem stopTile_qnt (t : Tile) (r : Run) : (stopTile r t).qnt = t.qnt := rfl
@[simp] theorem stopTile_lw (t : Tile) (r : Run) : (stopTile r t).lw = t.lw := rfl
@[simp] theorem stopTile_zero (t : Tile) (r : Run) : (stopTile r t).zero = t.zero := rfl
@[simp] theorem stopTile_gm (t : Tile) (r : Run) : (stopTile r t).gm = t.gm := rfl
@[simp] theorem stopTile_walk (t : Tile) (r : Run) : (stopTile r t).walk = t.walk := rfl
@[simp] theorem stopTile_sluices (t : Tile) (r : Run) : (stopTile r t).sluices = t.sluices := rfl
@[simp] theorem stopTile_sems (t : Tile) (r : Run) : (stopTile r t).sems = t.sems := rfl
@[simp] theorem stopTile_arrives (t : Tile) (r : Run) : (stopTile r t).arrives = t.arrives := rfl
@[simp] theorem stopTile_table (t : Tile) (r : Run) : (stopTile r t).table = t.table := rfl
@[simp] theorem stopTile_tt (t : Tile) (r : Run) : (stopTile r t).tt = t.tt := rfl
@[simp] theorem stopTile_lnk (t : Tile) (r : Run) : (stopTile r t).lnk = t.lnk := rfl
@[simp] theorem stopTile_know (t : Tile) (r : Run) : (stopTile r t).know = t.know := rfl
@[simp] theorem stopTile_checked (t : Tile) (r : Run) : (stopTile r t).checked = t.checked := rfl
@[simp] theorem stopTile_perf (t : Tile) (r : Run) : (stopTile r t).perf = t.perf := rfl
@[simp] theorem stopTile_well (t : Tile) (r : Run) : (stopTile r t).well = t.well := rfl
@[simp] theorem stopTile_wellPoison (t : Tile) (r : Run) : (stopTile r t).wellPoison = t.wellPoison := rfl
@[simp] theorem stopTile_wheel (t : Tile) (r : Run) : (stopTile r t).wheel = t.wheel := rfl
@[simp] theorem stopTile_serial (t : Tile) (r : Run) : (stopTile r t).serial = t.serial := rfl
@[simp] theorem stopTile_prevCtx (t : Tile) (r : Run) : (stopTile r t).prevCtx = t.prevCtx := rfl

@[simp] theorem enterSystem_id (t : Tile) (f : FaultInfo) (p : Nat) (w : Bool) : (enterSystem f p w t).id = t.id := by unfold enterSystem; dsimp only; rw [putStatus_id, putStatus_id]
@[simp] theorem enterSystem_place (t : Tile) (f : FaultInfo) (p : Nat) (w : Bool) : (enterSystem f p w t).place = t.place := by unfold enterSystem; dsimp only; rw [putStatus_place, putStatus_place]
@[simp] theorem enterSystem_code (t : Tile) (f : FaultInfo) (p : Nat) (w : Bool) : (enterSystem f p w t).code = t.code := by unfold enterSystem; dsimp only; rw [putStatus_code, putStatus_code]
@[simp] theorem enterSystem_regs (t : Tile) (f : FaultInfo) (p : Nat) (w : Bool) : (enterSystem f p w t).regs = t.regs := by unfold enterSystem; dsimp only; rw [putStatus_regs, putStatus_regs]
@[simp] theorem enterSystem_socks (t : Tile) (f : FaultInfo) (p : Nat) (w : Bool) : (enterSystem f p w t).socks = t.socks := by unfold enterSystem; dsimp only; rw [putStatus_socks, putStatus_socks]
@[simp] theorem enterSystem_streams (t : Tile) (f : FaultInfo) (p : Nat) (w : Bool) : (enterSystem f p w t).streams = t.streams := by unfold enterSystem; dsimp only; rw [putStatus_streams, putStatus_streams]
@[simp] theorem enterSystem_mx (t : Tile) (f : FaultInfo) (p : Nat) (w : Bool) : (enterSystem f p w t).mx = t.mx := by unfold enterSystem; dsimp only; rw [putStatus_mx, putStatus_mx]
@[simp] theorem enterSystem_qnt (t : Tile) (f : FaultInfo) (p : Nat) (w : Bool) : (enterSystem f p w t).qnt = t.qnt := by unfold enterSystem; dsimp only; rw [putStatus_qnt, putStatus_qnt]
@[simp] theorem enterSystem_lw (t : Tile) (f : FaultInfo) (p : Nat) (w : Bool) : (enterSystem f p w t).lw = t.lw := by unfold enterSystem; dsimp only; rw [putStatus_lw, putStatus_lw]
@[simp] theorem enterSystem_zero (t : Tile) (f : FaultInfo) (p : Nat) (w : Bool) : (enterSystem f p w t).zero = t.zero := by unfold enterSystem; dsimp only; rw [putStatus_zero, putStatus_zero]
@[simp] theorem enterSystem_gm (t : Tile) (f : FaultInfo) (p : Nat) (w : Bool) : (enterSystem f p w t).gm = t.gm := by unfold enterSystem; dsimp only; rw [putStatus_gm, putStatus_gm]
@[simp] theorem enterSystem_walk (t : Tile) (f : FaultInfo) (p : Nat) (w : Bool) : (enterSystem f p w t).walk = t.walk := by unfold enterSystem; dsimp only; rw [putStatus_walk, putStatus_walk]
@[simp] theorem enterSystem_copies (t : Tile) (f : FaultInfo) (p : Nat) (w : Bool) : (enterSystem f p w t).copies = t.copies := by unfold enterSystem; dsimp only; rw [putStatus_copies, putStatus_copies]
@[simp] theorem enterSystem_net (t : Tile) (f : FaultInfo) (p : Nat) (w : Bool) : (enterSystem f p w t).net = t.net := by unfold enterSystem; dsimp only; rw [putStatus_net, putStatus_net]
@[simp] theorem enterSystem_sluices (t : Tile) (f : FaultInfo) (p : Nat) (w : Bool) : (enterSystem f p w t).sluices = t.sluices := by unfold enterSystem; dsimp only; rw [putStatus_sluices, putStatus_sluices]
@[simp] theorem enterSystem_sems (t : Tile) (f : FaultInfo) (p : Nat) (w : Bool) : (enterSystem f p w t).sems = t.sems := by unfold enterSystem; dsimp only; rw [putStatus_sems, putStatus_sems]
@[simp] theorem enterSystem_arrives (t : Tile) (f : FaultInfo) (p : Nat) (w : Bool) : (enterSystem f p w t).arrives = t.arrives := by unfold enterSystem; dsimp only; rw [putStatus_arrives, putStatus_arrives]
@[simp] theorem enterSystem_table (t : Tile) (f : FaultInfo) (p : Nat) (w : Bool) : (enterSystem f p w t).table = t.table := by unfold enterSystem; dsimp only; rw [putStatus_table, putStatus_table]
@[simp] theorem enterSystem_tt (t : Tile) (f : FaultInfo) (p : Nat) (w : Bool) : (enterSystem f p w t).tt = t.tt := by unfold enterSystem; dsimp only; rw [putStatus_tt, putStatus_tt]
@[simp] theorem enterSystem_lnk (t : Tile) (f : FaultInfo) (p : Nat) (w : Bool) : (enterSystem f p w t).lnk = t.lnk := by unfold enterSystem; dsimp only; rw [putStatus_lnk, putStatus_lnk]
@[simp] theorem enterSystem_know (t : Tile) (f : FaultInfo) (p : Nat) (w : Bool) : (enterSystem f p w t).know = t.know := by unfold enterSystem; dsimp only; rw [putStatus_know, putStatus_know]
@[simp] theorem enterSystem_checked (t : Tile) (f : FaultInfo) (p : Nat) (w : Bool) : (enterSystem f p w t).checked = t.checked := by unfold enterSystem; dsimp only; rw [putStatus_checked, putStatus_checked]
@[simp] theorem enterSystem_perf (t : Tile) (f : FaultInfo) (p : Nat) (w : Bool) : (enterSystem f p w t).perf = t.perf := by unfold enterSystem; dsimp only; rw [putStatus_perf, putStatus_perf]
@[simp] theorem enterSystem_well (t : Tile) (f : FaultInfo) (p : Nat) (w : Bool) : (enterSystem f p w t).well = t.well := by unfold enterSystem; dsimp only; rw [putStatus_well, putStatus_well]
@[simp] theorem enterSystem_wellPoison (t : Tile) (f : FaultInfo) (p : Nat) (w : Bool) : (enterSystem f p w t).wellPoison = t.wellPoison := by unfold enterSystem; dsimp only; rw [putStatus_wellPoison, putStatus_wellPoison]
@[simp] theorem enterSystem_wheel (t : Tile) (f : FaultInfo) (p : Nat) (w : Bool) : (enterSystem f p w t).wheel = t.wheel := by unfold enterSystem; dsimp only; rw [putStatus_wheel, putStatus_wheel]
@[simp] theorem enterSystem_serial (t : Tile) (f : FaultInfo) (p : Nat) (w : Bool) : (enterSystem f p w t).serial = t.serial := by unfold enterSystem; dsimp only; rw [putStatus_serial, putStatus_serial]
@[simp] theorem enterSystem_prevCtx (t : Tile) (f : FaultInfo) (p : Nat) (w : Bool) : (enterSystem f p w t).prevCtx = t.prevCtx := by unfold enterSystem; dsimp only; rw [putStatus_prevCtx, putStatus_prevCtx]

@[simp] theorem writeReg_id (t : Tile) (r : Reg) (v : Vec) : (writeReg t r v).id = t.id := by
  unfold writeReg; split <;> first | rfl | simp | (split <;> simp)
@[simp] theorem writeReg_place (t : Tile) (r : Reg) (v : Vec) : (writeReg t r v).place = t.place := by
  unfold writeReg; split <;> first | rfl | simp | (split <;> simp)
@[simp] theorem writeReg_run (t : Tile) (r : Reg) (v : Vec) : (writeReg t r v).run = t.run := by
  unfold writeReg; split <;> first | rfl | simp | (split <;> simp)
@[simp] theorem writeReg_pc (t : Tile) (r : Reg) (v : Vec) : (writeReg t r v).pc = t.pc := by
  unfold writeReg; split <;> first | rfl | simp | (split <;> simp)
@[simp] theorem writeReg_code (t : Tile) (r : Reg) (v : Vec) : (writeReg t r v).code = t.code := by
  unfold writeReg; split <;> first | rfl | simp | (split <;> simp)
@[simp] theorem writeReg_csr (t : Tile) (r : Reg) (v : Vec) : (writeReg t r v).csr = t.csr := by
  unfold writeReg; split <;> first | rfl | simp | (split <;> simp)
@[simp] theorem writeReg_socks (t : Tile) (r : Reg) (v : Vec) : (writeReg t r v).socks = t.socks := by
  unfold writeReg; split <;> first | rfl | simp | (split <;> simp)
@[simp] theorem writeReg_ctl (t : Tile) (r : Reg) (v : Vec) : (writeReg t r v).ctl = t.ctl := by
  unfold writeReg; split <;> first | rfl | simp | (split <;> simp)
@[simp] theorem writeReg_streams (t : Tile) (r : Reg) (v : Vec) : (writeReg t r v).streams = t.streams := by
  unfold writeReg; split <;> first | rfl | simp | (split <;> simp)
@[simp] theorem writeReg_mx (t : Tile) (r : Reg) (v : Vec) : (writeReg t r v).mx = t.mx := by
  unfold writeReg; split <;> first | rfl | simp | (split <;> simp)
@[simp] theorem writeReg_qnt (t : Tile) (r : Reg) (v : Vec) : (writeReg t r v).qnt = t.qnt := by
  unfold writeReg; split <;> first | rfl | simp | (split <;> simp)
@[simp] theorem writeReg_lw (t : Tile) (r : Reg) (v : Vec) : (writeReg t r v).lw = t.lw := by
  unfold writeReg; split <;> first | rfl | simp | (split <;> simp)
@[simp] theorem writeReg_zero (t : Tile) (r : Reg) (v : Vec) : (writeReg t r v).zero = t.zero := by
  unfold writeReg; split <;> first | rfl | simp | (split <;> simp)
@[simp] theorem writeReg_gm (t : Tile) (r : Reg) (v : Vec) : (writeReg t r v).gm = t.gm := by
  unfold writeReg; split <;> first | rfl | simp | (split <;> simp)
@[simp] theorem writeReg_walk (t : Tile) (r : Reg) (v : Vec) : (writeReg t r v).walk = t.walk := by
  unfold writeReg; split <;> first | rfl | simp | (split <;> simp)
@[simp] theorem writeReg_copies (t : Tile) (r : Reg) (v : Vec) : (writeReg t r v).copies = t.copies := by
  unfold writeReg; split <;> first | rfl | simp | (split <;> simp)
@[simp] theorem writeReg_net (t : Tile) (r : Reg) (v : Vec) : (writeReg t r v).net = t.net := by
  unfold writeReg; split <;> first | rfl | simp | (split <;> simp)
@[simp] theorem writeReg_sluices (t : Tile) (r : Reg) (v : Vec) : (writeReg t r v).sluices = t.sluices := by
  unfold writeReg; split <;> first | rfl | simp | (split <;> simp)
@[simp] theorem writeReg_sems (t : Tile) (r : Reg) (v : Vec) : (writeReg t r v).sems = t.sems := by
  unfold writeReg; split <;> first | rfl | simp | (split <;> simp)
@[simp] theorem writeReg_arrives (t : Tile) (r : Reg) (v : Vec) : (writeReg t r v).arrives = t.arrives := by
  unfold writeReg; split <;> first | rfl | simp | (split <;> simp)
@[simp] theorem writeReg_table (t : Tile) (r : Reg) (v : Vec) : (writeReg t r v).table = t.table := by
  unfold writeReg; split <;> first | rfl | simp | (split <;> simp)
@[simp] theorem writeReg_tt (t : Tile) (r : Reg) (v : Vec) : (writeReg t r v).tt = t.tt := by
  unfold writeReg; split <;> first | rfl | simp | (split <;> simp)
@[simp] theorem writeReg_lnk (t : Tile) (r : Reg) (v : Vec) : (writeReg t r v).lnk = t.lnk := by
  unfold writeReg; split <;> first | rfl | simp | (split <;> simp)
@[simp] theorem writeReg_know (t : Tile) (r : Reg) (v : Vec) : (writeReg t r v).know = t.know := by
  unfold writeReg; split <;> first | rfl | simp | (split <;> simp)
@[simp] theorem writeReg_checked (t : Tile) (r : Reg) (v : Vec) : (writeReg t r v).checked = t.checked := by
  unfold writeReg; split <;> first | rfl | simp | (split <;> simp)
@[simp] theorem writeReg_perf (t : Tile) (r : Reg) (v : Vec) : (writeReg t r v).perf = t.perf := by
  unfold writeReg; split <;> first | rfl | simp | (split <;> simp)
@[simp] theorem writeReg_well (t : Tile) (r : Reg) (v : Vec) : (writeReg t r v).well = t.well := by
  unfold writeReg; split <;> first | rfl | simp | (split <;> simp)
@[simp] theorem writeReg_wellPoison (t : Tile) (r : Reg) (v : Vec) : (writeReg t r v).wellPoison = t.wellPoison := by
  unfold writeReg; split <;> first | rfl | simp | (split <;> simp)
@[simp] theorem writeReg_wheel (t : Tile) (r : Reg) (v : Vec) : (writeReg t r v).wheel = t.wheel := by
  unfold writeReg; split <;> first | rfl | simp | (split <;> simp)
@[simp] theorem writeReg_serial (t : Tile) (r : Reg) (v : Vec) : (writeReg t r v).serial = t.serial := by
  unfold writeReg; split <;> first | rfl | simp | (split <;> simp)
@[simp] theorem writeReg_prevCtx (t : Tile) (r : Reg) (v : Vec) : (writeReg t r v).prevCtx = t.prevCtx := by
  unfold writeReg; split <;> first | rfl | simp | (split <;> simp)

@[simp] theorem onCur_peers (g : Tile → Tile) (s : State) : (onCur g s).peers = s.peers := rfl
@[simp] theorem onCur_dev (g : Tile → Tile) (s : State) : (onCur g s).dev = s.dev := rfl
@[simp] theorem onCur_agenda (g : Tile → Tile) (s : State) : (onCur g s).agenda = s.agenda := rfl
@[simp] theorem onCur_fresh (g : Tile → Tile) (s : State) : (onCur g s).fresh = s.fresh := rfl
@[simp] theorem onCur_cur (g : Tile → Tile) (s : State) : (onCur g s).cur = g s.cur := rfl
@[simp] theorem onHw_cur (g : Headworks → Headworks) (s : State) : (onHw g s).cur = s.cur := rfl
@[simp] theorem onHw_peers (g : Headworks → Headworks) (s : State) : (onHw g s).peers = s.peers := rfl
@[simp] theorem onHw_agenda (g : Headworks → Headworks) (s : State) : (onHw g s).agenda = s.agenda := rfl
@[simp] theorem onHw_fresh (g : Headworks → Headworks) (s : State) : (onHw g s).fresh = s.fresh := rfl
@[simp] theorem putNode_cur (n : Node) (s : State) : (putNode n s).cur = s.cur := rfl
@[simp] theorem putNode_peers (n : Node) (s : State) : (putNode n s).peers = s.peers := rfl
@[simp] theorem putNode_agenda (n : Node) (s : State) : (putNode n s).agenda = s.agenda := rfl
@[simp] theorem putNode_fresh (n : Node) (s : State) : (putNode n s).fresh = s.fresh := rfl
@[simp] theorem putCtx_cur (c : Ctx) (s : State) : (putCtx c s).cur = s.cur := rfl
@[simp] theorem putCtx_peers (c : Ctx) (s : State) : (putCtx c s).peers = s.peers := rfl
@[simp] theorem putCtx_agenda (c : Ctx) (s : State) : (putCtx c s).agenda = s.agenda := rfl
@[simp] theorem putCtx_fresh (c : Ctx) (s : State) : (putCtx c s).fresh = s.fresh := rfl
@[simp] theorem onHw_dev_variantH (g : Headworks → Headworks) (s : State) : (onHw g s).dev.variantH = s.dev.variantH := rfl
@[simp] theorem onHw_dev_dies (g : Headworks → Headworks) (s : State) : (onHw g s).dev.dies = s.dev.dies := rfl
@[simp] theorem onHw_dev_cisterns (g : Headworks → Headworks) (s : State) : (onHw g s).dev.cisterns = s.dev.cisterns := rfl
@[simp] theorem onHw_dev_cisternTsc (g : Headworks → Headworks) (s : State) : (onHw g s).dev.cisternTsc = s.dev.cisternTsc := rfl
@[simp] theorem onHw_dev_mem (g : Headworks → Headworks) (s : State) : (onHw g s).dev.mem = s.dev.mem := rfl
@[simp] theorem onHw_dev_poison (g : Headworks → Headworks) (s : State) : (onHw g s).dev.poison = s.dev.poison := rfl
@[simp] theorem onHw_dev_storage (g : Headworks → Headworks) (s : State) : (onHw g s).dev.storage = s.dev.storage := rfl
@[simp] theorem onHw_dev_storagePoison (g : Headworks → Headworks) (s : State) : (onHw g s).dev.storagePoison = s.dev.storagePoison := rfl
@[simp] theorem onHw_dev_hstate (g : Headworks → Headworks) (s : State) : (onHw g s).dev.hstate = s.dev.hstate := rfl
@[simp] theorem onHw_dev_allocs (g : Headworks → Headworks) (s : State) : (onHw g s).dev.allocs = s.dev.allocs := rfl
@[simp] theorem onHw_dev_cells (g : Headworks → Headworks) (s : State) : (onHw g s).dev.cells = s.dev.cells := rfl
@[simp] theorem onHw_dev_errors (g : Headworks → Headworks) (s : State) : (onHw g s).dev.errors = s.dev.errors := rfl
@[simp] theorem onHw_dev_mains (g : Headworks → Headworks) (s : State) : (onHw g s).dev.mains = s.dev.mains := rfl
@[simp] theorem onHw_dev_nextMain (g : Headworks → Headworks) (s : State) : (onHw g s).dev.nextMain = s.dev.nextMain := rfl
@[simp] theorem onHw_dev_permits (g : Headworks → Headworks) (s : State) : (onHw g s).dev.permits = s.dev.permits := rfl
@[simp] theorem onHw_dev_granted (g : Headworks → Headworks) (s : State) : (onHw g s).dev.granted = s.dev.granted := rfl
@[simp] theorem onHw_dev_losers (g : Headworks → Headworks) (s : State) : (onHw g s).dev.losers = s.dev.losers := rfl
@[simp] theorem onHw_dev_vc2 (g : Headworks → Headworks) (s : State) : (onHw g s).dev.vc2 = s.dev.vc2 := rfl
@[simp] theorem onHw_dev_links (g : Headworks → Headworks) (s : State) : (onHw g s).dev.links = s.dev.links := rfl
@[simp] theorem onHw_dev_fabric (g : Headworks → Headworks) (s : State) : (onHw g s).dev.fabric = s.dev.fabric := rfl
@[simp] theorem onHw_dev_window (g : Headworks → Headworks) (s : State) : (onHw g s).dev.window = s.dev.window := rfl
@[simp] theorem onHw_dev_islands (g : Headworks → Headworks) (s : State) : (onHw g s).dev.islands = s.dev.islands := rfl
@[simp] theorem onHw_dev_firmware (g : Headworks → Headworks) (s : State) : (onHw g s).dev.firmware = s.dev.firmware := rfl
@[simp] theorem onHw_dev_booted (g : Headworks → Headworks) (s : State) : (onHw g s).dev.booted = s.dev.booted := rfl
@[simp] theorem onHw_dev_fallback (g : Headworks → Headworks) (s : State) : (onHw g s).dev.fallback = s.dev.fallback := rfl
@[simp] theorem onHw_dev_downC (g : Headworks → Headworks) (s : State) : (onHw g s).dev.downC = s.dev.downC := rfl
@[simp] theorem onHw_dev_hw (g : Headworks → Headworks) (s : State) : (onHw g s).dev.hw = g s.dev.hw := rfl
@[simp] theorem memStore_cur (s : State) (a : Nat) (bs : List Byte) : (memStore s a bs).cur = s.cur := rfl
@[simp] theorem onErrors_cur (s : State) (p : Nat) (g : Errors → Errors) : (onErrors s p g).cur = s.cur := rfl
@[simp] theorem putDie_cur (s : State) (d : Nat) (x : Die) : (putDie s d x).cur = s.cur := rfl
@[simp] theorem memStore_peers (s : State) (a : Nat) (bs : List Byte) : (memStore s a bs).peers = s.peers := rfl
@[simp] theorem onErrors_peers (s : State) (p : Nat) (g : Errors → Errors) : (onErrors s p g).peers = s.peers := rfl
@[simp] theorem putDie_peers (s : State) (d : Nat) (x : Die) : (putDie s d x).peers = s.peers := rfl
@[simp] theorem memStore_agenda (s : State) (a : Nat) (bs : List Byte) : (memStore s a bs).agenda = s.agenda := rfl
@[simp] theorem onErrors_agenda (s : State) (p : Nat) (g : Errors → Errors) : (onErrors s p g).agenda = s.agenda := rfl
@[simp] theorem putDie_agenda (s : State) (d : Nat) (x : Die) : (putDie s d x).agenda = s.agenda := rfl
@[simp] theorem memStore_fresh (s : State) (a : Nat) (bs : List Byte) : (memStore s a bs).fresh = s.fresh := rfl
@[simp] theorem onErrors_fresh (s : State) (p : Nat) (g : Errors → Errors) : (onErrors s p g).fresh = s.fresh := rfl
@[simp] theorem putDie_fresh (s : State) (d : Nat) (x : Die) : (putDie s d x).fresh = s.fresh := rfl
@[simp] theorem memStore_dev_variantH (s : State) (a : Nat) (bs : List Byte) : (memStore s a bs).dev.variantH = s.dev.variantH := rfl
@[simp] theorem onErrors_dev_variantH (s : State) (p : Nat) (g : Errors → Errors) : (onErrors s p g).dev.variantH = s.dev.variantH := rfl
@[simp] theorem putDie_dev_variantH (s : State) (d : Nat) (x : Die) : (putDie s d x).dev.variantH = s.dev.variantH := rfl
@[simp] theorem memStore_dev_dies (s : State) (a : Nat) (bs : List Byte) : (memStore s a bs).dev.dies = s.dev.dies := rfl
@[simp] theorem onErrors_dev_dies (s : State) (p : Nat) (g : Errors → Errors) : (onErrors s p g).dev.dies = s.dev.dies := rfl
@[simp] theorem memStore_dev_cisterns (s : State) (a : Nat) (bs : List Byte) : (memStore s a bs).dev.cisterns = s.dev.cisterns := rfl
@[simp] theorem onErrors_dev_cisterns (s : State) (p : Nat) (g : Errors → Errors) : (onErrors s p g).dev.cisterns = s.dev.cisterns := rfl
@[simp] theorem putDie_dev_cisterns (s : State) (d : Nat) (x : Die) : (putDie s d x).dev.cisterns = s.dev.cisterns := rfl
@[simp] theorem memStore_dev_cisternTsc (s : State) (a : Nat) (bs : List Byte) : (memStore s a bs).dev.cisternTsc = s.dev.cisternTsc := rfl
@[simp] theorem onErrors_dev_cisternTsc (s : State) (p : Nat) (g : Errors → Errors) : (onErrors s p g).dev.cisternTsc = s.dev.cisternTsc := rfl
@[simp] theorem putDie_dev_cisternTsc (s : State) (d : Nat) (x : Die) : (putDie s d x).dev.cisternTsc = s.dev.cisternTsc := rfl
@[simp] theorem onErrors_dev_mem (s : State) (p : Nat) (g : Errors → Errors) : (onErrors s p g).dev.mem = s.dev.mem := rfl
@[simp] theorem putDie_dev_mem (s : State) (d : Nat) (x : Die) : (putDie s d x).dev.mem = s.dev.mem := rfl
@[simp] theorem onErrors_dev_poison (s : State) (p : Nat) (g : Errors → Errors) : (onErrors s p g).dev.poison = s.dev.poison := rfl
@[simp] theorem putDie_dev_poison (s : State) (d : Nat) (x : Die) : (putDie s d x).dev.poison = s.dev.poison := rfl
@[simp] theorem memStore_dev_storage (s : State) (a : Nat) (bs : List Byte) : (memStore s a bs).dev.storage = s.dev.storage := rfl
@[simp] theorem onErrors_dev_storage (s : State) (p : Nat) (g : Errors → Errors) : (onErrors s p g).dev.storage = s.dev.storage := rfl
@[simp] theorem putDie_dev_storage (s : State) (d : Nat) (x : Die) : (putDie s d x).dev.storage = s.dev.storage := rfl
@[simp] theorem memStore_dev_storagePoison (s : State) (a : Nat) (bs : List Byte) : (memStore s a bs).dev.storagePoison = s.dev.storagePoison := rfl
@[simp] theorem onErrors_dev_storagePoison (s : State) (p : Nat) (g : Errors → Errors) : (onErrors s p g).dev.storagePoison = s.dev.storagePoison := rfl
@[simp] theorem putDie_dev_storagePoison (s : State) (d : Nat) (x : Die) : (putDie s d x).dev.storagePoison = s.dev.storagePoison := rfl
@[simp] theorem memStore_dev_hstate (s : State) (a : Nat) (bs : List Byte) : (memStore s a bs).dev.hstate = s.dev.hstate := rfl
@[simp] theorem onErrors_dev_hstate (s : State) (p : Nat) (g : Errors → Errors) : (onErrors s p g).dev.hstate = s.dev.hstate := rfl
@[simp] theorem putDie_dev_hstate (s : State) (d : Nat) (x : Die) : (putDie s d x).dev.hstate = s.dev.hstate := rfl
@[simp] theorem memStore_dev_allocs (s : State) (a : Nat) (bs : List Byte) : (memStore s a bs).dev.allocs = s.dev.allocs := rfl
@[simp] theorem onErrors_dev_allocs (s : State) (p : Nat) (g : Errors → Errors) : (onErrors s p g).dev.allocs = s.dev.allocs := rfl
@[simp] theorem putDie_dev_allocs (s : State) (d : Nat) (x : Die) : (putDie s d x).dev.allocs = s.dev.allocs := rfl
@[simp] theorem memStore_dev_cells (s : State) (a : Nat) (bs : List Byte) : (memStore s a bs).dev.cells = s.dev.cells := rfl
@[simp] theorem onErrors_dev_cells (s : State) (p : Nat) (g : Errors → Errors) : (onErrors s p g).dev.cells = s.dev.cells := rfl
@[simp] theorem putDie_dev_cells (s : State) (d : Nat) (x : Die) : (putDie s d x).dev.cells = s.dev.cells := rfl
@[simp] theorem memStore_dev_errors (s : State) (a : Nat) (bs : List Byte) : (memStore s a bs).dev.errors = s.dev.errors := rfl
@[simp] theorem putDie_dev_errors (s : State) (d : Nat) (x : Die) : (putDie s d x).dev.errors = s.dev.errors := rfl
@[simp] theorem memStore_dev_mains (s : State) (a : Nat) (bs : List Byte) : (memStore s a bs).dev.mains = s.dev.mains := rfl
@[simp] theorem onErrors_dev_mains (s : State) (p : Nat) (g : Errors → Errors) : (onErrors s p g).dev.mains = s.dev.mains := rfl
@[simp] theorem putDie_dev_mains (s : State) (d : Nat) (x : Die) : (putDie s d x).dev.mains = s.dev.mains := rfl
@[simp] theorem memStore_dev_nextMain (s : State) (a : Nat) (bs : List Byte) : (memStore s a bs).dev.nextMain = s.dev.nextMain := rfl
@[simp] theorem onErrors_dev_nextMain (s : State) (p : Nat) (g : Errors → Errors) : (onErrors s p g).dev.nextMain = s.dev.nextMain := rfl
@[simp] theorem putDie_dev_nextMain (s : State) (d : Nat) (x : Die) : (putDie s d x).dev.nextMain = s.dev.nextMain := rfl
@[simp] theorem memStore_dev_permits (s : State) (a : Nat) (bs : List Byte) : (memStore s a bs).dev.permits = s.dev.permits := rfl
@[simp] theorem onErrors_dev_permits (s : State) (p : Nat) (g : Errors → Errors) : (onErrors s p g).dev.permits = s.dev.permits := rfl
@[simp] theorem putDie_dev_permits (s : State) (d : Nat) (x : Die) : (putDie s d x).dev.permits = s.dev.permits := rfl
@[simp] theorem memStore_dev_granted (s : State) (a : Nat) (bs : List Byte) : (memStore s a bs).dev.granted = s.dev.granted := rfl
@[simp] theorem onErrors_dev_granted (s : State) (p : Nat) (g : Errors → Errors) : (onErrors s p g).dev.granted = s.dev.granted := rfl
@[simp] theorem putDie_dev_granted (s : State) (d : Nat) (x : Die) : (putDie s d x).dev.granted = s.dev.granted := rfl
@[simp] theorem memStore_dev_losers (s : State) (a : Nat) (bs : List Byte) : (memStore s a bs).dev.losers = s.dev.losers := rfl
@[simp] theorem onErrors_dev_losers (s : State) (p : Nat) (g : Errors → Errors) : (onErrors s p g).dev.losers = s.dev.losers := rfl
@[simp] theorem putDie_dev_losers (s : State) (d : Nat) (x : Die) : (putDie s d x).dev.losers = s.dev.losers := rfl
@[simp] theorem memStore_dev_vc2 (s : State) (a : Nat) (bs : List Byte) : (memStore s a bs).dev.vc2 = s.dev.vc2 := rfl
@[simp] theorem onErrors_dev_vc2 (s : State) (p : Nat) (g : Errors → Errors) : (onErrors s p g).dev.vc2 = s.dev.vc2 := rfl
@[simp] theorem putDie_dev_vc2 (s : State) (d : Nat) (x : Die) : (putDie s d x).dev.vc2 = s.dev.vc2 := rfl
@[simp] theorem memStore_dev_links (s : State) (a : Nat) (bs : List Byte) : (memStore s a bs).dev.links = s.dev.links := rfl
@[simp] theorem onErrors_dev_links (s : State) (p : Nat) (g : Errors → Errors) : (onErrors s p g).dev.links = s.dev.links := rfl
@[simp] theorem putDie_dev_links (s : State) (d : Nat) (x : Die) : (putDie s d x).dev.links = s.dev.links := rfl
@[simp] theorem memStore_dev_fabric (s : State) (a : Nat) (bs : List Byte) : (memStore s a bs).dev.fabric = s.dev.fabric := rfl
@[simp] theorem onErrors_dev_fabric (s : State) (p : Nat) (g : Errors → Errors) : (onErrors s p g).dev.fabric = s.dev.fabric := rfl
@[simp] theorem putDie_dev_fabric (s : State) (d : Nat) (x : Die) : (putDie s d x).dev.fabric = s.dev.fabric := rfl
@[simp] theorem memStore_dev_window (s : State) (a : Nat) (bs : List Byte) : (memStore s a bs).dev.window = s.dev.window := rfl
@[simp] theorem onErrors_dev_window (s : State) (p : Nat) (g : Errors → Errors) : (onErrors s p g).dev.window = s.dev.window := rfl
@[simp] theorem putDie_dev_window (s : State) (d : Nat) (x : Die) : (putDie s d x).dev.window = s.dev.window := rfl
@[simp] theorem memStore_dev_islands (s : State) (a : Nat) (bs : List Byte) : (memStore s a bs).dev.islands = s.dev.islands := rfl
@[simp] theorem onErrors_dev_islands (s : State) (p : Nat) (g : Errors → Errors) : (onErrors s p g).dev.islands = s.dev.islands := rfl
@[simp] theorem putDie_dev_islands (s : State) (d : Nat) (x : Die) : (putDie s d x).dev.islands = s.dev.islands := rfl
@[simp] theorem memStore_dev_firmware (s : State) (a : Nat) (bs : List Byte) : (memStore s a bs).dev.firmware = s.dev.firmware := rfl
@[simp] theorem onErrors_dev_firmware (s : State) (p : Nat) (g : Errors → Errors) : (onErrors s p g).dev.firmware = s.dev.firmware := rfl
@[simp] theorem putDie_dev_firmware (s : State) (d : Nat) (x : Die) : (putDie s d x).dev.firmware = s.dev.firmware := rfl
@[simp] theorem memStore_dev_booted (s : State) (a : Nat) (bs : List Byte) : (memStore s a bs).dev.booted = s.dev.booted := rfl
@[simp] theorem onErrors_dev_booted (s : State) (p : Nat) (g : Errors → Errors) : (onErrors s p g).dev.booted = s.dev.booted := rfl
@[simp] theorem putDie_dev_booted (s : State) (d : Nat) (x : Die) : (putDie s d x).dev.booted = s.dev.booted := rfl
@[simp] theorem memStore_dev_fallback (s : State) (a : Nat) (bs : List Byte) : (memStore s a bs).dev.fallback = s.dev.fallback := rfl
@[simp] theorem onErrors_dev_fallback (s : State) (p : Nat) (g : Errors → Errors) : (onErrors s p g).dev.fallback = s.dev.fallback := rfl
@[simp] theorem putDie_dev_fallback (s : State) (d : Nat) (x : Die) : (putDie s d x).dev.fallback = s.dev.fallback := rfl
@[simp] theorem memStore_dev_downC (s : State) (a : Nat) (bs : List Byte) : (memStore s a bs).dev.downC = s.dev.downC := rfl
@[simp] theorem onErrors_dev_downC (s : State) (p : Nat) (g : Errors → Errors) : (onErrors s p g).dev.downC = s.dev.downC := rfl
@[simp] theorem putDie_dev_downC (s : State) (d : Nat) (x : Die) : (putDie s d x).dev.downC = s.dev.downC := rfl

@[simp] theorem focus_self (s : State) : focus s.cur.id s = s := by simp [focus]
@[simp] theorem focus_dev (i : TileId) (s : State) : (focus i s).dev = s.dev := by unfold focus; split <;> rfl
@[simp] theorem focus_agenda (i : TileId) (s : State) : (focus i s).agenda = s.agenda := by unfold focus; split <;> rfl
@[simp] theorem focus_fresh (i : TileId) (s : State) : (focus i s).fresh = s.fresh := by unfold focus; split <;> rfl
@[simp] theorem focus_cur (i : TileId) (s : State) : (focus i s).cur = tileAt s i := by
  unfold focus tileAt; split <;> rfl
/-- An event of a tile that changes only it and leaves its name. -/
theorem onTile_self (f : State → State) (s : State) (h : (f s).cur.id = s.cur.id) : onTile s.cur.id f s = f s := by
  simp only [onTile, focus_self]; rw [← h]; exact focus_self _

/-- The tile named is the tile found. -/
@[simp] theorem tileAt_id (s : State) (i : TileId) : (tileAt s i).id = i := by
  unfold tileAt
  split
  · assumption
  · cases h : s.peers.find? fun t => decide (t.id = i) with
    | none => rfl
    | some t => simpa using List.find?_some h
/-- What an event of a tile that changes only it and leaves its name does to the focused tile. -/
theorem onTile_cur (i : TileId) (f : Tile → Tile) (s : State) (hf : ∀ t, (f t).id = t.id) :
    (onTile i (onCur f) s).cur = if s.cur.id = i then f s.cur else s.cur := by
  by_cases h : s.cur.id = i
  · subst h
    rw [onTile_self _ _ (hf _), if_pos rfl]; rfl
  · rw [if_neg h]
    have h2 : ¬ (f (tileAt s i)).id = s.cur.id := by rw [hf, tileAt_id]; exact fun e => h e.symm
    have h3 : decide (s.cur.id = s.cur.id) = true := by simp
    simp only [onTile, focus_cur]
    unfold focus
    simp only [if_neg h]
    unfold tileAt onCur
    simp only
    rw [if_neg (by simpa [tileAt, if_neg h] using h2), List.find?_cons_of_pos (by simp)]
    rfl

/-- x0 reads zero whatever is written. -/
@[simp] theorem getX_zero (t : Tile) : getX t 0 = 0 := rfl
/-- p0 is true whatever is written. -/
@[simp] theorem getP_zero (t : Tile) : getP t 0 = 1 := rfl

end Sys2Proof.Machine
end

