-- ==== Sys2Proof/Laws/Moves.lean ====
section
/-!
SUPPORT. Laws/Moves.lean: what a move run as a bundle of its own comes to, said once for every move, and what the shared triggers do.
-/
namespace Sys2Proof.Machine
open Sys2Proof.Machine.Claims

/-- A tile with no trap listed keeps its list. -/
theorem noTraps (t : Tile) (h : t.ctl.traps = []) : ({ t with ctl := { t.ctl with traps := [] } } : Tile) = t := by
  rw [← h]

/-- A bundle's end changes nothing where no SOCKMODE value and no trap waits. -/
theorem settle_ok {s s' : State} (h : AtRest s'.cur) : settle s (.ok s') = s' := by
  have hm : onCur endMoves s' = s' := by simp [onCur, endMoves, h.mode]
  unfold settle takeTraps
  dsimp only
  rw [hm, h.traps]
  exact congrArg (fun c => { s' with cur := c }) (noTraps _ h.traps)

/-- Reading a port leaves the control state. -/
theorem readPort_ctl {t t' : Tile} {n k y : Nat} {v : Vec} (h : readPort t n k y = .ok (v, t')) : t'.ctl = t.ctl := by
  unfold readPort at h
  dsimp only at h
  split at h
  · split at h
    · cases h; rfl
    · cases h
  · split at h
    · split at h
      · cases h
      · cases h; rfl
    · cases h

/-- Refilling a queue leaves the control state. -/
@[simp] theorem refill_ctl (t : Tile) (q : Nat) : (refill t q).ctl = t.ctl := by
  unfold refill; split
  · rfl
  · dsimp only; split <;> rfl

/-- Reading the source of a move leaves the control state. -/
theorem readSrc_ctl {t t' : Tile} {n : Nat} {x : Src} {v : Vec} (h : readSrc t n x = .ok (v, t')) : t'.ctl = t.ctl := by
  cases x with
  | reg r _ => simp only [readSrc, Res.ok.injEq, Prod.mk.injEq] at h; rw [← h.2]
  | port k y _ => exact readPort_ctl h
  | imm v => simp only [readSrc, Res.ok.injEq, Prod.mk.injEq] at h; rw [← h.2]
  | lit v => simp only [readSrc, Res.ok.injEq, Prod.mk.injEq] at h; rw [← h.2]
  | stream f pk _ =>
    simp only [readSrc, readStream] at h
    repeat' split at h
    all_goals first | cases h; rfl | cases h
  | recvq q pk _ =>
    simp only [readSrc, readQueue] at h
    repeat' split at h
    all_goals first | (cases h; simp) | cases h
  | cq pk _ =>
    simp only [readSrc, readCq] at h
    repeat' split at h
    all_goals first | cases h; rfl | cases h

/-- Reading a port changes only the sockets. -/
theorem readPort_frame {t t' : Tile} {n k y : Nat} {v : Vec} (h : readPort t n k y = .ok (v, t')) : SameBeside t t' := by
  unfold readPort at h
  dsimp only at h
  split at h
  · split at h
    · cases h; rfl
    · cases h
  · split at h
    · split at h
      · cases h
      · cases h; rfl
    · cases h

/-- Refilling a queue changes only the queues. -/
theorem refill_frame (t : Tile) (q : Nat) : ∃ n, refill t q = { t with net := n } := by
  unfold refill; split
  · exact ⟨t.net, rfl⟩
  · dsimp only; split <;> exact ⟨_, rfl⟩

/-- Reading the source of a move changes only the sockets, the streams and the queues of the tile. -/
theorem readSrc_frame {t t' : Tile} {n : Nat} {x : Src} {v : Vec} (h : readSrc t n x = .ok (v, t')) : SameBeside t t' := by
  cases x with
  | reg r _ => simp only [readSrc, Res.ok.injEq, Prod.mk.injEq] at h; rw [← h.2]; rfl
  | port k y _ => exact readPort_frame h
  | imm v => simp only [readSrc, Res.ok.injEq, Prod.mk.injEq] at h; rw [← h.2]; rfl
  | lit v => simp only [readSrc, Res.ok.injEq, Prod.mk.injEq] at h; rw [← h.2]; rfl
  | stream f pk _ =>
    simp only [readSrc, readStream] at h
    repeat' split at h
    all_goals first | cases h; rfl | cases h
  | recvq q pk _ =>
    simp only [readSrc, readQueue] at h
    repeat' split at h
    all_goals first | (cases h; first | rfl | (obtain ⟨n, e⟩ := refill_frame _ _; rw [e]; rfl)) | cases h
  | cq pk _ =>
    simp only [readSrc, readCq] at h
    repeat' split at h
    all_goals first | cases h; rfl | cases h

/-- Every move runs as the one move of a bundle. -/
theorem exec_move {i : Instr} {g : Guard} {x : Src} (hm : i.move = some (g, x)) : ∃ f : Fire, ∀ s, exec i s = runMove i g x f s := by
  cases i
  all_goals first
    | exact absurd (Eq.symm hm : some (g, x) = none) (Option.some_ne_none _)
    | (obtain ⟨rfl, rfl⟩ := Prod.mk.inj (Option.some.inj hm); exact ⟨_, fun _ => rfl⟩)

/-- A firing move is what its destination does with the value. -/
theorem runMove_fires {i : Instr} {g : Guard} {x : Src} {s : State} {v : Vec} {t : Tile} (h : Fires i g x s v t) (f : Fire) :
    runMove i g x f s = .next (settle s (f 1 x.hold v { s with cur := t })) := by
  simp [runMove, h.legal, h.guard, h.read, Res.bind]

/-- A firing move whose destination ends in a tile between bundles ends there. -/
theorem runMove_ok {i : Instr} {g : Guard} {x : Src} {s s' : State} {v : Vec} {t : Tile} {f : Fire} (h : Fires i g x s v t)
    (hf : f 1 x.hold v { s with cur := t } = .ok s') (hr : AtRest s'.cur) : runMove i g x f s = .next s' := by
  rw [runMove_fires h, hf, settle_ok hr]

/-- A tile read is a tile between bundles. -/
theorem Fires_rest {i : Instr} {g : Guard} {x : Src} {s : State} {v : Vec} {t : Tile} (h : Fires i g x s v t) : AtRest t := by
  have := readSrc_ctl h.read
  exact ⟨by rw [this]; exact h.rest.traps, by rw [this]; exact h.rest.mode⟩

/-- Taking operands leaves everything but the sockets. -/
theorem takeOperands_socks {sock code slot : Nat} {held : Bool} : ∀ {ports : List Nat} {t t' : Tile} {ops : List Vec},
    takeOperands t sock code slot held ports = .ok (ops, t') → ∃ k, t' = { t with socks := k }
  | [], t, t', ops, h => by cases h; exact ⟨t.socks, rfl⟩
  | p :: ps, t, t', ops, h => by
    unfold takeOperands at h
    dsimp only at h
    split at h
    · split at h
      · cases hq : takeOperands t sock code slot held ps with
        | ok q =>
          rw [hq] at h; cases h
          exact takeOperands_socks hq
        | freeze => rw [hq] at h; cases h
        | drain => rw [hq] at h; cases h
        | fault f => rw [hq] at h; cases h
      · cases h
    · rename_i v hv
      generalize ht : (if (runsFree t sock code || held || v.held) = true then t else putSock t sock _) = t1 at h
      cases hq : takeOperands t1 sock code slot held ps with
      | ok q =>
        rw [hq] at h; cases h
        obtain ⟨k, hk⟩ := takeOperands_socks hq
        refine ⟨k, ?_⟩
        rw [hk, ← ht]
        split <;> rfl
      | freeze => rw [hq] at h; cases h
      | drain => rw [hq] at h; cases h
      | fault f => rw [hq] at h; cases h

/-- Taking operands leaves a tile between bundles. -/
theorem takeOperands_rest {sock code slot : Nat} {held : Bool} {ports : List Nat} {t t' : Tile} {ops : List Vec}
    (h : takeOperands t sock code slot held ports = .ok (ops, t')) (hr : AtRest t) : AtRest t' := by
  obtain ⟨k, rfl⟩ := takeOperands_socks h
  exact ⟨hr.traps, hr.mode⟩

/-- Sending a result leaves a tile between bundles. -/
theorem deliver_rest {t : Tile} (h : AtRest t) (sock code y lat : Nat) (v : Vec) (n : Option Vec) :
    AtRest (deliver t sock code y lat v n) := ⟨h.traps, h.mode⟩

/-- Sending several results leaves a tile between bundles. -/
theorem deliverAll_rest (sock code lat : Nat) : ∀ (rs : List (Nat × Vec × Option Vec)) {t : Tile}, AtRest t →
    AtRest (rs.foldl (fun t r => deliver t sock code r.1 lat r.2.1 r.2.2) t)
  | [], _, h => h
  | _ :: rs, _, h => deliverAll_rest sock code lat rs (deliver_rest h ..)

/-- A trigger of a computing socket whose results are `rs`, due after `lat`: they are sent toward their ports. -/
theorem runMove_variable {i : Instr} {g : Guard} {x : Src} {s : State} {v : Vec} {t0 t : Tile} {sock code lat : Nat} {ports outs : List Nat}
    {ops : List Vec} {c : Tile → Nat → List Vec → Vec → Res (Nat × List (Nat × Vec × Option Vec))} {rs : List (Nat × Vec × Option Vec)}
    (h : Triggers i g x sock code ports outs s v t0 ops t) (hc : c t0 1 ops v = .ok (lat, rs)) :
    runMove i g x (fireVariable sock code ports outs c) s =
      .next { s with cur := rs.foldl (fun t r => deliver t sock code r.1 lat r.2.1 r.2.2) t } := by
  refine runMove_ok h.fires ?_ (deliverAll_rest sock code lat rs (takeOperands_rest h.takes (Fires_rest h.fires)))
  have h1 := h.takes
  have h2 := h.room
  unfold Takes at h1
  unfold Room at h2
  simp only [fireVariable, h1, h2, hc, Res.bind]

/-- The same at a fixed latency. -/
theorem runMove_compute {i : Instr} {g : Guard} {x : Src} {s : State} {v : Vec} {t0 t : Tile} {sock code lat : Nat} {ports outs : List Nat}
    {ops : List Vec} {c : Tile → Nat → List Vec → Vec → Res (List (Nat × Vec × Option Vec))} {rs : List (Nat × Vec × Option Vec)}
    (h : Triggers i g x sock code ports outs s v t0 ops t) (hc : c t0 1 ops v = .ok rs) :
    runMove i g x (fireCompute sock code lat ports outs c) s =
      .next { s with cur := rs.foldl (fun t r => deliver t sock code r.1 lat r.2.1 r.2.2) t } :=
  runMove_variable h (by simp [hc, Res.bind])

/-- The same with the one result y0. -/
theorem runMove_pure {i : Instr} {g : Guard} {x : Src} {s : State} {v : Vec} {t0 t : Tile} {sock code lat : Nat} {ports : List Nat}
    {ops : List Vec} {f : Tile → List Vec → Vec → Vec} (h : Triggers i g x sock code ports [0] s v t0 ops t) :
    runMove i g x (firePure sock code lat ports f) s = .next { s with cur := deliver t sock code 0 lat (f t0 ops v) none } := by
  unfold firePure
  exact runMove_compute (rs := [(0, f t0 ops v, none)]) h rfl

/-- The same where a control operand may be reserved. -/
theorem runMove_checked {i : Instr} {g : Guard} {x : Src} {s : State} {v r : Vec} {t0 t : Tile} {sock code lat : Nat} {ports : List Nat}
    {ops : List Vec} {f : Tile → List Vec → Vec → Option Vec} (h : Triggers i g x sock code ports [0] s v t0 ops t)
    (hf : f t0 ops v = some r) :
    runMove i g x (fireChecked sock code lat ports f) s = .next { s with cur := deliver t sock code 0 lat r none } := by
  unfold fireChecked
  exact runMove_compute (rs := [(0, r, none)]) h (by simp [hf])

end Sys2Proof.Machine
end

