-- ==== Sys2Proof/Laws/Tab.lean ====
section
/-!
SUPPORT. Laws/Tab.lean: reading a table after a write, the canonical form kept by every write, and the same for byte memories.
-/
namespace Sys2Proof.Machine

variable {α : Type}

/-! ## Reading after writing -/

@[simp] theorem tget_nil (d : α) (k : Nat) : tget d [] k = d := rfl

/-- A key taken out reads as the default. -/
@[simp] theorem tget_tdel_same (d : α) (t : Tab α) (k : Nat) : tget d (tdel t k) k = d := by
  induction t with
  | nil => rfl
  | cons e t ih =>
    unfold tdel
    split
    · exact ih
    · rename_i h; unfold tget; rw [if_neg h]; exact ih

/-- Another key reads as before. -/
theorem tget_tdel_other (d : α) (t : Tab α) {k j : Nat} (h : j ≠ k) : tget d (tdel t k) j = tget d t j := by
  induction t with
  | nil => rfl
  | cons e t ih =>
    unfold tdel
    split
    · rename_i hk; rw [ih]; conv => rhs; unfold tget
      rw [if_neg (by rw [hk]; exact Ne.symm h)]
    · unfold tget; rw [ih]

/-- A key put reads as its value. -/
@[simp] theorem tget_tput_same (d : α) (t : Tab α) (k : Nat) (x : α) : tget d (tput t k x) k = x := by
  induction t with
  | nil => simp [tput, tget]
  | cons e t ih =>
    unfold tput
    split
    · simp [tget]
    · split
      · simp [tget]
      · rename_i h; unfold tget; rw [if_neg h]; exact ih

/-- Another key reads as before. -/
theorem tget_tput_other (d : α) (t : Tab α) {k j : Nat} (x : α) (h : j ≠ k) : tget d (tput t k x) j = tget d t j := by
  induction t with
  | nil => simp [tput, tget, Ne.symm h]
  | cons e t ih =>
    unfold tput
    split
    · conv => lhs; unfold tget
      rw [if_neg (Ne.symm h)]
    · split
      · rename_i hk; unfold tget; rw [if_neg (Ne.symm h), if_neg (by rw [hk]; exact Ne.symm h)]
      · unfold tget; rw [ih]

/-- A key written reads as its value. -/
@[simp] theorem tget_tset_same [DecidableEq α] (d : α) (t : Tab α) (k : Nat) (x : α) : tget d (tset d t k x) k = x := by
  unfold tset; split
  · rename_i h; rw [tget_tdel_same, h]
  · exact tget_tput_same d t k x

/-- Another key reads as before. -/
theorem tget_tset_other [DecidableEq α] (d : α) (t : Tab α) {k j : Nat} (x : α) (h : j ≠ k) :
    tget d (tset d t k x) j = tget d t j := by
  unfold tset; split
  · exact tget_tdel_other d t h
  · exact tget_tput_other d t x h

/-- Both in one. -/
theorem tget_tset [DecidableEq α] (d : α) (t : Tab α) (k j : Nat) (x : α) :
    tget d (tset d t k x) j = if j = k then x else tget d t j := by
  by_cases h : j = k
  · rw [if_pos h, h, tget_tset_same]
  · rw [if_neg h, tget_tset_other d t x h]

/-- A key that may be absent, put. -/
@[simp] theorem tfind_tput_same (t : Tab α) (k : Nat) (x : α) : tfind (tput t k x) k = some x := by
  induction t with
  | nil => simp [tput, tfind]
  | cons e t ih =>
    unfold tput
    split
    · simp [tfind]
    · split
      · simp [tfind]
      · rename_i h; unfold tfind; rw [if_neg h]; exact ih

/-- Another key is found as before. -/
theorem tfind_tput_other (t : Tab α) {k j : Nat} (x : α) (h : j ≠ k) : tfind (tput t k x) j = tfind t j := by
  induction t with
  | nil => simp [tput, tfind, Ne.symm h]
  | cons e t ih =>
    unfold tput
    split
    · conv => lhs; unfold tfind
      rw [if_neg (Ne.symm h)]
    · split
      · rename_i hk; unfold tfind; rw [if_neg (Ne.symm h), if_neg (by rw [hk]; exact Ne.symm h)]
      · unfold tfind; rw [ih]

/-- A key taken out is absent. -/
@[simp] theorem tfind_tdel_same (t : Tab α) (k : Nat) : tfind (tdel t k) k = none := by
  induction t with
  | nil => rfl
  | cons e t ih =>
    unfold tdel
    split
    · exact ih
    · rename_i h; unfold tfind; rw [if_neg h]; exact ih

/-- Another key is found as before. -/
theorem tfind_tdel_other (t : Tab α) {k j : Nat} (h : j ≠ k) : tfind (tdel t k) j = tfind t j := by
  induction t with
  | nil => rfl
  | cons e t ih =>
    unfold tdel
    split
    · rename_i hk; rw [ih]; conv => rhs; unfold tfind
      rw [if_neg (by rw [hk]; exact Ne.symm h)]
    · unfold tfind; rw [ih]

/-- A table whose entries are changed one by one, the default staying what it is. -/
theorem tget_map (d : α) (f : α → α) (hf : f d = d) (t : Tab α) (k : Nat) :
    tget d (t.map fun e => (e.1, f e.2)) k = f (tget d t k) := by
  induction t with
  | nil => exact hf.symm
  | cons e t ih =>
    simp only [List.map_cons]
    unfold tget
    split
    · rfl
    · exact ih

/-! ## The canonical form -/

/-- Keys from a bound are keys from a lower one. -/
theorem keysFrom_mono {lo hi : Nat} (h : lo ≤ hi) {t : Tab α} (ht : keysFrom hi t = true) : keysFrom lo t = true := by
  cases t with
  | nil => rfl
  | cons e t =>
    simp only [keysFrom, Bool.and_eq_true, decide_eq_true_eq] at ht ⊢
    exact ⟨le_trans h ht.1, ht.2⟩

/-- Taking a key out keeps the keys rising. -/
theorem keysFrom_tdel {lo : Nat} {t : Tab α} (k : Nat) (ht : keysFrom lo t = true) : keysFrom lo (tdel t k) = true := by
  induction t generalizing lo with
  | nil => rfl
  | cons e t ih =>
    simp only [keysFrom, Bool.and_eq_true, decide_eq_true_eq] at ht
    unfold tdel
    split
    · exact ih (keysFrom_mono (by omega) ht.2)
    · simp only [keysFrom, Bool.and_eq_true, decide_eq_true_eq]
      exact ⟨ht.1, ih ht.2⟩

/-- Putting a key keeps the keys rising. -/
theorem keysFrom_tput {lo : Nat} {t : Tab α} {k : Nat} (x : α) (hk : lo ≤ k) (ht : keysFrom lo t = true) :
    keysFrom lo (tput t k x) = true := by
  induction t generalizing lo with
  | nil => simpa [tput, keysFrom] using hk
  | cons e t ih =>
    simp only [keysFrom, Bool.and_eq_true, decide_eq_true_eq] at ht
    unfold tput
    split
    · rename_i h
      simp only [keysFrom, Bool.and_eq_true, decide_eq_true_eq]
      exact ⟨hk, by omega, ht.2⟩
    · split
      · rename_i h
        simp only [keysFrom, Bool.and_eq_true, decide_eq_true_eq]
        exact ⟨hk, by rw [← h]; exact ht.2⟩
      · simp only [keysFrom, Bool.and_eq_true, decide_eq_true_eq]
        exact ⟨ht.1, ih (by omega) ht.2⟩

/-- Every entry of a table without a key is one of the table. -/
theorem mem_tdel {t : Tab α} {k : Nat} {e : Nat × α} (h : e ∈ tdel t k) : e ∈ t := by
  induction t with
  | nil => cases h
  | cons a t ih =>
    unfold tdel at h
    split at h
    · exact List.mem_cons_of_mem _ (ih h)
    · rcases List.mem_cons.mp h with h | h
      · exact List.mem_cons.mpr (.inl h)
      · exact List.mem_cons_of_mem _ (ih h)

/-- Every entry of a table with a key put is the new one or one of the table. -/
theorem mem_tput {t : Tab α} {k : Nat} {x : α} {e : Nat × α} (h : e ∈ tput t k x) : e = (k, x) ∨ e ∈ t := by
  induction t with
  | nil => exact .inl (by simpa [tput] using h)
  | cons a t ih =>
    unfold tput at h
    split at h
    · rcases List.mem_cons.mp h with h | h
      · exact .inl h
      · exact .inr h
    · split at h
      · rcases List.mem_cons.mp h with h | h
        · exact .inl h
        · exact .inr (List.mem_cons_of_mem _ h)
      · rcases List.mem_cons.mp h with h | h
        · exact .inr (List.mem_cons.mpr (.inl h))
        · rcases ih h with h | h
          · exact .inl h
          · exact .inr (List.mem_cons_of_mem _ h)

/-- A write keeps the canonical form. -/
theorem twf_tset [DecidableEq α] {d : α} {t : Tab α} (k : Nat) (x : α) (h : twf d t = true) : twf d (tset d t k x) = true := by
  simp only [twf, Bool.and_eq_true, List.all_eq_true] at h ⊢
  unfold tset
  split
  · exact ⟨keysFrom_tdel k h.1, fun e he => h.2 e (mem_tdel he)⟩
  · rename_i hx
    refine ⟨keysFrom_tput x (Nat.zero_le k) h.1, fun e he => ?_⟩
    rcases mem_tput he with rfl | he
    · simpa using hx
    · exact h.2 e he

/-! ## Memories -/

/-- A byte written reads as itself, every other as before. -/
theorem mget_mset (m : Memory) (a b : Nat) (x : Byte) : mget (mset m a x) b = if b = a then x else mget m b := tget_tset 0 m a b x

/-- Bytes outside those written read as before. -/
theorem mget_mwrite_other {bs : List Byte} {m : Memory} {a b : Nat} (h : b < a ∨ a + bs.length ≤ b) :
    mget (mwrite m a bs) b = mget m b := by
  induction bs generalizing m a with
  | nil => rfl
  | cons x xs ih =>
    simp only [List.length_cons] at h
    unfold mwrite
    rw [ih (by omega), mget_mset, if_neg (by omega)]

/-- A byte among those written reads as written. -/
theorem mget_mwrite_same {bs : List Byte} {m : Memory} {a i : Nat} (h : i < bs.length) :
    mget (mwrite m a bs) (a + i) = bs[i] := by
  induction bs generalizing m a i with
  | nil => exact absurd h (Nat.not_lt_zero i)
  | cons x xs ih =>
    unfold mwrite
    cases i with
    | zero => rw [mget_mwrite_other (by omega), mget_mset]; simp
    | succ i =>
      have := ih (m := mset m a x) (a := a + 1) (i := i) (by simpa using h)
      rw [show a + (i + 1) = a + 1 + i by omega, this]; rfl

/-- Reading back what was written. -/
theorem mread_mwrite (m : Memory) (a : Nat) (bs : List Byte) : mread (mwrite m a bs) a bs.length = bs := by
  have key : ∀ (n i : Nat) (m' : Memory), (∀ j, i ≤ j → j < bs.length → mget m' (a + j) = bs[j]?.getD 0) → n = bs.length - i →
      mread m' (a + i) n = bs.drop i := by
    intro n
    induction n with
    | zero => intro i m' _ hn; rw [List.drop_eq_nil_of_le (by omega)]; rfl
    | succ n ih =>
      intro i m' hm hn
      have hi : i < bs.length := by omega
      rw [mread, hm i (le_refl i) hi, show a + i + 1 = a + (i + 1) by omega,
        ih (i + 1) m' (fun j hj => hm j (by omega)) (by omega), List.drop_eq_getElem_cons hi]
      simp [hi]
  have := key bs.length 0 (mwrite m a bs) (fun j _ hj => by rw [mget_mwrite_same hj]; simp [hj]) (by omega)
  simpa using this

/-- A byte write keeps the canonical form. -/
theorem mset_wf {m : Memory} (a : Nat) (b : Byte) (h : Memory.wf m = true) : Memory.wf (mset m a b) = true := twf_tset a b h

/-- A write of bytes keeps the canonical form. -/
theorem mwrite_wf {m : Memory} (a : Nat) (bs : List Byte) (h : Memory.wf m = true) : Memory.wf (mwrite m a bs) = true := by
  induction bs generalizing m a with
  | nil => exact h
  | cons b bs ih => exact ih (a + 1) (mset_wf a b h)

/-- The memory of the machine after reset is in canonical form. -/
theorem reset_mem_wf : Memory.wf State.reset.dev.mem = true := rfl

end Sys2Proof.Machine
end

