-- ==== Sys2Proof/Laws/Bundles.lean ====
section
/-!
SUPPORT. Laws/Bundles.lean: a control operation as a bundle without moves, said once for every one of them.
-/
namespace Sys2Proof.Machine
open Sys2Proof.Machine.Claims

/-- The focused tile once the marks of the bundle before are gone. -/
def unmarked (t : Tile) : Tile := { t with ctl := { t.ctl with quietPoint := 0 } }

/-- The checks of a control operation do not look at those marks. -/
theorem ctlFault_unmarked (t : Tile) (i : Instr) : ctlFault (unmarked t) i = ctlFault t i := by cases i <;> rfl

/-- Nor does the quiet check. -/
theorem quietCheck_unmarked (s : State) : quietCheck (onCur unmarked s) = quietCheck s := rfl

/-- No moves: nothing is read, fired or raised. -/
theorem runMoves_nil (s : State) : runMoves [] none [] s = .ok s := by
  simp [runMoves, readAll, finishMoves, phaseOrder, bundleFault]

/-- A bundle without moves that passes its checks leaves the machine as it was. -/
theorem body_ok {i : Instr} {h : CtlHead} {s : State} (hi : Issues i h s) :
    bundleBody h.quiet none { ctl := i, moves := [] } (onCur unmarked s) = .ok (onCur unmarked s) := by
  have hf : ctlFault (onCur unmarked s).cur i = none := (ctlFault_unmarked s.cur i).trans hi.noFault
  have hq : (if h.quiet then quietCheck (onCur unmarked s) else .ok ()) = .ok () := by
    split
    · rename_i q; rw [quietCheck_unmarked]; exact hi.calm q
    · rfl
  have hm : endMoves (onCur unmarked s).cur = (onCur unmarked s).cur := by
    simp [endMoves, unmarked, hi.rest.mode]
  have h1 : illegalSlot (onCur unmarked s) [] = none := rfl
  have h2 : firing (onCur unmarked s).cur [] = [] := rfl
  have h3 : privilegesOf (onCur unmarked s).cur [] = [] := by simp [privilegesOf]
  unfold bundleBody
  dsimp only
  rw [if_pos hi.legal, h1, hf, hq, h2, h3]
  simp only [Option.filter_none, Option.toList_none, List.nil_append, runMoves_nil, Res.bind]
  show Res.ok { onCur unmarked s with cur := endMoves (onCur unmarked s).cur } = _
  rw [hm]

/-- What the control operation finds is at rest. -/
theorem atControl_rest {i : Instr} {h : CtlHead} {s : State} (hr : AtRest s.cur) : AtRest (atControl i h s).cur := by
  unfold atControl
  dsimp only
  split <;> exact ⟨hr.traps, hr.mode⟩

/-- A bundle without moves issues in one part (R91, R97). -/
theorem issueParts_nil (s : State) (i : Instr) : issueParts s i [] = 1 := by
  have hl : (ctlReads i).length ≤ 1 := by unfold ctlReads; split <;> simp
  have h : readsOf .x i [] ≤ 4 := by
    have hf := List.length_filter_le (fun k => k != 0) (ctlReads i)
    have hd : ∀ l : List Nat, l.length ≤ 1 → l.eraseDups.length ≤ 4 := by
      intro l hl
      match l, hl with
      | [], _ => simp
      | [k], _ => simp [List.eraseDups_cons]
    simpa [readsOf] using hd ((ctlReads i).filter fun k => k != 0) (by omega)
  have h1 : ceilDiv (readsOf .x i []) 4 ≤ 1 := by unfold ceilDiv; omega
  have h2 : ∀ c, c ≠ RegClass.x → readsOf c i [] = 0 := by intro c hc; simp [readsOf, hc]
  unfold issueParts
  rw [h2 .v (by decide), h2 .j (by decide), h2 .k (by decide)]
  simp [sharers, ceilDiv] at h1 ⊢
  omega

/-- A control operation that issues. -/
theorem issue_ok {i : Instr} {h : CtlHead} {s : State} (hi : Issues i h s) :
    (issueBundle false { ctl := i, moves := [] } s).1 =
      (let s3 := ctlEffect i (unmarked s.cur) h.xstall.toNat (atControl i h s)
       if s3.cur.run = .go then takeTraps s3.cur.pc.toNat false s3 else s3) := by
  have hb := body_ok hi
  have hh : (i.head).getD { xstall := 0, quiet := false, lit := .none } = h := by rw [hi.isControl]; rfl
  have hw : ((onCur unmarked s).cur.ctl.split.map SplitBundle.got) = none := by simp [unmarked, hi.whole]
  have hp : (( onCur unmarked s).cur.ctl.split.isNone && decide (1 < issueParts (onCur unmarked s) i (firing (onCur unmarked s).cur []))) = false := by
    rw [show firing (onCur unmarked s).cur [] = [] from rfl, issueParts_nil]; simp
  have ht : trapsFirst (onCur unmarked s).cur i (atControl i h s) = false := by
    simp [trapsFirst, (atControl_rest (i := i) (h := h) hi.rest).traps]
  unfold issueBundle
  dsimp only
  rw [hh, show (h.quiet && !false) = h.quiet by simp]
  change (match bundleBody h.quiet ((onCur unmarked s).cur.ctl.split.map SplitBundle.got) { ctl := i, moves := [] } (onCur unmarked s) with
    | .freeze => _ | .drain => _ | .fault f => _ | .ok s1 => _ : State × CycleKind).1 = _
  rw [hw, hb]
  dsimp only
  change (if ((onCur unmarked s).cur.ctl.split.isNone && decide (1 < issueParts (onCur unmarked s) i (firing (onCur unmarked s).cur []))) = true then _ else
    if trapsFirst (onCur unmarked s).cur i (atControl i h s) = true then _ else _ : State × CycleKind).1 = _
  rw [hp, ht]
  rfl

/-- Taking traps where none waits changes nothing. -/
theorem takeTraps_none {pc : Nat} {w : Bool} {s : State} (h : s.cur.ctl.traps = []) : takeTraps pc w s = s := by
  unfold takeTraps
  rw [h]
  exact congrArg (fun c => { s with cur := c }) (noTraps _ h)

/-- A control operation that issues and leaves no trap. -/
theorem issue_next {i : Instr} {h : CtlHead} {s s3 : State} (hi : Issues i h s)
    (he : ctlEffect i (unmarked s.cur) h.xstall.toNat (atControl i h s) = s3) (ht : s3.cur.ctl.traps = []) :
    (issueBundle false { ctl := i, moves := [] } s).1 = s3 := by
  rw [issue_ok hi]
  dsimp only
  rw [he, takeTraps_none ht]
  simp

end Sys2Proof.Machine
end

