-- ==== Sys2Proof/Tests/Slice0.lean ====
section
/-!
SUPPORT. Tests/Slice0.lean: our own tests. The words are written out from the encoding tables of the spec (R30, R33-R38, R41, R45), the expected
results of the steps from the rules the comments name, and the witnesses show for every statement with hypotheses a state and operands that meet them.
-/
set_option maxRecDepth 100000
set_option exponentiation.threshold 2000
namespace Sys2Proof.Tests
open Sys2Proof Sys2Proof.Machine Sys2Proof.Machine.Claims

/-- The guard !p5. -/
abbrev g5 : Guard := { inv := true, pred := 5 }
/-- The guard p0: always. -/
abbrev g0 : Guard := { inv := false, pred := 0 }
/-- A control word's head without extra cycles, quiet mark and literal. -/
abbrev h0 : CtlHead := { xstall := 0, quiet := false, lit := .none }
/-- The same with the quiet mark. -/
abbrev hq : CtlHead := { xstall := 0, quiet := true, lit := .none }
abbrev rx (n : BitVec 6) : Src := .reg { cls := .x, idx := n } false

/-! ## Well-formedness refuses each limit -/

theorem test_wf_register_index : Instr.wf (.moveToRegister g0 (.imm 1) { cls := .j, idx := 16 }) = false := by decide
theorem test_wf_source_index : Instr.wf (.iaPass g0 (.reg { cls := .k, idx := 8 } false) false) = false := by decide
theorem test_wf_hold : Instr.wf (.moveToRegister g0 (.reg { cls := .x, idx := 1 } true) { cls := .x, idx := 2 }) = false := by decide
theorem test_wf_hold_stream : Instr.wf (.moveToStream g0 (.reg { cls := .x, idx := 1 } true) 2) = false := by decide
theorem test_wf_source_socket : Instr.wf (.iaPass g0 (.port 20 0 false) false) = false ∧ Instr.wf (.iaPass g0 (.port 0 0 false) false) = false := by decide
theorem test_wf_source_port : Instr.wf (.iaPass g0 (.port 10 2 false) false) = false ∧ Instr.wf (.iaPass g0 (.port 6 3 false) false) = false := by decide
theorem test_wf_immediate : Instr.wf (.iaPass g0 (.imm 0x800) false) = false := by decide
theorem test_wf_operand_socket : Instr.wf (.moveToOperand g0 (.imm 1) 20 0) = false ∧ Instr.wf (.moveToOperand g0 (.imm 1) 0 0) = false := by decide
theorem test_wf_bra : Instr.wf (.ctlBra h0 0) = false := by decide
theorem test_wf_brp : Instr.wf (.ctlBrp h0 3 false 0) = false := by decide
theorem test_wf_loop_body : Instr.wf (.ctlLoop h0 0 0 1 0) = false := by decide
theorem test_wf_loop_stages : Instr.wf (.ctlLoop h0 1 7 1 0) = false := by decide
theorem test_wf_loop_no_literal : Instr.wf (.ctlLoop h0 1 0 1 5) = false := by decide
theorem test_wf_loop_short_literal : Instr.wf (.ctlLoop { h0 with lit := .w32 } 1 0 1 0x80000000) = false := by decide
theorem test_wf_lend : Instr.wf (.ctlLend h0 0) = false := by decide
theorem test_wf_wait : Instr.wf (.ctlWait h0 16 true) = false := by decide
theorem test_wf_fmt_field : Instr.wf (.ctlFmt h0 6 0) = false := by decide
theorem test_wf_fmt_value : Instr.wf (.ctlFmt h0 0 3) = false ∧ Instr.wf (.ctlFmt h0 2 5) = false := by decide
theorem test_wf_legal : Instr.wf (.ctlLoop { h0 with lit := .w32 } 1 6 1 0xFFFFFFFF80000000) = true ∧ Instr.wf (.iaPass g0 (.port 10 1 true) false) = true ∧
    Instr.wf (.ctlWait h0 63 false) = true := by decide

/-! ## Decoding -/

/-- The control words of R33: op in bits 25:21, xstall 31:29, quiet 28, literal form 27:26 (R30). -/
theorem test_decode_control : ∀ e ∈ ([(0x30000000, .ctlNop { xstall := 1, quiet := true, lit := .none }), (0x00200005, .ctlStall h0 5), (0x005FFFFF, .ctlBra h0 0x1FFFFF),
    (0x00670004, .ctlBrp h0 3 true 4), (0x0080000A, .ctlBri h0 10), (0x00A00010, .ctlCall h0 16), (0x00C00000, .ctlRet h0), (0x00E0064B, .ctlLoop h0 3 1 11 0),
    (0x01000003, .ctlLend h0 3), (0x01200000, .ctlLbrk h0), (0x0142C000, .ctlWait h0 5 true), (0x01600000, .ctlTrap h0), (0x01820004, .ctlFmt h0 2 4),
    (0x01A00000, .ctlUiret h0), (0x01C00000, .ctlStrokeend h0), (0x01E00000, .ctlHalt h0), (0x02000000, .ctlSret h0)] : List (BitVec 32 × Instr)),
    (decodeCtl e.1 0).toOption = some e.2 := by decide

/-- The moves of R38: a register (class 10:8, index 7:2), a stream (bit 11, register 10:7), an operand port (bit 12, socket 11:7, port 1:0). -/
theorem test_decode_moves : ∀ e ∈ ([(0x0400A31C, .moveToRegister g0 (.imm 5) { cls := .p, idx := 7 }), (0x0400A980, .moveToStream g0 (.imm 5) 3),
    (0x0400B501, .moveToOperand g0 (.imm 5) 10 1)] : List (BitVec 32 × Instr)), (decodeMove e.1 none).toOption = some e.2 := by decide

/-- The sources of R37: register with hold, port with hold, immediate −1, stream with peek, receive queue, completion queue. -/
theorem test_decode_sources : ∀ e ∈ ([(0x0041111C, .reg { cls := .v, idx := 1 } false), (0x0001911C, .reg { cls := .x, idx := 1 } true), (0x0265111C, .port 6 2 true),
    (0x05FFF11C, .imm (-1)), (0x061C111C, .stream 3 true false), (0x0690111C, .recvq 2 false false), (0x0704111C, .cq true false)] : List (BitVec 32 × Src)),
    (decodeMove e.1 none).toOption = some (.iaPass g0 e.2 true) := by decide

/-- Patterns that R49 calls no instruction, each refused by its own name. -/
theorem test_decode_refusals : ∀ e ∈ ([(0x0140111C, .sourceClass), (0x0090111C, .sourceIndex), (0x0001311C, .sourceBits), (0x0200111C, .sourceSocket),
    (0x0212111C, .sourcePort), (0x0500111C, .sourceLiteral), (0x0780111C, .sourceKind), (0x0400B000, .destSocket), (0x0400B084, .destPort),
    (0x0400B0A4, .destCode), (0x0400A500, .destClass), (0x0400A420, .destIndex), (0x0400A001, .destBits), (0x00018004, .hold)] : List (BitVec 32 × DecodeError)),
    decodeMove e.1 none = .error e.2 := by
  intro e he
  fin_cases he <;> rfl
theorem test_decode_control_refusals : ∀ e ∈ ([(0x0C000000, .controlLit), (0x02200000, .controlOp), (0x00000001, .controlBits), (0x00E003C0, .controlLimit)] :
    List (BitVec 32 × DecodeError)), decodeCtl e.1 0 = .error e.2 := by
  intro e he
  fin_cases he <;> rfl

/-- The words of the IA rows of R45: guard !p5, an immediate, the socket's number and the row's code (R35, R37, R38, R41). -/
theorem test_decode_ia : ∀ e ∈ ([(0xAC02B108, (.iaAdd g5 (.imm 21) true)), (0xAC02D109, (.iaSub g5 (.imm 22) true)), (0xAC02F10A, (.iaAnd g5 (.imm 23) true)),
    (0xAC03110B, (.iaOr g5 (.imm 24) true)), (0xAC03310C, (.iaXor g5 (.imm 25) true)), (0xAC03510D, (.iaAndn g5 (.imm 26) true)),
    (0xAC03710E, (.iaShl g5 (.imm 27) true)), (0xAC03910F, (.iaShr g5 (.imm 28) true)), (0xAC03B110, (.iaSra g5 (.imm 29) true)),
    (0xAC03D111, (.iaMin g5 (.imm 30) true)), (0xAC03F112, (.iaMax g5 (.imm 31) true)), (0xAC041113, (.iaMinu g5 (.imm 32) true)),
    (0xAC043114, (.iaMaxu g5 (.imm 33) true)), (0xAC045115, (.iaCeq g5 (.imm 34) true)), (0xAC047116, (.iaCne g5 (.imm 35) true)),
    (0xAC049117, (.iaClt g5 (.imm 36) true)), (0xAC04B118, (.iaCltu g5 (.imm 37) true)), (0xAC04D119, (.iaCle g5 (.imm 38) true)),
    (0xAC04F11A, (.iaCleu g5 (.imm 39) true)), (0xAC05111B, (.iaSel g5 (.imm 40) true)), (0xAC05311C, (.iaPass g5 (.imm 41) true)),
    (0xAC05511D, (.iaSext g5 (.imm 42) true)), (0xAC05711E, (.iaZext g5 (.imm 43) true)), (0xAC05911F, (.iaClz g5 (.imm 44) true)),
    (0xAC05B120, (.iaPopc g5 (.imm 45) true)), (0xAC05D121, (.iaAddsc g5 (.imm 46) true)), (0xAC05F122, (.iaBext g5 (.imm 47) true)),
    (0xAC061123, (.iaBins g5 (.imm 48) true))] : List (BitVec 32 × Instr)), (decodeMove e.1 none).toOption = some e.2 := by decide

/-- The words of the IMD rows of R45: guard !p5, an immediate, the socket's number and the row's code (R35, R37, R38, R41). -/
theorem test_decode_imd : ∀ e ∈ ([(0xAC063188, (.imdMul g5 (.imm 49))), (0xAC065189, (.imdMulh g5 (.imm 50))), (0xAC06718A, (.imdMulhu g5 (.imm 51))),
    (0xAC06918B, (.imdDiv g5 (.imm 52))), (0xAC06B18C, (.imdDivu g5 (.imm 53))), (0xAC06D18D, (.imdRem g5 (.imm 54))),
    (0xAC06F18E, (.imdRemu g5 (.imm 55)))] : List (BitVec 32 × Instr)), (decodeMove e.1 none).toOption = some e.2 := by decide

/-- The words of the VA rows of R45: guard !p5, an immediate, the socket's number and the row's code (R35, R37, R38, R41). -/
theorem test_decode_va : ∀ e ∈ ([(0xAC071288, (.vaFadd g5 (.imm 56) true)), (0xAC073289, (.vaFsub g5 (.imm 57) true)), (0xAC07528A, (.vaFmul g5 (.imm 58) true)),
    (0xAC07728B, (.vaFma g5 (.imm 59) true)), (0xAC07928C, (.vaFmin g5 (.imm 60) true)), (0xAC07B28D, (.vaFmax g5 (.imm 61) true)),
    (0xAC07D28E, (.vaFsgn g5 (.imm 62) true)), (0xAC07F28F, (.vaFcmp g5 (.imm 63) true)), (0xAC081290, (.vaFcvt g5 (.imm 64) true)),
    (0xAC083291, (.vaFround g5 (.imm 65) true)), (0xAC085292, (.vaFtoi g5 (.imm 66) true)), (0xAC087293, (.vaItof g5 (.imm 67) true)),
    (0xAC089294, (.vaIadd g5 (.imm 68) true)), (0xAC08B295, (.vaIsub g5 (.imm 69) true)), (0xAC08D296, (.vaImul g5 (.imm 70) true)),
    (0xAC08F297, (.vaIand g5 (.imm 71) true)), (0xAC091298, (.vaIor g5 (.imm 72) true)), (0xAC093299, (.vaIxor g5 (.imm 73) true)),
    (0xAC09529A, (.vaIshl g5 (.imm 74) true)), (0xAC09729B, (.vaIshr g5 (.imm 75) true)), (0xAC09929C, (.vaIsra g5 (.imm 76) true)),
    (0xAC09B29D, (.vaImin g5 (.imm 77) true)), (0xAC09D29E, (.vaImax g5 (.imm 78) true)), (0xAC09F29F, (.vaIcmp g5 (.imm 79) true)),
    (0xAC0A12A0, (.vaBlend g5 (.imm 80) true)), (0xAC0A32A1, (.vaSplat g5 (.imm 81) true)), (0xAC0A52A2, (.vaFclass g5 (.imm 82) true))] : List (BitVec 32 × Instr)), (decodeMove e.1 none).toOption = some e.2 := by decide

/-- The words of the VX rows of R45: guard !p5, an immediate, the socket's number and the row's code (R35, R37, R38, R41). -/
theorem test_decode_vx : ∀ e ∈ ([(0xAC0A7308, (.vxPerm g5 (.imm 83))), (0xAC0A9309, (.vxRot g5 (.imm 84))), (0xAC0AB30A, (.vxShufl g5 (.imm 85))),
    (0xAC0AD30B, (.vxRedadd g5 (.imm 86))), (0xAC0AF30C, (.vxRedmax g5 (.imm 87))), (0xAC0B130D, (.vxRedmin g5 (.imm 88))),
    (0xAC0B330E, (.vxScan g5 (.imm 89))), (0xAC0B530F, (.vxPart g5 (.imm 90))), (0xAC0B7310, (.vxCompact g5 (.imm 91))),
    (0xAC0B9311, (.vxExpand g5 (.imm 92))), (0xAC0BB312, (.vxBcast g5 (.imm 93)))] : List (BitVec 32 × Instr)), (decodeMove e.1 none).toOption = some e.2 := by decide

/-- The words of the SFU rows of R45: guard !p5, an immediate, the socket's number and the row's code (R35, R37, R38, R41). -/
theorem test_decode_sfu : ∀ e ∈ ([(0xAC0BD388, (.sfuExp2 g5 (.imm 94))), (0xAC0BF389, (.sfuLog2 g5 (.imm 95))), (0xAC0C138A, (.sfuRcp g5 (.imm 96))),
    (0xAC0C338B, (.sfuRsqrt g5 (.imm 97))), (0xAC00338C, (.sfuSqrt g5 (.imm 1))), (0xAC00538D, (.sfuSinpi g5 (.imm 2))),
    (0xAC00738E, (.sfuCospi g5 (.imm 3))), (0xAC00938F, (.sfuTanh g5 (.imm 4))), (0xAC00B390, (.sfuSigm g5 (.imm 5)))] : List (BitVec 32 × Instr)), (decodeMove e.1 none).toOption = some e.2 := by decide

/-- The words of the MX rows of R45: guard !p5, an immediate, the socket's number and the row's code (R35, R37, R38, R41). -/
theorem test_decode_mx : ∀ e ∈ ([(0xAC00D408, (.mxWload g5 (.imm 6))), (0xAC00F409, (.mxWswap g5 (.imm 7))), (0xAC01140A, (.mxMstream g5 (.imm 8))),
    (0xAC01340B, (.mxMstreamn g5 (.imm 9))), (0xAC01540C, (.mxMclr g5 (.imm 10))), (0xAC01740D, (.mxMread g5 (.imm 11))),
    (0xAC01940E, (.mxMacw g5 (.imm 12))), (0xAC01B40F, (.mxMivl g5 (.imm 13))), (0xAC01D410, (.mxWloadsp g5 (.imm 14)))] : List (BitVec 32 × Instr)), (decodeMove e.1 none).toOption = some e.2 := by decide

/-- The words of the QNT rows of R45: guard !p5, an immediate, the socket's number and the row's code (R35, R37, R38, R41). -/
theorem test_decode_qnt : ∀ e ∈ ([(0xAC01F488, (.qntQnt g5 (.imm 15))), (0xAC021489, (.qntQflush g5 (.imm 16))), (0xAC02348A, (.qntQrange g5 (.imm 17))),
    (0xAC02548B, (.qntQthr g5 (.imm 18)))] : List (BitVec 32 × Instr)), (decodeMove e.1 none).toOption = some e.2 := by decide

/-- The words of the IV rows of R45: guard !p5, an immediate, the socket's number and the row's code (R35, R37, R38, R41). -/
theorem test_decode_iv : ∀ e ∈ ([(0xAC027508, (.ivIadd g5 (.imm 19))), (0xAC029509, (.ivIsub g5 (.imm 20))), (0xAC02B50A, (.ivImul g5 (.imm 21))),
    (0xAC02D50B, (.ivIdiv g5 (.imm 22))), (0xAC02F50C, (.ivIsqr g5 (.imm 23))), (0xAC03150D, (.ivIsqrt g5 (.imm 24))),
    (0xAC03350E, (.ivIexp g5 (.imm 25))), (0xAC03550F, (.ivIlog g5 (.imm 26))), (0xAC037510, (.ivImax g5 (.imm 27))),
    (0xAC039511, (.ivImin g5 (.imm 28))), (0xAC03B512, (.ivIhull g5 (.imm 29))), (0xAC03D513, (.ivIsect g5 (.imm 30))),
    (0xAC03F514, (.ivImid g5 (.imm 31))), (0xAC041515, (.ivIrad g5 (.imm 32))), (0xAC043516, (.ivIwid g5 (.imm 33))),
    (0xAC045517, (.ivIcmp g5 (.imm 34))), (0xAC047518, (.ivIin g5 (.imm 35))), (0xAC049519, (.ivIsubset g5 (.imm 36))),
    (0xAC04B51A, (.ivImk g5 (.imm 37))), (0xAC04D51B, (.ivIlo g5 (.imm 38))), (0xAC04F51C, (.ivIhi g5 (.imm 39))),
    (0xAC051520, (.ivCadd g5 (.imm 40))), (0xAC053521, (.ivCsub g5 (.imm 41))), (0xAC055522, (.ivCmul g5 (.imm 42))),
    (0xAC057523, (.ivCdiv g5 (.imm 43))), (0xAC059524, (.ivCsqr g5 (.imm 44))), (0xAC05B525, (.ivCsqrt g5 (.imm 45))),
    (0xAC05D526, (.ivCexp g5 (.imm 46))), (0xAC05F527, (.ivClog g5 (.imm 47))), (0xAC061528, (.ivCmax g5 (.imm 48))),
    (0xAC063529, (.ivCmin g5 (.imm 49)))] : List (BitVec 32 × Instr)), (decodeMove e.1 none).toOption = some e.2 := by decide

/-- The words of the LW rows of R45: guard !p5, an immediate, the socket's number and the row's code (R35, R37, R38, R41). -/
theorem test_decode_lw : ∀ e ∈ ([(0xAC065608, (.lwLd g5 (.imm 50) true)), (0xAC067609, (.lwSt g5 (.imm 51) true)), (0xAC06960A, (.lwLdx g5 (.imm 52) true)),
    (0xAC06B60B, (.lwStx g5 (.imm 53) true)), (0xAC06D60C, (.lwBind g5 (.imm 54) true)), (0xAC06F60D, (.lwUnbind g5 (.imm 55) true)),
    (0xAC07160E, (.lwSeal g5 (.imm 56) true)), (0xAC07360F, (.lwRelease g5 (.imm 57) true)), (0xAC075610, (.lwGath g5 (.imm 58) true)),
    (0xAC077611, (.lwScat g5 (.imm 59) true))] : List (BitVec 32 × Instr)), (decodeMove e.1 none).toOption = some e.2 := by decide

/-- The words of the GM rows of R45: guard !p5, an immediate, the socket's number and the row's code (R35, R37, R38, R41). -/
theorem test_decode_gm : ∀ e ∈ ([(0xAC079688, (.gmLd g5 (.imm 60))), (0xAC07B689, (.gmSt g5 (.imm 61))), (0xAC07D68A, (.gmLdacq g5 (.imm 62))),
    (0xAC07F68B, (.gmStrel g5 (.imm 63))), (0xAC08168C, (.gmLdv g5 (.imm 64))), (0xAC08368D, (.gmStv g5 (.imm 65))),
    (0xAC08568E, (.gmAmo g5 (.imm 66))), (0xAC08768F, (.gmCas g5 (.imm 67))), (0xAC089690, (.gmFred g5 (.imm 68))),
    (0xAC08B691, (.gmFredrd g5 (.imm 69))), (0xAC08D692, (.gmFredclr g5 (.imm 70))), (0xAC08F693, (.gmFence g5 (.imm 71))),
    (0xAC091694, (.gmGath g5 (.imm 72))), (0xAC093695, (.gmScat g5 (.imm 73)))] : List (BitVec 32 × Instr)), (decodeMove e.1 none).toOption = some e.2 := by decide

/-- The words of the CP rows of R45: guard !p5, an immediate, the socket's number and the row's code (R35, R37, R38, R41). -/
theorem test_decode_cp : ∀ e ∈ ([(0xAC095708, (.cpCopy g5 (.imm 74))), (0xAC097709, (.cpCstat g5 (.imm 75))), (0xAC09970A, (.cpCcancel g5 (.imm 76))),
    (0xAC09B70B, (.cpPrefetch g5 (.imm 77)))] : List (BitVec 32 × Instr)), (decodeMove e.1 none).toOption = some e.2 := by decide

/-- The words of the NET rows of R45: guard !p5, an immediate, the socket's number and the row's code (R35, R37, R38, R41). -/
theorem test_decode_net : ∀ e ∈ ([(0xAC09D788, (.netSend g5 (.imm 78))), (0xAC09F789, (.netSendm g5 (.imm 79))), (0xAC0A178A, (.netPsend g5 (.imm 80))),
    (0xAC0A378B, (.netQcnt g5 (.imm 81)))] : List (BitVec 32 × Instr)), (decodeMove e.1 none).toOption = some e.2 := by decide

/-- The words of the SLU rows of R45: guard !p5, an immediate, the socket's number and the row's code (R35, R37, R38, R41). -/
theorem test_decode_slu : ∀ e ∈ ([(0xAC0A5808, (.sluSinit g5 (.imm 82))), (0xAC0A7809, (.sluArrive g5 (.imm 83))), (0xAC0A980A, (.sluArrivb g5 (.imm 84))),
    (0xAC0AB80B, (.sluStest g5 (.imm 85))), (0xAC0AD80C, (.sluSreset g5 (.imm 86))), (0xAC0AF80D, (.sluSemadd g5 (.imm 87))),
    (0xAC0B180E, (.sluSemsub g5 (.imm 88)))] : List (BitVec 32 × Instr)), (decodeMove e.1 none).toOption = some e.2 := by decide

/-- The words of the TT rows of R45: guard !p5, an immediate, the socket's number and the row's code (R35, R37, R38, R41). -/
theorem test_decode_tt : ∀ e ∈ ([(0xAC0B3888, (.ttHalloc g5 (.imm 89))), (0xAC0B5889, (.ttHfree g5 (.imm 90))), (0xAC0B788A, (.ttHstate g5 (.imm 91))),
    (0xAC0B988B, (.ttHset g5 (.imm 92))), (0xAC0BB88C, (.ttHinfo g5 (.imm 93)))] : List (BitVec 32 × Instr)), (decodeMove e.1 none).toOption = some e.2 := by decide

/-- The words of the LNK rows of R45: guard !p5, an immediate, the socket's number and the row's code (R35, R37, R38, R41). -/
theorem test_decode_lnk : ∀ e ∈ ([(0xAC0BD908, (.lnkLaunch g5 (.imm 94))), (0xAC0BF909, (.lnkMbind g5 (.imm 95))), (0xAC0C190A, (.lnkMunbind g5 (.imm 96))),
    (0xAC0C390B, (.lnkMpos g5 (.imm 97))), (0xAC00390C, (.lnkPermit g5 (.imm 1)))] : List (BitVec 32 × Instr)), (decodeMove e.1 none).toOption = some e.2 := by decide

/-- The words of the SYS rows of R45: guard !p5, an immediate, the socket's number and the row's code (R35, R37, R38, R41). -/
theorem test_decode_sys : ∀ e ∈ ([(0xAC005988, (.sysCsrr g5 (.imm 2))), (0xAC007989, (.sysCsrw g5 (.imm 3))), (0xAC00998A, (.sysCsrs g5 (.imm 4))),
    (0xAC00B98B, (.sysCsrc g5 (.imm 5))), (0xAC00D98C, (.sysTsc g5 (.imm 6))), (0xAC00F98D, (.sysEst g5 (.imm 7))),
    (0xAC01198E, (.sysEcall g5 (.imm 8))), (0xAC01398F, (.sysCouple g5 (.imm 9))), (0xAC015990, (.sysDecouple g5 (.imm 10)))] : List (BitVec 32 × Instr)), (decodeMove e.1 none).toOption = some e.2 := by decide
/-! ## Single steps, with results worked out by hand from the rules -/

/-- The first placed state: tile (0, 0, 0) about to issue an empty bundle at 256, at user privilege. -/
def base : State := State.reset.withFetchWord 32 0
/-- The same with a changed tile. -/
def baseWith (f : Tile → Tile) : State := onCur f base
/-- A tile with operands present on a socket. -/
def withOps (k : Nat) (l : List (Nat × Vec)) (t : Tile) : Tile :=
  putSock t k { sockOf t k with o := l.map fun q => (q.1, { val := q.2, held := false }) }
/-- A tile with a register. -/
def withX (n : Nat) (v : Word) (t : Tile) : Tile := putX t n v
/-- A tile at system privilege. -/
def asSystem (t : Tile) : Tile := { t with csr := { t.csr with status := t.csr.status ||| 1 } }
/-- The focused tile of what a meaning answers. -/
def tileAfter (r : Host.Outcome State Fault Refusal) : Tile := match r with | .next s => s.cur | _ => State.reset.cur
/-- The results that wait on a port. -/
def results (k y : Nat) (t : Tile) : List (Due × Vec) := (portOf (sockOf t k) y).fifo.map fun r => (r.due, r.val)

/-- R102: 7 + (−1) = 6, on its way for one cycle, and the operand is taken. -/
theorem test_ia_add : results 1 0 (tileAfter (exec (.iaAdd g0 (.imm (-1)) false) (baseWith (withOps 1 [(0, 7)])))) = [(.cycles 1, 6)] ∧
    (sockOf (tileAfter (exec (.iaAdd g0 (.imm (-1)) false) (baseWith (withOps 1 [(0, 7)])))) 1).o = [] := by decide
/-- R102: bits 3:0 of 0x18 sign-extended from bit 3: −8. -/
theorem test_ia_sext : results 2 0 (tileAfter (exec (.iaSext g0 (.imm 3) true) (baseWith (withOps 2 [(0, 0x18)])))) = [(.cycles 1, 0xFFFFFFFFFFFFFFF8)] := by decide
/-- R102: the field of length 8 at position 4 of 0xFFFF replaced by 0x12: 0xF12F. -/
theorem test_ia_bins : results 1 0 (tileAfter (exec (.iaBins g0 (.lit 0x804) false) (baseWith (withOps 1 [(0, 0xFFFF), (1, 0x12)])))) = [(.cycles 1, 0xF12F)] := by decide
/-- R103: −7 / 2 = −3 (toward zero) after 8 + ⌈2/2⌉ = 9; −7 rem 2 = −1. -/
theorem test_imd_div : results 3 0 (tileAfter (exec (.imdDiv g0 (.imm 2)) (baseWith (withOps 3 [(0, 0xFFFFFFFFFFFFFFF9)])))) = [(.cycles 9, 0xFFFFFFFFFFFFFFFD)] := by decide
theorem test_imd_rem : results 3 0 (tileAfter (exec (.imdRem g0 (.imm 2)) (baseWith (withOps 3 [(0, 0xFFFFFFFFFFFFFFF9)])))) = [(.cycles 9, 0xFFFFFFFFFFFFFFFF)] := by decide
/-- R103: a division by zero gives all ones after 8. -/
theorem test_imd_div_zero : results 3 0 (tileAfter (exec (.imdDivu g0 (.imm 0)) (baseWith (withOps 3 [(0, 5)])))) = [(.cycles 8, 0xFFFFFFFFFFFFFFFF)] := by decide
/-- R101: a missing operand of a data-locked trigger faults with cause 6 (0x06) of socket 1 in slot 1. -/
theorem test_missing_operand : (tileAfter (exec (.iaAdd g0 (.imm 1) false) base)).pc = 0 ∧ fld (tileAfter (exec (.iaAdd g0 (.imm 1) false) base)).csr.cause 0 8 = 6 := by decide
/-- R39: writes of x0 are discarded, a predicate of 3 becomes unknown. -/
theorem test_write_x0 : getX (tileAfter (exec (.moveToRegister g0 (.imm 5) { cls := .x, idx := 0 }) base)) 0 = 0 := by decide
theorem test_write_p : getP (tileAfter (exec (.moveToRegister g0 (.imm 3) { cls := .p, idx := 4 }) base)) 4 = 2 := by decide
/-- R36: an inverted guard on an unknown predicate does not fire. -/
theorem test_guard_unknown : getX (tileAfter (exec (.moveToRegister g5 (.imm 3) { cls := .x, idx := 4 })
    (baseWith fun t => { t with regs := { t.regs with p := [(5, 2)] } }))) 4 = 0 := by decide
/-- R125: csrr of FMT (CSR 0) gives its reset value 0x20 after two cycles; R47: a system CSR in user mode is cause 2. -/
theorem test_csrr : results 19 0 (tileAfter (exec (.sysCsrr g0 (.imm 0)) base)) = [(.cycles 2, 0x20)] := by decide
/-- R116: the fault inside the bundle at 256 saves it in EPC with w = 0 and enters system privilege. -/
theorem test_fault_entry : (tileAfter (exec (.iaAdd g0 (.imm 1) false) base)).csr.epc = 256 ∧ bit (tileAfter (exec (.iaAdd g0 (.imm 1) false) base)).csr.status 0 = true := by decide
/-- R104: no bundle is loaded at 260, so a bra there is a branch-target fault (cause 3). -/
theorem test_bra_fault : fld (tileAfter (exec (.ctlBra h0 4) base)).csr.cause 0 8 = 3 := by decide
/-- R33, R96: the empty bundle moves the PC on by one. -/
theorem test_step : (tileAfter (Machine.step base)).pc = 257 := by decide
/-- R30, R49: a word with a reserved op raises an illegal encoding at its bundle. -/
theorem test_step_illegal : fld (tileAfter (Machine.step (State.reset.withFetchWord 32 0xFFFFFFFF))).csr.cause 0 8 = 1 := by decide

/-! ## Witnesses: states and operands that meet the hypotheses of the statements -/

/-- A die without socket 5 (R316). -/
def noVa1 (s : State) : State := { s with dev := { s.dev with dies := s.dev.dies.map fun d => { d with engines := [(5, 32)] } } }

theorem witness_integer : ∃ row v t0 ops t, iaRow (.iaAdd g0 (.imm 5) false) = some row ∧
    Triggers (.iaAdd g0 (.imm 5) false) g0 (.imm 5) 1 8 row.ports [0] (baseWith (withOps 1 [(0, 7)])) v t0 ops t :=
  ⟨_, _, _, _, _, rfl, ⟨rfl, by decide, by decide, rfl, ⟨rfl, rfl⟩⟩, rfl, rfl, rfl⟩
theorem witness_multiply_divide : (∃ row v t0 ops t, imdMulRow (.imdMulh g0 (.imm 5)) = some row ∧
      Triggers (.imdMulh g0 (.imm 5)) g0 (.imm 5) 3 9 row.ports [0] (baseWith (withOps 3 [(0, 7)])) v t0 ops t) ∧
    (∃ v t0 ops t, imdDivRow (.imdDiv g0 (.imm 0)) = some (true, false) ∧ Triggers (.imdDiv g0 (.imm 0)) g0 (.imm 0) 3 11 [0] [0] (baseWith (withOps 3 [(0, 7)])) v t0 ops t) :=
  ⟨⟨_, _, _, _, _, rfl, ⟨rfl, by decide, by decide, rfl, ⟨rfl, rfl⟩⟩, rfl, rfl, rfl⟩,
   ⟨_, _, _, _, rfl, ⟨rfl, by decide, by decide, rfl, ⟨rfl, rfl⟩⟩, rfl, rfl, rfl⟩⟩
theorem witness_vector : ∃ row v t0 ops t, vaRow (.vaFma g0 (.imm 5) true) = some row ∧
    Triggers (.vaFma g0 (.imm 5) true) g0 (.imm 5) 5 11 row.ports [0] (baseWith (withOps 5 [(0, 7), (1, 9)])) v t0 ops t :=
  ⟨_, _, _, _, _, rfl, ⟨rfl, by decide, by decide, rfl, ⟨rfl, rfl⟩⟩, rfl, rfl, rfl⟩
theorem witness_control_operand : (∃ ports lat f v t0 ops t r, vaMayRow (.vaIcmp g0 (.imm 5) false) = some (ports, lat, f) ∧
      Triggers (.vaIcmp g0 (.imm 5) false) g0 (.imm 5) 4 31 ports [0] (baseWith (withOps 4 [(0, 7), (1, 11)])) v t0 ops t ∧ f t0 ops v = some r) ∧
    (∃ ports lat f v t0 ops t, vaMayRow (.vaIcmp g0 (.imm 5) false) = some (ports, lat, f) ∧
      Fires (.vaIcmp g0 (.imm 5) false) g0 (.imm 5) (baseWith (withOps 4 [(0, 7), (1, 6)])) v t0 ∧ Takes t0 4 31 (.imm 5) ports ops t ∧ f t0 ops v = none) :=
  ⟨⟨_, _, _, _, _, _, _, _, rfl, ⟨⟨rfl, by decide, by decide, rfl, ⟨rfl, rfl⟩⟩, rfl, rfl, rfl⟩, rfl⟩,
   ⟨_, _, _, _, _, _, _, rfl, ⟨rfl, by decide, by decide, rfl, ⟨rfl, rfl⟩⟩, rfl, rfl⟩⟩
theorem witness_cross_lane : ∃ row v t0 ops t, vxRow (.vxScan g0 (.imm 5)) = some row ∧
    Triggers (.vxScan g0 (.imm 5)) g0 (.imm 5) 6 14 row.ports [0] (baseWith (withOps 6 [(0, 1), (1, 7)])) v t0 ops t :=
  ⟨_, _, _, _, _, rfl, ⟨rfl, by decide, by decide, rfl, ⟨rfl, rfl⟩⟩, rfl, rfl, rfl⟩
/-- part with 64 lanes and with 0 and 65 (the bounds of R150), compact, expand. -/
theorem witness_list_building :
    (∀ n ∈ [(64 : Vec), 1, 0, 65], ∃ v t0 ops t, Triggers (.vxPart g0 (.imm 5)) g0 (.imm 5) 6 15 [0, 1] [0, 1, 2] (baseWith (withOps 6 [(0, n), (1, 7)])) v t0 ops t ∧ opAt ops 0 = n) ∧
    (∃ v t0 ops t, Triggers (.vxCompact g0 (.imm 5)) g0 (.imm 5) 6 16 [1] [0, 1] (baseWith (withOps 6 [(1, 7)])) v t0 ops t) ∧
    ∃ v t0 ops t, Triggers (.vxExpand g0 (.imm 5)) g0 (.imm 5) 6 17 [0, 1] [0, 1] (baseWith (withOps 6 [(0, 1), (1, 7)])) v t0 ops t := by
  refine ⟨fun n hn => ?_, ⟨_, _, _, _, ⟨rfl, by decide, by decide, rfl, ⟨rfl, rfl⟩⟩, rfl, rfl, rfl⟩,
    ⟨_, _, _, _, ⟨rfl, by decide, by decide, rfl, ⟨rfl, rfl⟩⟩, rfl, rfl, rfl⟩⟩
  fin_cases hn <;> exact ⟨_, _, _, _, ⟨⟨rfl, by decide, by decide, rfl, ⟨rfl, rfl⟩⟩, rfl, rfl, rfl⟩, rfl⟩
theorem witness_special : ∃ f v t0 ops t, sfuRow (.sfuExp2 g0 (.imm 5)) = some f ∧ Triggers (.sfuExp2 g0 (.imm 5)) g0 (.imm 5) 7 8 [] [0] base v t0 ops t :=
  ⟨_, _, _, _, _, rfl, ⟨rfl, by decide, by decide, rfl, ⟨rfl, rfl⟩⟩, rfl, rfl, rfl⟩
theorem witness_interval : (∃ row v t0 ops t, ivRow (.ivImul g0 (.imm 5)) = some row ∧
      Triggers (.ivImul g0 (.imm 5)) g0 (.imm 5) 10 10 row.ports [0] (baseWith (withOps 10 [(0, 7)])) v t0 ops t) ∧
    (∃ lat f v t0 ops t, contractTwoRow (.ivCadd g0 (.imm 5)) = some (lat, f) ∧
      Triggers (.ivCadd g0 (.imm 5)) g0 (.imm 5) 10 32 [0, 1] [0, 1] (baseWith (withOps 10 [(0, 7), (1, 8)])) v t0 ops t) ∧
    ∃ lat f v t0 ops t, contractOneRow (.ivCsqr g0 (.imm 5)) = some (lat, f) ∧
      Triggers (.ivCsqr g0 (.imm 5)) g0 (.imm 5) 10 36 [0] [0] (baseWith (withOps 10 [(0, 7)])) v t0 ops t :=
  ⟨⟨_, _, _, _, _, rfl, ⟨rfl, by decide, by decide, rfl, ⟨rfl, rfl⟩⟩, rfl, rfl, rfl⟩,
   ⟨_, _, _, _, _, _, rfl, ⟨rfl, by decide, by decide, rfl, ⟨rfl, rfl⟩⟩, rfl, rfl, rfl⟩,
   ⟨_, _, _, _, _, _, rfl, ⟨rfl, by decide, by decide, rfl, ⟨rfl, rfl⟩⟩, rfl, rfl, rfl⟩⟩

/-- A stream of sixteen 8-byte elements of handle 0, with `n` elements moved and `b` buffered. -/
def str (write : Bool) (n : Nat) (b : List (Vec × Nat)) (stopped : Bool := false) : Stream :=
  { h := 0, write := write, esz := 3, counts := [16], strides := [1], base := 0, buf := b, coming := [], moved := n, unit := n, rows := 0,
    stopped := stopped, fresh := false }

theorem witness_register_write : ∃ v t, Fires (.moveToRegister g0 (.imm 5) { cls := .x, idx := 63 }) g0 (.imm 5) base v t :=
  ⟨_, _, rfl, by decide, by decide, rfl, ⟨rfl, rfl⟩⟩
/-- A tile with handle 0 (128 bytes of L1, plain) and the stream f3. -/
def withStream (st : Stream) (t : Tile) : Tile :=
  { t with table := [(0, { level := 1, space := 0, off := 0, size := 128, rows := 4, cols := 4, esz := 8, tracked := false, declared := 0 })],
           streams := [(3, st)] }

theorem witness_port_and_stream : (∃ v t, Fires (.moveToOperand g0 (.imm 5) 19 3) g0 (.imm 5) base v t) ∧
    (∃ v t st, Fires (.moveToStream g0 (.imm 5) 3) g0 (.imm 5) (baseWith (withStream (str true 15 []))) v t ∧ tfind t.streams 3 = some st ∧ st.write = true ∧
      streamHeld t 3 = false ∧ st.moved < walkLen st ∧ elemOk t st st.moved = true ∧ st.buf.length < 8) ∧
    (∃ v t st, Fires (.moveToStream g0 (.imm 5) 3) g0 (.imm 5) (baseWith (withStream (str true 2 [] true))) v t ∧ tfind t.streams 3 = some st ∧ st.stopped = true) ∧
    (∃ v t, Fires (.moveToStream g0 (.imm 5) 3) g0 (.imm 5) base v t ∧ tfind t.streams 3 = none) ∧
    (∃ v t st, Fires (.moveToStream g0 (.imm 5) 3) g0 (.imm 5) (baseWith (withStream (str false 2 []))) v t ∧ tfind t.streams 3 = some st ∧ st.write = false) ∧
    (∃ v t st, Fires (.moveToStream g0 (.imm 5) 3) g0 (.imm 5) (baseWith (withStream (str true 16 []))) v t ∧ tfind t.streams 3 = some st ∧
      streamHeld t 3 = false ∧ walkLen st ≤ st.moved) :=
  ⟨⟨_, _, rfl, by decide, by decide, rfl, ⟨rfl, rfl⟩⟩,
   ⟨_, _, _, ⟨rfl, by decide, by decide, rfl, ⟨rfl, rfl⟩⟩, rfl, rfl, by decide, by decide, by decide, by decide⟩,
   ⟨_, _, _, ⟨rfl, by decide, by decide, rfl, ⟨rfl, rfl⟩⟩, rfl, rfl⟩,
   ⟨_, _, ⟨rfl, by decide, by decide, rfl, ⟨rfl, rfl⟩⟩, rfl⟩,
   ⟨_, _, _, ⟨rfl, by decide, by decide, rfl, ⟨rfl, rfl⟩⟩, rfl, rfl⟩,
   ⟨_, _, _, ⟨rfl, by decide, by decide, rfl, ⟨rfl, rfl⟩⟩, rfl, by decide, by decide⟩⟩
/-- A guard on a false and on an unknown predicate, an ill-formed move, and a move that names an absent socket. -/
theorem witness_guards : moveIllegal base (.iaPass { inv := false, pred := 3 } (.imm 5) false) = false ∧ getP base.cur 3 ≠ 1 ∧
    getP (baseWith fun t => { t with regs := { t.regs with p := [(3, 2)] } }).cur 3 ≠ 0 ∧ Instr.wf (.iaPass g0 (.imm 0x800) false) = false ∧
    5 ∈ namedSockets (.vaFadd g0 (.imm 5) true) ∧ engineOf (noVa1 base) (noVa1 base).cur.id 5 = 32 := by decide
theorem witness_sources : ∃ (t : Tile) (st : Stream) (v : Vec) (rest : List (Vec × Nat)) (qv : Vec) (cw : Word), tfind t.streams 3 = some st ∧ st.write = false ∧ streamHeld t 3 = false ∧
    st.moved < walkLen st ∧ st.buf = (v, 0) :: rest ∧ tget [] t.net.q 3 = [qv] ∧ tget [] t.net.q 2 = [] ∧ t.net.cq = [cw] :=
  ⟨(fun t => { t with net := { t.net with q := [(3, [9])], cq := [4] } }) (withStream (str false 15 [(6, 0)]) base.cur), _, _, _, 9, 4, rfl, rfl, by decide, by decide, rfl, rfl, rfl, rfl⟩
/-- A tile with a result port. -/
def withPort (k y : Nat) (p : Port) (t : Tile) : Tile := putSock t k (putPort (sockOf t k) y p)
/-- Every socket that can runs free, with STC.en. -/
def free (t : Tile) : Tile := { t with csr := { t.csr with sockmode := 0x4F6, stc := 1 } }
/-- A free-running ia0 with an operation in flight. -/
def flying : Tile := withPort 1 0 ⟨[], 0, false, [⟨1, 5, none⟩]⟩ (free base.cur)
theorem witness_result_ports :
    (∃ r rest, (portOf (sockOf (withPort 6 2 ⟨[⟨.ready, 5, none⟩], 0, false, []⟩ base.cur) 6) 2).fifo = r :: rest ∧ r.due = .ready) ∧
    (∃ r rest, (portOf (sockOf (withPort 6 2 ⟨[⟨.cycles 1, 5, none⟩], 0, false, []⟩ base.cur) 6) 2).fifo = r :: rest ∧ r.due ≠ .ready) ∧
    ((portOf (sockOf base.cur 6) 2).fifo = [] ∧ sockFree base.cur 6 = false) ∧
    ((portOf (sockOf flying 1) 0).fifo = [] ∧ sockFree flying 1 = true ∧ bit flying.csr.stc 0 = true ∧ (portOf (sockOf flying 1) 0).flight ≠ []) ∧
    (sockFree (free base.cur) 1 = true ∧ (portOf (sockOf (free base.cur) 1) 0).flight = []) :=
  ⟨⟨_, _, rfl, rfl⟩, ⟨_, _, rfl, by decide⟩, by decide, by decide, by decide⟩
theorem witness_operands : (∃ v, tfind (sockOf (withOps 1 [(0, 7)] base.cur) 1).o 0 = some v) ∧ tfind (sockOf base.cur 1).o 0 = none ∧
    runsFree base.cur 1 8 = false ∧ runsFree (free base.cur) 1 8 = true := ⟨⟨_, rfl⟩, by decide⟩
theorem witness_acceptance : runsFree (free base.cur) 6 8 = true ∧ (runsFree (free base.cur) 6 15 = false ∧ sockFree (free base.cur) 6 = true ∧
      anyFlight (sockOf (withPort 6 0 ⟨[], 0, false, [⟨1, 5, none⟩]⟩ (free base.cur)) 6) = true) ∧
    (runsFree base.cur 6 8 = false ∧ sockFree base.cur 6 = false) := by decide

/-! Control operations. -/

/-- A tile with ten loaded bundles, the PC at 260 and x7 = 262, x62 = 264, x9 = 3; bundle 262 is a lend of one bundle. -/
def coded (t : Tile) : Tile :=
  withX 9 3 <| withX 7 262 <| withX 62 264 { t with pc := 260, code := { t.code with ibuf := [(256, 0), (262, 0x01000001)], loaded := 10 } }
/-- The level of the body 261-262, in its first of three passes, at its lend. -/
def looped (t : Tile) : Tile :=
  { t with pc := 262, ctl := { t.ctl with loops := [{ top := 261, last := 262, trips := 3, stages := 0, pass := 0, strides := 0, window := [] }] } }
theorem not_quiet {i : Instr} {s : State} (a : i.head = some h0) (b : i.wf = true) (c : ctlFault s.cur i = none) (d : AtRest s.cur)
    (e : s.cur.ctl.split = none := by rfl) : Issues i h0 s :=
  ⟨a, b, c, fun e => absurd e (by decide), e, d⟩
theorem witness_straight : Issues (.ctlNop h0) h0 base ∧ Issues (.ctlStall h0 5) h0 base ∧ Issues (.ctlFmt h0 2 4) h0 base ∧
    Issues (.ctlNop { xstall := 7, quiet := true, lit := .none }) { xstall := 7, quiet := true, lit := .none } base :=
  ⟨not_quiet rfl rfl (by decide) ⟨rfl, rfl⟩, not_quiet rfl rfl (by decide) ⟨rfl, rfl⟩, not_quiet rfl rfl (by decide) ⟨rfl, rfl⟩,
   ⟨rfl, rfl, by decide, fun _ => rfl, rfl, ⟨rfl, rfl⟩⟩⟩
theorem witness_jumps : Issues (.ctlBra h0 (-4)) h0 (baseWith coded) ∧ Issues (.ctlBrp h0 0 true 5) h0 (baseWith coded) ∧ Issues (.ctlBri h0 7) h0 (baseWith coded) ∧
    Issues (.ctlCall h0 0) h0 (baseWith coded) ∧ Issues (.ctlRet h0) h0 (baseWith coded) :=
  ⟨not_quiet rfl rfl (by decide) ⟨rfl, rfl⟩, not_quiet rfl rfl (by decide) ⟨rfl, rfl⟩, not_quiet rfl rfl (by decide) ⟨rfl, rfl⟩,
   not_quiet rfl rfl (by decide) ⟨rfl, rfl⟩, not_quiet rfl rfl (by decide) ⟨rfl, rfl⟩⟩
/-- A loop of three passes, one of none, and a staged one. -/
theorem witness_loop_entry : Issues (.ctlLoop h0 2 0 9 0) h0 (baseWith coded) ∧ getX (baseWith coded).cur 9 = 3 ∧
    Issues (.ctlLoop h0 2 0 8 0) h0 (baseWith coded) ∧ getX (baseWith coded).cur 8 = 0 ∧ Issues (.ctlLoop h0 2 6 9 0) h0 (baseWith coded) :=
  ⟨not_quiet rfl rfl (by decide) ⟨rfl, rfl⟩, by decide, not_quiet rfl rfl (by decide) ⟨rfl, rfl⟩, by decide, not_quiet rfl rfl (by decide) ⟨rfl, rfl⟩⟩
theorem witness_loop_ends : (Issues (.ctlLend h0 1) h0 (baseWith (looped ∘ coded)) ∧ ∃ l ls, (baseWith (looped ∘ coded)).cur.ctl.loops = l :: ls ∧ l.pass + 1 < l.trips) ∧
    Issues (.ctlLbrk h0) h0 (baseWith (looped ∘ coded)) :=
  ⟨⟨not_quiet rfl rfl (by decide) ⟨rfl, rfl⟩, _, _, rfl, by decide⟩, not_quiet rfl rfl (by decide) ⟨rfl, rfl⟩⟩
theorem witness_waiting : Issues (.ctlWait h0 63 false) h0 base ∧ Issues (.ctlWait h0 15 true) h0 base ∧ Issues (.ctlStrokeend h0) h0 base ∧
    Issues (.ctlHalt h0) h0 (baseWith asSystem) :=
  ⟨not_quiet rfl rfl (by decide) ⟨rfl, rfl⟩, not_quiet rfl rfl (by decide) ⟨rfl, rfl⟩, not_quiet rfl rfl (by decide) ⟨rfl, rfl⟩,
   not_quiet rfl rfl (by decide) ⟨rfl, rfl⟩⟩
/-- A tile in a user-level interrupt handler that returns to 257. -/
def inHandler (t : Tile) : Tile := { t with csr := { t.csr with status := t.csr.status ||| 32, uiepc := 256 } }
theorem witness_trap : Issues (.ctlTrap h0) h0 base ∧ Issues (.ctlUiret h0) h0 (baseWith inHandler) ∧ Issues (.ctlSret h0) h0 (baseWith fun t => asSystem { t with csr := { t.csr with epc := 256 } }) :=
  ⟨not_quiet rfl rfl (by decide) ⟨rfl, rfl⟩, not_quiet rfl rfl (by decide) ⟨rfl, rfl⟩, not_quiet rfl rfl (by decide) ⟨rfl, rfl⟩⟩
/-- Each clause of the faults: user privilege, no handler and a handler, a level and none, a lend and a loop that do not fit, a target outside
the loaded bundles, and a jump out of the innermost body. -/
theorem witness_control_faults : AtRest base.cur ∧ isSystem base.cur = false ∧ bit base.cur.csr.status 5 = false ∧ base.cur.ctl.loops = [] ∧
    bit (inHandler base.cur).csr.status 5 = true ∧ (looped base.cur).ctl.loops ≠ [] ∧ Instr.wf (.ctlBra h0 0) = false ∧
    holdsLend (coded base.cur) 263 = false ∧ 2 ^ 32 ≤ (getX (withX 9 0x100000000 base.cur) 9).toNat ∧
    ctlTarget (coded base.cur) (.ctlBra h0 6) = some 266 ∧ targetLegal (coded base.cur) false 266 = false ∧ targetLegal (coded base.cur) false 265 = true ∧
    ctlTarget (looped (coded base.cur)) (.ctlBra h0 1) = some 263 ∧ targetLegal (looped (coded base.cur)) false 263 = true :=
  ⟨⟨rfl, rfl⟩, by decide⟩
theorem witness_quiet : Instr.head (.ctlNop hq) = some hq ∧ ctlFault base.cur (.ctlNop hq) = none ∧ AtRest base.cur ∧
    nothingFlies (withPort 1 0 ⟨[], 0, false, [⟨1, 5, none⟩]⟩ (free base.cur)) = false ∧ nothingFlies base.cur = true ∧ base.cur.ctl.fmtPending = [] ∧
    socketsDone (withPort 1 0 ⟨[⟨.cycles 1, 5, none⟩], 0, false, []⟩ base.cur) = false ∧ socketsDone base.cur = true ∧ transfersDone base = true ∧
    base.cur.code.live.find? (fun e => decide (256 + e.pc = base.cur.pc.toNat)) = none ∧
    ([⟨0, 1, 0, 0, 0, 0, 0, 0, 0, 0⟩] : List Live).find? (fun e => decide (256 + e.pc = base.cur.pc.toNat)) ≠ none :=
  ⟨rfl, by decide, ⟨rfl, rfl⟩, by decide, by decide, by decide, by decide, by decide, by decide, by decide, by decide⟩
/-- A user and a system tile take exceptions; page faults and other causes, and a placed node. -/
theorem witness_exceptions : isSystem base.cur = false ∧ isSystem (asSystem base.cur) = true ∧ (mkFault 20 1 8 1 0).cause = 20 ∧
    bit base.cur.csr.status 7 = false := by decide
/-! Triggers of the memory, array and message sockets. -/

/-- The trigger `i` fires with the source `x`, its operands are there and the socket has room; `P` holds of its value, its operands, the tile
after the source is read and the tile after the operands are taken. -/
def Ready (i : Instr) (x : Src) (sock code : Nat) (ports outs : List Nat) (s : State) (P : Vec → List Vec → Tile → Tile → Prop) : Prop :=
  ∃ v t0 ops t, Triggers i g0 x sock code ports outs s v t0 ops t ∧ P v ops t0 t

theorem witness_matrix :
    Ready (.mxWswap g0 (.imm 0)) (.imm 0) 8 9 [] [] base (fun v _ _ t => mxCheck t (mxOpOf t 9 1 v) = none ∧ t.mx.queue.length < 8) ∧
    Ready (.mxWswap g0 (.imm 0)) (.imm 0) 8 9 [] [] (baseWith fun t => { t with mx := { t.mx with queue := List.replicate 8 (mxOpOf t 9 1 0) } })
      (fun v _ _ t => mxCheck t (mxOpOf t 9 1 v) = none ∧ 8 ≤ t.mx.queue.length) ∧
    Ready (.mxMstream g0 (.imm 0)) (.imm 0) 8 10 [] [] base (fun v _ _ t => mxCheck t (mxOpOf t 10 1 v) = some 1 ∧ fld v 4 7 = 0) ∧
    Ready (.mxWload g0 (.imm 65)) (.imm 65) 8 8 [] [] base (fun v _ _ t => mxCheck t (mxOpOf t 8 1 v) = some 1 ∧ 64 < fld v 0 7) ∧
    Ready (.mxMclr g0 (.imm 255)) (.imm 255) 8 12 [] [] base (fun v _ _ t => busyMask t.mx &&& fld v 0 8 = 0) ∧
    Ready (.mxMacw g0 (.lit 0x207F6)) (.lit 0x207F6) 8 14 [0] [] (baseWith (withOps 8 [(0, 7)]))
      (fun v _ _ t => mxCheck t (mxOpOf t 14 1 v) = none ∧ busyMask t.mx &&& windowMask (vecWord v) = 0 ∧ bit (vecWord v) 17 = true) ∧
    Ready (.mxMacw g0 (.imm 7)) (.imm 7) 8 14 [0] [] (baseWith (withOps 8 [(0, 7)]))
      (fun v _ _ t => mxCheck t (mxOpOf t 14 1 v) = none ∧ busyMask t.mx &&& windowMask (vecWord v) = 0 ∧ bit (vecWord v) 17 = false) ∧
    Ready (.mxMread g0 (.lit 0x107F7)) (.lit 0x107F7) 8 13 [] [0] base
      (fun v _ _ t => mxCheck t (mxOpOf t 13 1 v) = none ∧ busyMask t.mx &&& windowMask (vecWord v) = 0 ∧ bit (vecWord v) 16 = true) := by
  refine ⟨?_, ?_, ?_, ?_, ?_, ?_, ?_, ?_⟩ <;>
    exact ⟨_, _, _, _, ⟨⟨rfl, by decide, by decide, rfl, ⟨rfl, rfl⟩⟩, rfl, rfl, rfl⟩, by decide⟩
theorem witness_quantiser :
    Ready (.qntQrange g0 (.imm 5)) (.imm 5) 9 10 [0] [] (baseWith (withOps 9 [(0, 16)]))
      (fun v ops t0 t => qntCheck t { code := 10, a := vecWord (opAt ops 0), b := v, vf := fmtOf t0 0, slot := 1, serial := t.serial } = none ∧ t.qnt.queue.length < 4) ∧
    Ready (.qntQrange g0 (.imm 5)) (.imm 5) 9 10 [0] [] (baseWith (withOps 9 [(0, 17)]))
      (fun v ops t0 t => qntCheck t { code := 10, a := vecWord (opAt ops 0), b := v, vf := fmtOf t0 0, slot := 1, serial := t.serial } = some 1) ∧
    Ready (.qntQnt g0 (.imm 5)) (.imm 5) 9 8 [0] [] (baseWith (withOps 9 [(0, 1)]))
      (fun v ops t0 t => qntCheck t { code := 8, a := vecWord (opAt ops 0), b := v, vf := fmtOf t0 0, slot := 1, serial := t.serial } = some 13) ∧
    Ready (.qntQflush g0 (.imm 0)) (.imm 0) 9 9 [] [0, 1, 2] base
      (fun v _ t0 t => qntCheck t { code := 9, a := 0, b := v, vf := fmtOf t0 0, slot := 1, serial := t.serial } = none ∧ t.qnt.queue.length < 4) ∧
    Ready (.qntQflush g0 (.imm 0)) (.imm 0) 9 9 [] [0, 1, 2] (baseWith fun t => { t with qnt := { t.qnt with queue := List.replicate 4 ⟨9, 0, 0, 0, 1, 0⟩ } })
      (fun v _ t0 t => qntCheck t { code := 9, a := 0, b := v, vf := fmtOf t0 0, slot := 1, serial := t.serial } = none ∧ 4 ≤ t.qnt.queue.length) := by
  refine ⟨?_, ?_, ?_, ?_, ?_⟩ <;> exact ⟨_, _, _, _, ⟨⟨rfl, by decide, by decide, rfl, ⟨rfl, rfl⟩⟩, rfl, rfl, rfl⟩, by decide⟩
/-- An aligned and a misaligned element access, and one with eight in flight; the four kinds. -/
theorem witness_local_elements :
    Ready (.lwLd g0 (.lit 0x86000) false) (.lit 0x86000) 11 8 [] [0] base (fun v _ t0 _ => fld (vecWord v) 16 32 % 2 ^ fld (vecWord v) 13 3 = 0 ∧ lwInFlight t0 11 < 8) ∧
    Ready (.lwLd g0 (.lit 0x46000) false) (.lit 0x46000) 11 8 [] [0] base (fun v _ _ _ => fld (vecWord v) 16 32 % 2 ^ fld (vecWord v) 13 3 ≠ 0) ∧
    Ready (.lwStx g0 (.lit 0x86000) true) (.lit 0x86000) 12 11 [0, 1] [] (baseWith (withOps 12 [(0, 1), (1, 2)])) (fun v _ t0 _ =>
      fld (vecWord v) 16 32 % 2 ^ fld (vecWord v) 13 3 = 0 ∧ lwInFlight t0 12 < 8) ∧
    Ready (.lwSt g0 (.lit 0x86000) true) (.lit 0x86000) 12 9 [0] [] (baseWith (withOps 12 [(0, 1)])) (fun _ _ t0 _ => lwInFlight t0 12 < 8) ∧
    Ready (.lwLdx g0 (.lit 0x86000) true) (.lit 0x86000) 12 10 [0] [0] (baseWith (withOps 12 [(0, 1)])) (fun _ _ t0 _ => lwInFlight t0 12 < 8) := by
  refine ⟨?_, ?_, ?_, ?_, ?_⟩ <;> exact ⟨_, _, _, _, ⟨⟨rfl, by decide, by decide, rfl, ⟨rfl, rfl⟩⟩, rfl, rfl, rfl⟩, by decide⟩
theorem witness_local_lists :
    Ready (.lwGath g0 (.lit 0x86000) false) (.lit 0x86000) 11 16 [0] [0] (baseWith (withOps 11 [(0, 1)])) (fun v ops t0 _ => fld (vecWord v) 13 3 ≤ 4 ∧
      fld (vecWord v) 16 32 % 2 ^ fld (vecWord v) 13 3 = 0 ∧ lwInFlight t0 11 < 8 ∧ listLanes (2 ^ fld (vecWord v) 13 3) (opAt ops 0) ≠ []) ∧
    Ready (.lwScat g0 (.lit 0x8A000) false) (.lit 0x8A000) 11 17 [0, 1] [] (baseWith (withOps 11 [(0, 1), (1, 2)])) (fun v _ _ _ => 4 < fld (vecWord v) 13 3) ∧
    Ready (.lwScat g0 (.lit 0x46000) false) (.lit 0x46000) 11 17 [0, 1] [] (baseWith (withOps 11 [(0, 1), (1, 2)])) (fun v _ _ _ => fld (vecWord v) 13 3 ≤ 4 ∧
      fld (vecWord v) 16 32 % 2 ^ fld (vecWord v) 13 3 ≠ 0) ∧
    Ready (.lwSeal g0 (.imm 3) true) (.imm 3) 12 14 [] [] base (fun _ _ t0 _ => lwInFlight t0 12 < 8) ∧
    Ready (.lwRelease g0 (.imm 3) true) (.imm 3) 12 15 [] [] base (fun _ _ t0 _ => lwInFlight t0 12 < 8) := by
  refine ⟨?_, ?_, ?_, ?_, ?_⟩ <;> exact ⟨_, _, _, _, ⟨⟨rfl, by decide, by decide, rfl, ⟨rfl, rfl⟩⟩, rfl, rfl, rfl⟩, by decide⟩
/-- bind: free, a count of 0, held by an operation, and bound; unbind: absent, with elements to store, and free to go. -/
theorem witness_stream_binding :
    Ready (.lwBind g0 (.imm 15) false) (.imm 15) 11 12 [0, 1, 2] [] (baseWith (withOps 11 [(0, 4), (1, 1), (2, 0)])) (fun v ops t0 _ =>
      0 ∉ ((List.range (fld (vecWord v) 8 2 + 1)).map fun k => fld (opAt ops 0) (16 * k) 16) ∧ streamHeld t0 15 = false ∧ ttHolds t0 0 t0.serial = false ∧
      tfind t0.streams 15 = none) ∧
    Ready (.lwBind g0 (.imm 15) false) (.imm 15) 11 12 [0, 1, 2] [] (baseWith (withOps 11 [(0, 0), (1, 1), (2, 0)])) (fun v ops _ _ =>
      0 ∈ ((List.range (fld (vecWord v) 8 2 + 1)).map fun k => fld (opAt ops 0) (16 * k) 16)) ∧
    Ready (.lwBind g0 (.imm 3) false) (.imm 3) 11 12 [0, 1, 2] [] (baseWith fun t => withStream (str true 0 []) (withOps 11 [(0, 4), (1, 1), (2, 0)] t)) (fun _ _ t0 _ =>
      streamHeld t0 3 = false ∧ tfind t0.streams 3 ≠ none) ∧
    Ready (.lwBind g0 (.imm 3) false) (.imm 3) 11 12 [0, 1, 2] [] (baseWith fun t => { withOps 11 [(0, 4), (1, 1), (2, 0)] t with tt := [⟨9, 0, 0, 0, 0, 1⟩], serial := 1 }) (fun _ _ t0 _ =>
      ttHolds t0 0 t0.serial = true) ∧
    Ready (.lwUnbind g0 (.imm 3) false) (.imm 3) 11 13 [] [0] base (fun _ _ t0 _ => tfind t0.streams 3 = none) ∧
    Ready (.lwUnbind g0 (.imm 3) false) (.imm 3) 11 13 [] [0] (baseWith (withStream (str true 1 [(5, 0)]))) (fun _ _ t0 _ => tfind t0.streams 3 = some (str true 1 [(5, 0)])) ∧
    Ready (.lwUnbind g0 (.imm 3) false) (.imm 3) 11 13 [] [0] (baseWith (withStream (str false 1 [(5, 0)]))) (fun _ _ t0 _ =>
      tfind t0.streams 3 = some (str false 1 [(5, 0)]) ∧ streamHeld t0 3 = false) := by
  refine ⟨?_, ?_, ?_, ?_, ?_, ?_, ?_⟩ <;> exact ⟨_, _, _, _, ⟨⟨rfl, by decide, by decide, rfl, ⟨rfl, rfl⟩⟩, rfl, rfl, rfl⟩, by decide⟩
/-- A tracked entry takes a write when empty and refuses a read; a plain one keeps no state. -/
theorem witness_handles : ∃ e e' : Entry, e.tracked = true ∧ hstep (hstateOf base e) .write ≠ none ∧ hstep (hstateOf base e) .read = none ∧ e'.tracked = false :=
  ⟨⟨1, 0, 0, 64, 4, 4, 4, true, 0⟩, ⟨1, 0, 0, 64, 4, 4, 4, false, 0⟩, by decide⟩
theorem witness_storage : poisonPart (spacePoison base 0) 8 5 3 = false ∧
    poisonPart (spacePoison (baseWith fun t => { t with wellPoison := [0] }) 10000) 8 5 3 = true := by decide
theorem witness_tile_table :
    Ready (.ttHstate g0 (.imm 3)) (.imm 3) 17 10 [] [0] base (fun v _ t0 _ => ttIllegal (withTile base t0) 10 0 0 (vecWord v) = false) ∧
    Ready (.ttHset g0 (.imm 3)) (.imm 3) 17 11 [0, 1] [] (baseWith (withOps 17 [(0, 1), (1, 2)])) (fun _ _ t0 _ => isSystem t0 = false) ∧
    Ready (.ttHset g0 (.imm 3)) (.imm 3) 17 11 [0, 1] [] (baseWith (asSystem ∘ withOps 17 [(0, 0), (1, 2)])) (fun v ops t0 _ => isSystem t0 = true ∧
      ttIllegal (withTile base t0) 11 (vecWord (opAt ops 0)) (vecWord (opAt ops 1)) (vecWord v) = true) ∧
    tfind (withStream (str true 0 []) base.cur).table 0 ≠ none ∧ tfind base.cur.table 0 = none ∧
    copyNames base.cur 0 = false := by
  refine ⟨?_, ?_, ?_, by decide⟩ <;> exact ⟨_, _, _, _, ⟨⟨rfl, by decide, by decide, rfl, ⟨rfl, rfl⟩⟩, rfl, rfl, rfl⟩, by decide⟩
/-- A machine whose context 0 maps the virtual addresses 0 to 2^30 - 1 to themselves by one leaf of level 1, readable and writable (R216, R217). -/
def mapped (s : State) : State :=
  { s with dev := { s.dev with mem := [(0x10000, 1), (0x10002, 2), (0x20000, 15)],
                               hw := { s.dev.hw with ctxs := [⟨0, 0x10000, 0, 0, ⟨0, 0, 0, [], 0⟩, ⟨0, 0, 0, [], 0⟩, [], []⟩] } } }
/-- R216-R219: the mapped address, and a page fault above the mapped range. -/
theorem test_translate : translate (mapped base) 0 0x12345 true true = .done 0x12345 ∧ translate (mapped base) 0 0x40000000 true false = .fault 20 := by decide

/-- A load of 8 bytes that translates, a fence, a reserved size, a misaligned address, a lane that does not translate, and 64 in flight. -/
theorem witness_global :
    Ready (.gmLd g0 (.lit 0x3000000001000)) (.lit 0x3000000001000) 13 8 [] [0] (mapped base) (fun v ops t0 t => gmIllegal 8 (vecWord v) = false ∧
      gmMisaligned 8 (vecWord v) (gmTargets 8 (vecWord v) (opAt ops 0)) = none ∧ (t0.gm.filter fun e => !e.isFence).length < 64 ∧
      ∃ l s1, gmLanes 8 1 true false (gmTargets 8 (vecWord v) (opAt ops 0)) (withTile (mapped base) t) = .ok (l, s1)) ∧
    Ready (.gmFence g0 (.lit 0x0400000000000000)) (.lit 0x0400000000000000) 13 19 [] [0] base (fun v ops _ t => gmIllegal 19 (vecWord v) = false ∧
      gmMisaligned 19 (vecWord v) (gmTargets 19 (vecWord v) (opAt ops 0)) = none ∧ ∃ l s1, gmLanes 19 1 true true (gmTargets 19 (vecWord v) (opAt ops 0)) (withTile base t) = .ok (l, s1)) ∧
    Ready (.gmLd g0 (.lit 0x5000000001000)) (.lit 0x5000000001000) 13 8 [] [0] base (fun v _ _ _ => gmIllegal 8 (vecWord v) = true) ∧
    Ready (.gmLdacq g0 (.lit 0x3000000001001)) (.lit 0x3000000001001) 13 10 [] [0] base (fun v ops _ _ => gmIllegal 10 (vecWord v) = false ∧
      gmMisaligned 10 (vecWord v) (gmTargets 10 (vecWord v) (opAt ops 0)) = some 0x1001) ∧
    Ready (.gmLd g0 (.lit 0x3000000001000)) (.lit 0x3000000001000) 13 8 [] [0] base (fun v ops _ t => gmIllegal 8 (vecWord v) = false ∧
      ∃ f, gmLanes 8 1 true false (gmTargets 8 (vecWord v) (opAt ops 0)) (withTile base t) = .fault f) ∧
    Ready (.gmLd g0 (.lit 0x3000000001000)) (.lit 0x3000000001000) 13 8 [] [0]
      (onCur (fun t => { t with gm := List.replicate 64 ⟨8, 0, 0, 0, [], 0, 0, false, 0, 0, 0, 0, 0⟩ }) (mapped base)) (fun v _ t0 _ => gmIllegal 8 (vecWord v) = false ∧
      64 ≤ (t0.gm.filter fun e => !e.isFence).length) := by
  refine ⟨?_, ?_, ?_, ?_, ?_, ?_⟩
  · exact ⟨_, _, _, _, ⟨⟨rfl, by decide, by decide, rfl, ⟨rfl, rfl⟩⟩, rfl, rfl, rfl⟩, by decide, by decide, by decide, _, _, rfl⟩
  · exact ⟨_, _, _, _, ⟨⟨rfl, by decide, by decide, rfl, ⟨rfl, rfl⟩⟩, rfl, rfl, rfl⟩, by decide, by decide, _, _, rfl⟩
  · exact ⟨_, _, _, _, ⟨⟨rfl, by decide, by decide, rfl, ⟨rfl, rfl⟩⟩, rfl, rfl, rfl⟩, by decide⟩
  · exact ⟨_, _, _, _, ⟨⟨rfl, by decide, by decide, rfl, ⟨rfl, rfl⟩⟩, rfl, rfl, rfl⟩, by decide⟩
  · exact ⟨_, _, _, _, ⟨⟨rfl, by decide, by decide, rfl, ⟨rfl, rfl⟩⟩, rfl, rfl, rfl⟩, by decide, _, rfl⟩
  · exact ⟨_, _, _, _, ⟨⟨rfl, by decide, by decide, rfl, ⟨rfl, rfl⟩⟩, rfl, rfl, rfl⟩, by decide⟩
/-- A one-lane request of this device, no poison, and cells in use and absent. -/
theorem witness_home : (∃ r : GmReq, r.lanes = [(0, 0x100)] ∧ r.code = 8 ∧ ownAddr base 0x100 = true ∧ addrStatus base 0x100 = 0 ∧
      memPoisoned base 0x100 (r.lenOf (0, 0x100)) = false) ∧
    (∃ r : GmReq, r.lanes = [(0, 0x100)] ∧ r.code = 14 ∧ r.lenOf (0, 0x100) = r.size) ∧
    cellsUsed base 0x100 + 1 ≤ 2 ^ 18 ∧ cellOf base 0 0x100 = none ∧
    ∃ s c, cellOf s 0 0x100 = some c ∧ c.count.toNat ≠ 2 ^ 40 - 1 ∧ addrStatus s 0x100 = 0 ∧ ∃ n m e, decodeFloat 0 (lane 32 0 (0x3F800000 : Vec)) = .fin n m e :=
  ⟨⟨⟨8, 0x3000000000100, 0, 0, [(0, 0x100)], 0, 0, false, 0, 0, 0, 0, 0⟩, rfl, rfl, by decide, by decide, by decide⟩,
   ⟨⟨14, 0x3000000000100, 0, 0, [(0, 0x100)], 0, 0, false, 0, 0, 0, 0, 0⟩, rfl, rfl, by decide⟩, by decide, by decide,
   { base with dev := { base.dev with cells := [freshCell 0 0x100] } }, _, rfl, by decide, by decide, _, _, _, rfl⟩

/-- A copy of three 8-byte elements from 0x1000 to 0x2000 with tag 5, in v1. -/
def copyDesc : Vec := 0x3000000000005003000000000000020000000000000001000
def withV1 (t : Tile) : Tile := { t with regs := { t.regs with v := [(1, copyDesc)] } }
def aCopy (tag : Nat) : Copy := ⟨BitVec.ofNat 1024 (tag * 2 ^ 144), 1, 0, 24, 0, none, false, none, none, false, 0, [], 0, none⟩
theorem witness_copies :
    Ready (.cpCopy g0 (.reg ⟨.v, 1⟩ false)) (.reg ⟨.v, 1⟩ false) 14 8 [] [] (baseWith withV1) (fun v _ t0 _ => copyIllegal v = false ∧ t0.copies.length < 1024 ∧
      bit (copySrc v) 63 = false ∧ bit (copyDst v) 63 = false) ∧
    Ready (.cpCopy g0 (.imm 5)) (.imm 5) 14 8 [] [] base (fun v _ _ _ => copyIllegal v = true) ∧
    Ready (.cpCopy g0 (.reg ⟨.v, 1⟩ false)) (.reg ⟨.v, 1⟩ false) 14 8 [] [] (baseWith fun t => { withV1 t with copies := List.replicate 1024 (aCopy 0) }) (fun v _ t0 _ =>
      copyIllegal v = false ∧ 1024 ≤ t0.copies.length) ∧
    Ready (.cpCstat g0 (.lit 0x10000)) (.lit 0x10000) 14 9 [] [0] base (fun v _ _ _ => bit (vecWord v) 16 = true) ∧
    Ready (.cpCstat g0 (.imm 5)) (.imm 5) 14 9 [] [0] (baseWith fun t => { t with copies := [aCopy 5] }) (fun v _ t0 _ => bit (vecWord v) 16 = false ∧
      t0.copies.find? (fun c => decide (copyTag c.desc = fld (vecWord v) 0 16)) ≠ none) ∧
    Ready (.cpCstat g0 (.imm 5)) (.imm 5) 14 9 [] [0] base (fun v _ t0 _ => bit (vecWord v) 16 = false ∧ ∀ c ∈ t0.copies, copyTag c.desc ≠ fld (vecWord v) 0 16) ∧
    Ready (.cpCcancel g0 (.imm 5)) (.imm 5) 14 10 [] [0] (baseWith fun t => { t with copies := [aCopy 5] }) (fun _ _ _ _ => True) ∧
    (∀ n ∈ [(1 : Vec), 0x100000, 0, 0x100001], Ready (.cpPrefetch g0 (.imm 5)) (.imm 5) 14 11 [0] [] (baseWith (withOps 14 [(0, n)])) (fun _ ops _ _ => opAt ops 0 = n)) := by
  refine ⟨?_, ?_, ?_, ?_, ?_, ?_, ?_, fun n hn => ?_⟩
  case refine_3 =>
    exact ⟨_, _, _, _, ⟨⟨rfl, by decide, by decide, rfl, ⟨rfl, rfl⟩⟩, rfl, rfl, rfl⟩, by decide +kernel,
      show 1024 ≤ (List.replicate 1024 (aCopy 0)).length by rw [List.length_replicate]⟩
  case refine_8 => fin_cases hn <;> exact ⟨_, _, _, _, ⟨⟨rfl, by decide, by decide, rfl, ⟨rfl, rfl⟩⟩, rfl, rfl, rfl⟩, rfl⟩
  case refine_1 => exact ⟨_, _, _, _, ⟨⟨rfl, by decide, by decide, rfl, ⟨rfl, rfl⟩⟩, rfl, rfl, rfl⟩, by decide +kernel⟩
  case refine_2 => exact ⟨_, _, _, _, ⟨⟨rfl, by decide, by decide, rfl, ⟨rfl, rfl⟩⟩, rfl, rfl, rfl⟩, by decide⟩
  case refine_4 => exact ⟨_, _, _, _, ⟨⟨rfl, by decide, by decide, rfl, ⟨rfl, rfl⟩⟩, rfl, rfl, rfl⟩, by decide⟩
  case refine_5 => exact ⟨_, _, _, _, ⟨⟨rfl, by decide, by decide, rfl, ⟨rfl, rfl⟩⟩, rfl, rfl, rfl⟩, by decide⟩
  case refine_6 => exact ⟨_, _, _, _, ⟨⟨rfl, by decide, by decide, rfl, ⟨rfl, rfl⟩⟩, rfl, rfl, rfl⟩, by decide⟩
  case refine_7 => exact ⟨_, _, _, _, ⟨⟨rfl, by decide, by decide, rfl, ⟨rfl, rfl⟩⟩, rfl, rfl, rfl⟩, by decide⟩

/-- A tile with the circuit 3 of one destination, and with `k` values that wait on it. -/
def withCircuit (k : Nat) (t : Tile) : Tile :=
  { t with net := { t.net with circuits := [⟨3, false, 1, false, 0, 1, 0, 0, 9, [0], []⟩], out := List.replicate k ⟨0, 5, 1, false, some 3, [], false, 0, false, false, false, none, none, none⟩ } }
theorem witness_net :
    Ready (.netSend g0 (.imm 3)) (.imm 3) 15 8 [0] [] (baseWith (withCircuit 3 ∘ withOps 15 [(0, 7)])) (fun v _ t0 _ => ∃ k, t0.net.circuits.find? (fun k => k.id == fld v 0 6) = some k ∧
      k.multi = false ∧ (t0.net.out.filter fun e => decide (e.circuit = some (fld v 0 6)) && !e.sent).length < 4) ∧
    Ready (.netSend g0 (.imm 3)) (.imm 3) 15 8 [0] [] (baseWith (withCircuit 4 ∘ withOps 15 [(0, 7)])) (fun v _ t0 _ =>
      4 ≤ (t0.net.out.filter fun e => decide (e.circuit = some (fld v 0 6)) && !e.sent).length) ∧
    Ready (.netSendm g0 (.imm 3)) (.imm 3) 15 9 [0] [] (baseWith (withCircuit 0 ∘ withOps 15 [(0, 7)])) (fun v _ t0 _ => ∃ k, t0.net.circuits.find? (fun k => k.id == fld v 0 6) = some k ∧ k.multi ≠ true) ∧
    Ready (.netSend g0 (.imm 3)) (.imm 3) 15 8 [0] [] (baseWith (withOps 15 [(0, 7)])) (fun v _ t0 _ => t0.net.circuits.find? (fun k => k.id == fld v 0 6) = none) ∧
    Ready (.netPsend g0 (.imm 0)) (.imm 0) 15 10 [0] [] (baseWith (withOps 15 [(0, 7)])) (fun v _ t0 _ => packetIllegal t0 (vecWord v) = false ∧ bit (vecWord v) 28 = false ∧
      (t0.net.out.filter fun e => e.circuit.isNone).length < 8) ∧
    Ready (.netPsend g0 (.lit 0x100000)) (.lit 0x100000) 15 10 [0] [] (baseWith (withOps 15 [(0, 7)])) (fun v _ t0 _ => packetIllegal t0 (vecWord v) = true ∧ bit (vecWord v) 28 = false) ∧
    Ready (.netPsend g0 (.lit 0x1000A000)) (.lit 0x1000A000) 15 10 [0] [] (baseWith (withOps 15 [(0, 7)])) (fun v _ _ _ => bit (vecWord v) 28 = true ∧ 4 < fld (vecWord v) 13 3) ∧
    Ready (.netPsend g0 (.imm 0)) (.imm 0) 15 10 [0] [] (baseWith fun t => withOps 15 [(0, 7)] { t with net := { t.net with out := List.replicate 8 ⟨0, 5, 1, false, none, [], false, 0, false, false, false, none, none, none⟩ } })
      (fun v _ t0 _ => packetIllegal t0 (vecWord v) = false ∧ 8 ≤ (t0.net.out.filter fun e => e.circuit.isNone).length) ∧
    Ready (.netQcnt g0 (.imm 4)) (.imm 4) 15 11 [] [0] base (fun v _ _ _ => bit v 2 = true) := by
  refine ⟨?_, ?_, ?_, ?_, ?_, ?_, ?_, ?_, ?_⟩
  · exact ⟨_, _, _, _, ⟨⟨rfl, by decide, by decide, rfl, ⟨rfl, rfl⟩⟩, rfl, rfl, rfl⟩, _, rfl, by decide, by decide⟩
  · exact ⟨_, _, _, _, ⟨⟨rfl, by decide, by decide, rfl, ⟨rfl, rfl⟩⟩, rfl, rfl, rfl⟩, by decide⟩
  · exact ⟨_, _, _, _, ⟨⟨rfl, by decide, by decide, rfl, ⟨rfl, rfl⟩⟩, rfl, rfl, rfl⟩, _, rfl, by decide⟩
  all_goals exact ⟨_, _, _, _, ⟨⟨rfl, by decide, by decide, rfl, ⟨rfl, rfl⟩⟩, rfl, rfl, rfl⟩, by decide⟩
/-- The reference of the first node of context 0. -/
def ref0 : NodeRef := ⟨0, 0, 0, 0, 0⟩
def decl0 : NodeDecl := ⟨0, 0, 0, 0, 0, 0, 1, 3, 0, 0, 0, 0, false, [], []⟩
def node0 (st : NodeState) : Node :=
  { ref := ref0, decl := decl0, state := st, cls := 0, prio := 0, rounds := 0, seq := 0, parts := [(0, 0, 0)], params := [], est := [], stopping := none,
    target := none, images := [], resume := false, saving := none, sweep := none, parent := none, placed := 0, chosen := none, phase := 0, failing := false, migrated := [], moving := none }
/-- A machine whose tile (0, 0, 0) holds a node of context 0, which maps its memory. -/
def noded (n : Node) (s : State) : State :=
  let s := mapped s
  let s := { s with dev := { s.dev with hw := { s.dev.hw with nodes := [n] } } }
  onCur (fun t => { t with place := { t.place with node := some n.ref } }) s
/-- A main of that node in slot 2, with nothing to fetch. -/
def main0 : Main :=
  { id := 1, ctx := 0, handle := 0, node := ref0, owner := 0, slot := 2, home := 0, key := 0, hash := [], stages := [], desc := 0, pages := [], n := 0, share := false,
    bound := true, faulted := false, attach := none, join := 0, pos := [], pipe := [], source := 0, rows := [], parked := none, part := 0 }
def withMain (m : Main) (s : State) : State := { s with dev := { s.dev with mains := [m] } }

theorem witness_link_triggers :
    Ready (.lnkLaunch g0 (.imm 0)) (.imm 0) 18 8 [0] [0] (baseWith (withOps 18 [(0, 7)])) (fun _ ops t0 _ => launchIllegal (opAt ops 0) = false ∧
      (t0.lnk.filter fun o => o.code == 8 || o.code == 0).length < 4) ∧
    Ready (.lnkLaunch g0 (.imm 0)) (.imm 0) 18 8 [0] [0] (baseWith (withOps 18 [(0, 0x80000)])) (fun _ ops _ _ => launchIllegal (opAt ops 0) = true) ∧
    Ready (.lnkLaunch g0 (.imm 0)) (.imm 0) 18 8 [0] [0] (baseWith fun t => withOps 18 [(0, 7)] { t with lnk := List.replicate 4 ⟨8, 0, 0⟩ }) (fun _ _ t0 _ =>
      4 ≤ (t0.lnk.filter fun o => o.code == 8 || o.code == 0).length) ∧
    Ready (.lnkMbind g0 (.imm 0)) (.imm 0) 18 9 [] [0] base (fun v _ t0 _ => mainIllegal v = false ∧ (t0.lnk.filter fun o => o.code == 9 || o.code == 10).length < 4) ∧
    Ready (.lnkMbind g0 (.lit 0x100000)) (.lit 0x100000) 18 9 [] [0] base (fun v _ _ _ => mainIllegal v = true) ∧
    Ready (.lnkMunbind g0 (.imm 0)) (.imm 0) 18 10 [] [0] (baseWith fun t => { t with lnk := List.replicate 4 ⟨10, 0, 0⟩ }) (fun _ _ t0 _ =>
      4 ≤ (t0.lnk.filter fun o => o.code == 9 || o.code == 10).length) ∧
    Ready (.lnkPermit g0 (.imm 0)) (.imm 0) 18 12 [] [0] base (fun v _ _ _ => fld v 16 16 = 0) ∧
    Ready (.lnkPermit g0 (.lit 0x10020)) (.lit 0x10020) 18 12 [] [0] base (fun v _ t0 _ => fld v 16 16 = 1 ∧ slotRuns (withTile base t0) [clusterOf t0.id] (fld v 4 4) = false) ∧
    Ready (.lnkPermit g0 (.lit 0xFFFF0020)) (.lit 0xFFFF0020) 18 12 [] [0] (withMain main0 (noded (node0 .running) base)) (fun v _ t0 _ => fld v 16 16 = 65535 ∧
      slotRuns (withTile (withMain main0 (noded (node0 .running) base)) t0) [clusterOf t0.id] (fld v 4 4) = true) := by
  refine ⟨?_, ?_, ?_, ?_, ?_, ?_, ?_, ?_, ?_⟩ <;> exact ⟨_, _, _, _, ⟨⟨rfl, by decide, by decide, rfl, ⟨rfl, rfl⟩⟩, rfl, rfl, rfl⟩, by decide⟩
/-- A reserved semaphore, a group off the rectangle of one tile, and each operation. -/
theorem witness_counter_triggers :
    Ready (.sluSreset g0 (.imm 0x50)) (.imm 0x50) 16 12 [] [] base (fun v _ _ _ => bit (vecWord v) 6 = true ∧ 16 ≤ fld (vecWord v) 0 6) ∧
    Ready (.sluSreset g0 (.imm 0x4F)) (.imm 0x4F) 16 12 [] [] base (fun v _ _ _ => fld (vecWord v) 0 6 = 15) ∧
    Ready (.sluSinit g0 (.lit 0x1003)) (.lit 0x1003) 16 8 [0] [] (baseWith (withOps 16 [(0, 7)])) (fun v _ t0 _ => rectRows t0.place ≤ fld (vecWord v) 12 4) ∧
    Ready (.sluSinit g0 (.imm 3)) (.imm 3) 16 8 [0] [] (baseWith (withOps 16 [(0, 7)])) (fun v _ t0 _ => fld (vecWord v) 12 4 + 2 ^ fld (vecWord v) 20 3 ≤ rectRows t0.place) ∧
    Ready (.sluArrive g0 (.imm 3)) (.imm 3) 16 9 [] [] base (fun _ _ t0 _ => (t0.arrives.filter fun e => e.held).length < 8) ∧
    Ready (.sluArrivb g0 (.imm 3)) (.imm 3) 16 10 [0] [] (baseWith (withOps 16 [(0, 0x100000000)])) (fun _ ops _ _ => fld (opAt ops 0) 0 64 % 2 ^ 32 = 0) ∧
    Ready (.sluSemadd g0 (.imm 3)) (.imm 3) 16 13 [0] [] (baseWith fun t => withOps 16 [(0, 7)] { t with arrives := List.replicate 8 ⟨0, false, 0, 1, 0, true, [], 0, []⟩ })
      (fun _ _ t0 _ => 8 ≤ (t0.arrives.filter fun e => e.held).length) := by
  refine ⟨?_, ?_, ?_, ?_, ?_, ?_, ?_⟩ <;> exact ⟨_, _, _, _, ⟨⟨rfl, by decide, by decide, rfl, ⟨rfl, rfl⟩⟩, rfl, rfl, rfl⟩, by decide⟩
theorem witness_counter_reports :
    Ready (.sluStest g0 (.imm 0x83)) (.imm 0x83) 16 11 [] [0] (baseWith fun t => { t with sluices := [(3, { Sluice.reset with p := 1 })] }) (fun v _ _ t => bit (vecWord v) 6 = false ∧
      bit (vecWord v) 8 = false ∧ bit (vecWord v) 7 = true ∧ 1 ≤ (sluiceOf (completeAll t) 3).p) ∧
    Ready (.sluStest g0 (.imm 0xCF)) (.imm 0xCF) 16 11 [] [0] (baseWith fun t => { t with sems := [(15, { Sem.reset with val := 2 })] }) (fun v _ _ t => bit (vecWord v) 6 = true ∧
      1 ≤ (semOf (completeAll t) 15).val) ∧
    Ready (.sluStest g0 (.imm 0x103)) (.imm 0x103) 16 11 [] [0] base (fun v _ _ _ => bit (vecWord v) 6 = false ∧ bit (vecWord v) 8 = true) ∧
    Ready (.sluStest g0 (.imm 0x4F)) (.imm 0x4F) 16 11 [] [0] base (fun v _ _ _ => bit (vecWord v) 6 = true ∧ bit (vecWord v) 7 = false) ∧
    Ready (.sluSemsub g0 (.imm 15)) (.imm 15) 16 14 [0] [0] (baseWith fun t => withOps 16 [(0, 2)] { t with sems := [(15, { Sem.reset with val := 2 })] }) (fun _ ops _ t =>
      fld (opAt ops 0) 0 64 % 2 ^ 32 = (semOf t 15).val) ∧
    Ready (.sluSemsub g0 (.imm 15)) (.imm 15) 16 14 [0] [0] (baseWith (withOps 16 [(0, 2)])) (fun _ ops _ t => (semOf t 15).val < fld (opAt ops 0) 0 64 % 2 ^ 32) := by
  refine ⟨?_, ?_, ?_, ?_, ?_, ?_⟩ <;> exact ⟨_, _, _, _, ⟨⟨rfl, by decide, by decide, rfl, ⟨rfl, rfl⟩⟩, rfl, rfl, rfl⟩, by decide⟩
theorem witness_csrs :
    Ready (.sysCsrr g0 (.imm 8)) (.imm 8) 19 8 [] [0] base (fun v _ _ _ => csrAccess v.toNat = none) ∧
    Ready (.sysCsrr g0 (.lit 0x100)) (.lit 0x100) 19 8 [] [0] base (fun v _ t0 _ => csrAccess v.toNat = some .system ∧ isSystem t0 = false) ∧
    Ready (.sysCsrw g0 (.imm 4)) (.imm 4) 19 9 [0] [0] (baseWith (withOps 19 [(0, 7)])) (fun v _ _ _ => csrAccess v.toNat = some .readOnly) ∧
    Ready (.sysCsrw g0 (.imm 2)) (.imm 2) 19 9 [0] [0] (baseWith (withOps 19 [(0, 7)])) (fun v _ _ _ => csrAccess v.toNat = some .user) ∧
    Ready (.sysCsrw g0 (.imm 3)) (.imm 3) 19 9 [0] [0] (baseWith (withOps 19 [(0, 7)])) (fun v _ t0 _ => csrAccess v.toNat = some .systemWrite ∧ isSystem t0 = false) ∧
    Ready (.sysCsrs g0 (.imm 0)) (.imm 0) 19 10 [0] [0] (baseWith (withOps 19 [(0, 1)])) (fun v _ _ _ => csrAccess v.toNat = some .user) ∧
    Ready (.sysCsrc g0 (.imm 1)) (.imm 1) 19 11 [0] [0] (baseWith (withOps 19 [(0, 1)])) (fun v _ t0 _ => csrAccess v.toNat = some .user ∧ modeWaits t0 0 = false) ∧
    Ready (.sysCsrw g0 (.lit 0x100)) (.lit 0x100) 19 9 [0] [0] (baseWith (asSystem ∘ withOps 19 [(0, 1)])) (fun v _ t0 _ => csrAccess v.toNat = some .system ∧ isSystem t0 = true) := by
  refine ⟨?_, ?_, ?_, ?_, ?_, ?_, ?_, ?_⟩ <;> exact ⟨_, _, _, _, ⟨⟨rfl, by decide, by decide, rfl, ⟨rfl, rfl⟩⟩, rfl, rfl, rfl⟩, by decide⟩
theorem witness_system :
    Ready (.sysTsc g0 (.imm 0)) (.imm 0) 19 12 [] [0] base (fun _ _ _ _ => True) ∧ Ready (.sysEst g0 (.imm 5)) (.imm 5) 19 13 [] [0] base (fun _ _ _ _ => True) ∧
    Ready (.sysEcall g0 (.imm 5)) (.imm 5) 19 14 [] [] base (fun _ _ _ _ => True) ∧
    Ready (.sysCouple g0 (.imm 0)) (.imm 0) 19 15 [] [0] base (fun _ _ t0 _ => isSystem t0 = false) ∧
    Ready (.sysCouple g0 (.imm 0)) (.imm 0) 19 15 [] [0] (baseWith asSystem) (fun v _ t0 _ => isSystem t0 = true ∧ v = 0 ∧ partnerInNode (withTile base t0) = false) ∧
    Ready (.sysDecouple g0 (.imm 0)) (.imm 0) 19 16 [] [0] (baseWith fun t => { asSystem t with csr := { (asSystem t).csr with status := 129 } }) (fun v _ t0 _ => isSystem t0 = true ∧ v = 0 ∧
      bit t0.csr.status 7 = true) ∧
    Ready (.sysDecouple g0 (.imm 1)) (.imm 1) 19 16 [] [0] (baseWith asSystem) (fun v _ t0 _ => isSystem t0 = true ∧ v ≠ 0) := by
  refine ⟨?_, ?_, ?_, ?_, ?_, ?_, ?_⟩ <;> exact ⟨_, _, _, _, ⟨⟨rfl, by decide, by decide, rfl, ⟨rfl, rfl⟩⟩, rfl, rfl, rfl⟩, by decide⟩

/-! Encodings and steps. -/

theorem witness_encode : (∃ g x, (Instr.netSend g5 (.stream 15 true true)).move = some (g, x) ∧ (Instr.netSend g5 (.stream 15 true true)).wf = true) ∧
    (∃ h, (Instr.ctlLoop { h0 with lit := .w64 } 4095 6 63 0x123456789ABCDEF0).head = some h ∧ (Instr.ctlLoop { h0 with lit := .w64 } 4095 6 63 0x123456789ABCDEF0).wf = true) ∧
    (∃ (b : Bundle) (h : CtlHead), b.ctl.head = some h ∧ b.ctl.wf = true ∧ b.moves.length = slotCount h.lit ∧ (∀ i ∈ b.moves, i.wf = true ∧ i.move.isSome = true)) ∧
    ∃ w b, decodeBundle w = .ok b :=
  ⟨⟨_, _, rfl, by decide⟩, ⟨_, rfl, by decide⟩, ⟨⟨.ctlNop h0, List.replicate 7 emptySlot⟩, h0, rfl, rfl, rfl, by decide⟩, ⟨0, _, rfl⟩⟩
theorem witness_step : Turn base ∧ Issuing (ringArrivals base).cur { ctl := .ctlNop h0, moves := List.replicate 7 emptySlot } ∧
    AtRest base.cur ∧ base.cur.ctl.quietPoint = 0 ∧ base.cur.ctl.split = none ∧ moveIllegal base (.iaPass g0 (.imm 5) false) = false ∧
    systemOnly (.iaPass g0 (.imm 5) false) = false ∧ ∃ f, fireOf (.iaPass g0 (.imm 5) false) = some f :=
  ⟨⟨rfl, by decide, by decide, ⟨by decide, by decide, by decide, by decide, by decide, .inl (by decide), by decide⟩⟩,
   ⟨by decide, by decide, by decide, by decide, by decide, by decide, rfl⟩, ⟨rfl, rfl⟩, rfl, rfl, by decide, by decide, _, rfl⟩
theorem witness_memory : ∃ m n : Memory, Memory.wf m = true ∧ Memory.wf n = true ∧ ∀ a, mget m a = mget n a := ⟨[(5, 1)], [(5, 1)], by decide, by decide, fun _ => rfl⟩
theorem witness_poison : poisonPart base.dev.poison 32 5 3 = false ∧ poisonPart [0] 32 5 3 = true := by decide
theorem witness_dispositions : ∃ s n, nodeOf s n.ref = some n ∧ n.state ≠ .ended ∧ curNode s = some n := ⟨noded (node0 .running) base, _, rfl, by decide, rfl⟩
/-! Events. The tile of every event is the focused one, `o0`. -/

/-- Tile (0, 0, 0) of die 0. -/
abbrev o0 : TileId := { die := 0, row := 0, col := 0 }
/-- A store of 8 bytes to 0x100 that has been performed. -/
def stored (st : Nat) : GmReq := ⟨9, 0x3000000000100, 5, 0, [(0, 0x100)], 7, 1, true, 0, st, 0, 0, 7⟩
/-- A tile whose first stroke waits for sluice 3. -/
def strokeTile (t : Tile) : Tile :=
  { t with run := .idle, code := { t.code with strokes := [⟨0, 0, 1, 0, 0, 0, [(false, 3)]⟩] }, sluices := [(3, { Sluice.reset with p := 1 })] }
/-- A tile with an interrupt event and a handler at 256, between two strokes. -/
def interrupted (t : Tile) : Tile :=
  { t with run := .between, csr := { t.csr with uivec := 0x8000000000000100 }, ctl := { t.ctl with events := [5] } }
theorem witness_sequencer :
    (let t := (focus o0 (baseWith fun t => { t with run := .frozen })).cur; Issuing t { ctl := .ctlNop h0, moves := List.replicate 7 emptySlot } ∧ t.run = .frozen ∧ t.ctl.split = none) ∧
    (let t := (focus o0 (baseWith fun t => { t with run := .frozen, ctl := { t.ctl with split := some { left := 1, got := [] } } })).cur; t.run = .frozen ∧
      t.ctl.split = some { left := 0 + 1, got := [] }) ∧
    (let t := (focus o0 (baseWith fun t => { t with run := .drain })).cur; Issuing t { ctl := .ctlNop h0, moves := List.replicate 7 emptySlot } ∧ t.run = .drain ∧ t.ctl.mode = none ∧ t.ctl.split = none) ∧
    (focus o0 (baseWith fun t => { t with ctl := { t.ctl with mode := some 2 } })).cur.ctl.mode = some 2 ∧
    (∃ p o, (sockOf (focus o0 (baseWith fun _ => flying)).cur 1).y = [(0, p)] ∧ p.flight = [o] ∧ o.rem ≤ 1 ∧ o.narrowed = none) ∧
    (∃ f, (focus o0 (baseWith fun t => { t with ctl := { t.ctl with late := [f] } })).cur.ctl.late = [f]) ∧
    (∀ st ∈ [0, 3, 6], (focus o0 (baseWith fun t => { t with gm := [stored st] })).cur.gm.find? (fun g => decide (g.serial = 7)) = some (stored st) ∧ (stored st).posted = true ∧
      (stored st).performed = true ∧ (stored st).st = st ∧ replyOpen (focus o0 (baseWith fun t => { t with gm := [stored st] })) (stored st) = true) ∧
    (let t := (focus o0 (baseWith strokeTile)).cur; t.run = .idle ∧ t.wheel % 20 = 0 ∧ cutHolds t = false ∧ spanFails (focus o0 (baseWith strokeTile)) = false ∧ ∃ k ks, t.code.strokes = k :: ks ∧
      ∀ w ∈ k.waits, (k.waits.filter fun v => v == w).length ≤ if w.1 then (semOf (completeAll t) w.2).val else (sluiceOf (completeAll t) w.2).p) ∧
    (let t := (focus o0 (baseWith fun t => { strokeTile t with run := .waiting false 3 2 })).cur; t.run = .waiting false 3 2 ∧ satisfied (completeAll t) false 3 = true) ∧
    (let t := (focus o0 (baseWith fun t => { t with run := .ending false 0 })).cur; t.run = .ending false 0 ∧ t.ctl.late = [] ∧ socketsDone t = true ∧ interruptReady t = false) ∧
    (let t := (focus o0 (baseWith interrupted)).cur; interruptReady t = true ∧ interruptPoint t = some (256, true) ∧ t.ctl.events = [5] ∧ targetLegal t false (fld t.csr.uivec 0 13) = true) ∧
    (let t := (focus o0 (baseWith fun t => { t with run := .halted 2 })).cur; t.run = .halted 2) ∧
    (let t := (focus o0 (baseWith fun t => { t with code := { t.code with running := true, period := 9 }, perf := { t.perf with hang := 9 } })).cur;
      t.code.period ≤ t.perf.hang ∧ t.code.running = true ∧ (∀ n, t.run ≠ .halted n) ∧ t.run ≠ .owner ∧ t.run ≠ .stopped) ∧
    (let t := (focus o0 (baseWith fun t => { t with csr := { t.csr with qib := 0x100000005 }, perf := { t.perf with quietGap := 6 } })).cur;
      bit t.csr.qib 32 = true ∧ fld t.csr.qib 0 32 < t.perf.quietGap ∧ ∀ f ∈ t.ctl.late, f.cause ≠ 11) :=
  ⟨⟨⟨by decide, rfl, by decide, by decide, rfl, rfl, rfl⟩, rfl, rfl⟩, ⟨rfl, rfl⟩, ⟨⟨by decide, rfl, by decide, by decide, rfl, rfl, rfl⟩, rfl, rfl, rfl⟩, rfl,
   ⟨_, _, rfl, rfl, by decide, rfl⟩, ⟨mkFault 13 8 8 0 0, rfl⟩, by decide, ⟨rfl, by decide, by decide, by decide, _, _, rfl, by decide⟩, ⟨rfl, by decide⟩,
   ⟨rfl, rfl, by decide, by decide⟩, by decide, rfl, ⟨by decide, rfl, fun _ => nofun, nofun, nofun⟩, by decide⟩

/-- A stream whose first store waits, with its handle plain and bytes left. -/
theorem witness_memory_events :
    (let u := focus o0 (baseWith (withStream (str false 0 []))); ∃ st e s', tfind u.cur.streams 3 = some st ∧ tfind u.cur.table st.h = some e ∧ st.fresh = false ∧ st.write = false ∧
      elemOk u.cur st st.unit = true ∧ st.buf.length + st.coming.length < 8 ∧ st.unit < walkLen st ∧ (u.cur.gm.all fun e => !e.fences 0) = true ∧ handleEvent u e .read = some s' ∧
      (spaceRead s' e.space (e.off + (elemOff st st.unit).toNat) (Machine.sizeOf st.esz)).2 = false) ∧
    (let u := focus o0 (baseWith (withStream (str true 0 [(5, 0)]))); ∃ st e v p rest s', tfind u.cur.streams 3 = some st ∧ tfind u.cur.table st.h = some e ∧ st.buf = (v, p) :: rest ∧
      elemOk u.cur st st.unit = true ∧ st.write = true ∧ st.stopped = false ∧ fenceLimit u.cur 3 = none ∧ (elemOff st st.unit).toNat + Machine.sizeOf st.esz ≤ e.size ∧
      handleEvent u e .write = some s') ∧
    (let u := focus o0 (baseWith fun t => { t with zero := [⟨0, ⟨1, 0, 0, 128, 4, 4, 8, false, 0⟩, [1], 3, false⟩] }); ∃ z, u.cur.zero = [z]) ∧
    (let t := (focus o0 (baseWith fun t => { t with mx := { t.mx with queue := [⟨10, 0x400, 0, 0, 0, false, 1, [], 1, 1⟩] } })).cur; ∃ o, t.mx.array = none ∧
      t.mx.queue.find? MxOp.isArray = some o ∧ o.age ≠ 0 ∧ ∀ l ∈ pendingLoads t.mx, l.seq < o.seq → l.plane ≠ o.plane) ∧
    (let t := (focus o0 (baseWith fun t => { t with mx := { t.mx with queue := [⟨9, 0, 0, 0, 0, false, 1, [], 1, 1⟩] } })).cur; ∃ o rest, t.mx.queue = o :: rest ∧ o.code = 9 ∧
      ∀ x ∈ t.mx.array.toList ++ pendingLoads t.mx, o.seq ≤ x.seq) ∧
    (let t := (focus o0 (baseWith fun t => { withStream { str true 0 [] with esz := 6, counts := [2] } t with qnt := { t.qnt with units := [(3, 9)] } })).cur; ∃ f v rest st,
      t.qnt.units = (f, v) :: rest ∧ tfind t.streams f = some st ∧ st.write = true ∧ st.esz = 6 ∧ st.moved < walkLen st ∧ elemOk t st st.moved = true ∧ st.stopped = false ∧ st.buf.length < 8) :=
  ⟨⟨_, _, _, rfl, rfl, rfl, rfl, by decide, by decide, by decide, by decide, rfl, by decide⟩, ⟨_, _, _, _, _, _, rfl, rfl, rfl, by decide, rfl, rfl, by decide, by decide, rfl⟩,
   ⟨_, rfl⟩, ⟨_, rfl, rfl, by decide, by decide⟩, ⟨_, _, rfl, rfl, by decide⟩, ⟨_, _, _, _, rfl, rfl, rfl, rfl, by decide, by decide, rfl, by decide⟩⟩
/-- A sparse-free load of one row of binary16 zeros that ends, and an interval stream that ends. -/
theorem witness_array_ends :
    (∃ e p, (Mx.reset).ending = [] ∧ ({ Mx.reset with ending := [e] } : Mx).ending.find? (fun e => e.op.isLoad == true) = some e ∧ loadedPlane e.op = .ok p) ∧
    ∃ e m, ({ Mx.reset with ending := [e] } : Mx).ending.find? (fun e => e.op.isLoad == false) = some e ∧
      completeArray { Mx.reset with ending := [] } e.op e.plane = .ok m :=
  ⟨⟨⟨0, ⟨8, 1, 0, 0, 0, false, 1, [], 1, 1⟩, Plane.reset⟩, _, rfl, rfl, rfl⟩, ⟨⟨0, ⟨15, 0x10, 0, 0, 0, false, 1, [], 1, 1⟩, Plane.reset⟩, _, rfl, rfl⟩⟩

/-- A machine whose node's tile holds the copy c. -/
def copying (c : Copy) (f : State → State := id) : State := focus o0 (f (onCur (fun t => { t with copies := [c] }) (noded (node0 .running) base)))
/-- The copy of copyDesc with the bytes `b` read. -/
def midCopy (b : List (Byte × Bool)) : Copy := ⟨copyDesc, 1, 0, 0, 0, none, false, none, none, false, 0, b, 0, none⟩
/-- A copy about to read, one about to write, one that is over, and one whose source does not translate. -/
theorem witness_copy_events :
    (let u := copying (midCopy []); ∃ c a s1, u.cur.copies.find? (fun d => decide (d.serial = c.serial)) = some c ∧ copyGoes u.cur c = true ∧ c.isRead = false ∧
      copyReadNext u c false = .ok (a, s1) ∧ slotRows c a = []) ∧
    (let u := copying (midCopy (List.replicate 8 (7, false))); ∃ c b s1 s2 n, u.cur.copies.find? (fun d => decide (d.serial = c.serial)) = some c ∧ copyGoes u.cur c = true ∧
      c.isRead = true ∧ bit u.cur.csr.status 7 = false ∧ c.put = 0 ∧ copyWriteNext u c false = .ok (b, s1) ∧ slotRows c b = [] ∧
      copyWrite (spotWalked c true s1) (copyElem c.desc) c.buf b = some (s2, n)) ∧
    (let u := copying { aCopy 5 with finished := true }; ∃ c, u.cur.copies.find? (fun d => decide (d.serial = c.serial)) = some c ∧ c.finished = true) ∧
    (let u := focus o0 (baseWith fun t => { t with copies := [midCopy []] }); ∃ c cause d, u.cur.copies.find? (fun d => decide (d.serial = c.serial)) = some c ∧
      c.parked = none ∧ c.finished = false ∧ copyStop u c = some (cause, d)) :=
  ⟨⟨midCopy [], _, _, rfl, by decide, by decide, rfl, rfl⟩, ⟨midCopy (List.replicate 8 (7, false)), _, _, _, _, rfl, by decide, by decide, by decide, rfl, rfl, rfl, rfl⟩,
   ⟨{ aCopy 5 with finished := true }, rfl, rfl⟩, ⟨midCopy [], _, _, rfl, rfl, rfl, rfl⟩⟩
/-- An arrival and an addition under way, and a release that may take effect. -/
theorem witness_counter_events :
    (∀ b ∈ [true, false], let t := (focus o0 (baseWith fun t => { t with arrives := [⟨4, b, 3, 1, 0, false, [(o0, 0)], 9, []⟩] })).cur;
      ∃ a q, t.arrives.find? (fun b => decide (b.serial = a.serial)) = some a ∧ a.held = false ∧ packetTarget t a = some q ∧ a.sem = b) ∧
    (let u := focus o0 (baseWith fun t => { t with arrives := [⟨4, true, 3, 1, 0, true, [(o0, 0)], 9, []⟩] }); ∃ a, releasable u = some a) := by
  refine ⟨fun b hb => ?_, ⟨_, rfl⟩⟩
  fin_cases hb
  · exact ⟨⟨4, true, 3, 1, 0, false, [(o0, 0)], 9, []⟩, _, rfl, rfl, rfl, rfl⟩
  · exact ⟨⟨4, false, 3, 1, 0, false, [(o0, 0)], 9, []⟩, _, rfl, rfl, rfl, rfl⟩

/-- An element in a tile's network interface: of the circuit c or a packet, sent or refused. -/
def elem (c : Option Nat) (sent : Bool) (multi refused : Bool := false) (age : Nat := 0) : Elem :=
  ⟨0, 5, 1, false, c, [o0], sent, age, multi, refused, false, none, none, none⟩
def sending (l : List Elem) (t : Tile) : Tile := { t with net := { t.net with out := l } }
/-- A circuit whose first flit may leave at its first offset, and an element that arrives: alone, and behind an older one. -/
theorem witness_circuit_events :
    (let u := focus o0 (baseWith (withCircuit 1)); ∃ e k, nextElem u 3 = some e ∧ u.cur.net.circuits.find? (fun k => k.id == 3) = some k ∧ (3 : Nat) ∉ u.cur.net.slotDone ∧
      k.offs.idxOf u.cur.net.revCount < k.offs.length ∧ slotFits e (k.offs.idxOf u.cur.net.revCount) = true) ∧
    (let t := (focus o0 (baseWith (sending [elem (some 3) true]))).cur; ∃ e c, t.net.out.find? (fun d => decide (d.serial = e.serial)) = some e ∧ e.sent = true ∧
      e.circuit = some c ∧ e.age = 0 ∧ ∀ d ∈ t.net.out, d.circuit = some c → e.serial ≤ d.serial) ∧
    (let t := (focus o0 (baseWith (sending [elem (some 3) true, { elem (some 3) true with serial := 1 }]))).cur; ∃ e c,
      t.net.out.find? (fun d => decide (d.serial = e.serial)) = some e ∧ e.sent = true ∧ e.circuit = some c ∧ e.age = 0 ∧ ∃ d ∈ t.net.out, d.circuit = some c ∧ d.serial < e.serial) :=
  ⟨⟨_, _, rfl, rfl, by decide, by decide, by decide⟩, ⟨elem (some 3) true, 3, rfl, rfl, rfl, rfl, by decide⟩,
   ⟨{ elem (some 3) true with serial := 1 }, 3, rfl, rfl, rfl, rfl, elem (some 3) true, by decide⟩⟩
/-- A full queue and a full spillway. -/
def full (t : Tile) : Tile := { t with net := { t.net with q := [(1, List.replicate 16 0)], spill := (List.range 512).map fun k => (4 * k + 1, 0) } }
/-- A packet to the tile itself, to tiles of other routers, and one of several destinations. -/
theorem witness_packet_refused : let e := elem none false; let u := focus o0 (baseWith (full ∘ sending [e])); packetOf u e.serial = some e ∧ packetHop u e = .here ∧
    let o := offer e o0 (leaveBuffer 0 packetFlits e.buf u); o.1 = false ∧
      packetOf (onCur (putPacket e.serial o0 fun d => { d with refused := true, age := 0, place := none, buf := none })
        (returnPacket u.cur.id 32 (e.router u.cur.id).1 (e.router u.cur.id).2 o.2)) e.serial = none := by decide
theorem witness_packet_events :
    (spillCount (tileAt base o0) 1 = 0 ∧ (tget [] (tileAt base o0).net.q 1).length < 16) ∧
    (let u := focus o0 (baseWith (sending [elem none false])); let e := elem none false; packetOf u e.serial = some e ∧ packetHop u e = .here ∧
      let o := offer e o0 (leaveBuffer 0 packetFlits e.buf u); o.1 = true ∧ packetOf (onCur (putPacket e.serial o0 fun d => { d with dsts := [] }) o.2) e.serial = none) ∧
    (∀ i ∈ [(⟨0, 0, 4⟩ : TileId), ⟨0, 15, 3⟩], let e := { elem none false with dsts := [i] }; let u := focus o0 (baseWith (sending [e]));
      packetOf u e.serial = some e ∧ ∃ ks d r, packetHop u e = .across ks d r) ∧
    (let e := elem none false true; let u := focus o0 (baseWith (sending [e])); packetOf u e.serial = some e ∧ e.multi = true) := by
  refine ⟨by decide, by decide, fun i hi => ?_, by decide⟩
  fin_cases hi <;> exact ⟨by decide, _, _, _, rfl⟩
/-- A multicast packet at its router: at its end, and one whose tile lies on another router. -/
def cast (l : List TileId) : State :=
  { base with dev := { base.dev with vc2 := [⟨4, 0, none, o0, { elem none false true with dsts := l }, l⟩] } }
theorem witness_multicast_events :
    (∃ v, (cast [o0]).dev.vc2.find? (fun v => decide (v.serial = 4)) = some v ∧ vc2First (cast [o0]) v = true ∧ v.left ≠ [] ∧
      (∀ i ∈ v.left, hopFrom (cast [o0]) (v.place / 16) (v.place % 16) i = .here) ∧ branchOpen (cast [o0]) v .here = true) ∧
    ∃ v ks d r, (cast [⟨0, 0, 4⟩]).dev.vc2.find? (fun v => decide (v.serial = 4)) = some v ∧ vc2First (cast [⟨0, 0, 4⟩]) v = true ∧
      (∀ i ∈ v.left, hopFrom (cast [⟨0, 0, 4⟩]) (v.place / 16) (v.place % 16) i = .across ks d r) ∧ branchOpen (cast [⟨0, 0, 4⟩]) v (.across ks d r) = true ∧
      (4 : Nat) ≠ (cast [⟨0, 0, 4⟩]).dev.hw.serial :=
  ⟨⟨_, rfl, by decide, by decide, by decide, by decide⟩, ⟨_, _, _, _, rfl, by decide, fun i hi => by (fin_cases hi; rfl), by decide, by decide⟩⟩
/-- A checked tile with a write that its partner does not match, old and young. -/
def pairWrite (age : Nat) : CheckedWrite := ⟨0, 0, 0, [], 0, 0, 0, age⟩
theorem witness_pair_events :
    (let u := focus o0 (baseWith fun t => { t with checked := [pairWrite 1024] }); ∃ c ∈ u.cur.checked.drop (tileAt u (partnerOf u.cur.id)).checked.length,
      1024 ≤ c.age ∧ comparing u = true) :=
  ⟨pairWrite 1024, by decide, by decide, by decide⟩
/-- A graph without objects that holds one template of class 0, and nodes that wait for it. -/
def graph0 : Graph := { num := 0, objs := [], nodes := [decl0], edges := [], slots := [], tmpls := [decl0] }
def withCtx (f : Ctx → Ctx) (s : State) : State := { s with dev := { s.dev with hw := { s.dev.hw with ctxs := s.dev.hw.ctxs.map f } } }
def assigned (s : State) : State := { s with dev := { s.dev with fabric := { s.dev.fabric with assigned := true } } }
def inState (f : Node → Node) : State := noded (f (node0 .running)) base
def withGraph (s : State) : State := withCtx (fun c => { c with graphs := [graph0] }) s
def withLnk (o : LnkOp) (s : State) : State := onCur (fun t => { t with lnk := [o] }) s

/-- Two stages on tiles (0, 0) and (0, 4) of a node, each with tiles of 4 x 4 elements of 4 bytes, and a source of two tiles of 64 bytes at 0x1000. -/
def stage0 (col : Nat) : StageDecl := ⟨0, 0, BitVec.ofNat 16 (256 * col), true, 1, 0, 0, 0, 0x200040004, 0x200040004⟩
def mainDesc : Vec := BitVec.ofNat 1024 ((0x1000 + 128 * 2 ^ 64 + 2 ^ 96 + 2 ^ 112) * 2 ^ 128 + 2 * 65536)
def piped : Main := { main0 with stages := [stage0 0, stage0 4], desc := mainDesc, n := 2 }
/-- The machine of a main whose pumps hold a permit each; handle 767 of the first stage's tile is sealed. -/
def pumping (m : Main) (f : State → State := id) : State :=
  let s := f (withMain m (inState id))
  let e : Entry := ⟨1, 1, 0, 64, 4, 4, 4, true, 0⟩
  let s := onCur (fun t => { t with table := [(767, e)], wheel := 16 }) s
  let s := { s with dev := { s.dev with granted := tset 0 (tset 0 s.dev.granted 2 1) 66 1 } }
  putHstate { s with dev := { s.dev with permits := tset 0 (tset 0 s.dev.permits (permitKey 0 0 2) 1) (permitKey 1 0 2) 1 } } e ⟨2, 0⟩
/-- A fetch, a handover of the first stage's output, a fetch that meets a page fault, and a write-back of the last stage. -/
theorem witness_pumps :
    (∃ s m, mainOf s m.id = some m ∧ m.pipe ≠ []) ∧
    (∃ s m vs s1 i, mainOf s m.id = some m ∧ m.pipe = [] ∧ fetchable s m = true ∧ fetchNext s m = .ok (vs, s1) ∧ stageTile s m 0 = some i) ∧
    (∃ s m i e r, mainOf s m.id = some m ∧ canHandOver s m 1 = true ∧ outputReady s m 1 = some (i, e) ∧ handRow s m 1 = some r ∧ multicasts s m 1 = false) ∧
    (∃ s m cause addr pa i n, mainOf s m.id = some m ∧ fetchable s m = true ∧ fetchNext s m = .error (.fault cause addr pa) ∧ stageTile s m 0 = some i ∧ nodeOf s m.node = some n) ∧
    (∃ s m g, mainOf s m.id = some m ∧ m.stages[m.stages.length - 1]? = some g ∧ stageRuns s m (m.stages.length - 1) = true ∧
      permitted s m (m.stages.length - 1) = true ∧ destsTake s m m.stages.length = true ∧ spent m m.stages.length = false ∧ ownAddr s 0x2000 = true ∧
      addrStatus s 0x2000 = 0 ∧ addrStatus s (0x2000 + fld g.oshape 0 16 * fld g.oshape 16 16 * 2 ^ fld g.oshape 32 8 - 1) = 0) :=
  ⟨⟨withMain { main0 with pipe := [(0, [5])] } base, { main0 with pipe := [(0, [5])] }, rfl, by decide⟩,
   ⟨pumping piped, piped, _, _, _, rfl, rfl, by decide, rfl, rfl⟩,
   ⟨pumping piped, piped, _, _, _, rfl, by decide, rfl, rfl, by decide⟩,
   ⟨pumping piped (fun s => { s with dev := { s.dev with mem := [] } }), piped, _, _, _, _, _, rfl, by decide, rfl, rfl, rfl⟩,
   ⟨pumping piped, piped, _, rfl, rfl, by decide, by decide, by decide, by decide, by decide, by decide, by decide⟩⟩
/-- The multicast of a main to which another is attached behind its first stage. -/
theorem witness_multicast : ∃ s m i e r, mainOf s m.id = some m ∧ canHandOver s m 1 = true ∧ outputReady s m 1 = some (i, e) ∧ handRow s m 1 = some r ∧ multicasts s m 1 = true :=
  ⟨pumping piped (fun s => { s with dev := { s.dev with mains := [piped, { piped with id := 2, handle := 3, attach := some (1, 1) }] } }), piped, _, _, _, rfl, by decide, rfl, rfl, by decide⟩
/-- A function with one main of two stages. -/
def mainFunc : Func := { level := 3, strokes := [], bundles := [], rev := 0, circuits := [], blocks := [], live := [], handles := [], shape := none, mains := [[stage0 0, stage0 4]] }
def withObject (s : State) : State := withCtx (fun c => { c with graphs := [{ graph0 with objs := [⟨[], 1, 3, [mainFunc]⟩] }] }) s
/-- Binds without a declaration, with no source, with sources that do not agree, without a translation, with the slot in use, and a legal one; the
sources' pages resolve. -/
theorem witness_binds :
    (∀ n, ((objectOf base n).bind fun o => (o.funcs[n.decl.fn]?).bind fun f => f.mains[fld (0 : Vec) 0 16]?) = none) ∧
    (∃ s n o f gs, objectOf s n = some o ∧ o.funcs[n.decl.fn]? = some f ∧ f.mains[fld (0 : Vec) 0 16]? = some gs ∧ sourcesOf 0 = []) ∧
    (∃ s n o f gs, objectOf s n = some o ∧ o.funcs[n.decl.fn]? = some f ∧ f.mains[fld mainDesc 0 16]? = some gs ∧
      ¬ ((∃ k, k < 4 ∧ sourceIllegal mainDesc k = true) ∨ sourcesOf mainDesc = [] ∨ maskedSources gs ≠ sourcesOf mainDesc) ∧
      (∀ k ∈ sourcesOf mainDesc, sourceTiles mainDesc k = sourceTiles mainDesc ((sourcesOf mainDesc).headD 0)) ∧
      ∃ pages, allPages s n.ref.ctx mainDesc = some (some pages) ∧ slotRuns s (nodeClusters n) (fld mainDesc 16 4) = false) ∧
    (allPages (withObject (inState fun n => n)) 0 mainDesc ≠ some none ∧ allPages { base with dev := { base.dev with hw := (inState id).dev.hw } } 0 mainDesc = some none) ∧
    slotRuns (pumping piped) (nodeClusters (node0 .running)) (fld mainDesc 16 4) = true ∧
    (∃ j s o n v u', homeOp (focus j s).cur = some o ∧ o.code = 9 ∧ curNode (focus j s) = some n ∧ lsDone (focus j s) o.serial 3 = true ∧
      bindMain n (focus j s).cur.place.part o.arg none (focus j s) = some (v, u')) ∧
    (∃ j s o, homeOp (focus j s).cur = some o ∧ o.code = 10 ∧ byHandle (focus j s) (ctxNum (focus j s).cur) (fld o.arg 0 16) = none) ∧
    (∃ j s o m, homeOp (focus j s).cur = some o ∧ o.code = 10 ∧ byHandle (focus j s) (ctxNum (focus j s).cur) (fld o.arg 0 16) = some m) :=
  ⟨fun _ => rfl, ⟨withObject (inState id), node0 .running, _, _, _, rfl, rfl, rfl, by decide⟩,
   ⟨withObject (inState id), node0 .running, _, _, _, rfl, rfl, rfl, by decide, by decide, _, rfl, by decide⟩, by decide, by decide,
   ⟨o0, withLnk ⟨9, mainDesc, 0⟩ (withObject (inState id)), _, _, _, _, rfl, rfl, rfl, by decide, rfl⟩,
   ⟨o0, withLnk ⟨10, 0, 0⟩ (inState id), _, rfl, rfl, rfl⟩, ⟨o0, withLnk ⟨10, 0, 0⟩ (withMain main0 (inState id)), _, _, rfl, rfl, rfl⟩⟩
/-- A sealed image (magic IMG1, version 1, state 1, no field) with one main to bind again. -/
def mainImage : Image :=
  { seq := 1, state := 1, kind := 0, level := 3, step := 3, cut := 0, bytes := leBytes 64 0x10000000131474D49, tiles := [], blocks := [], mains := [⟨5, 0, 1, mainDesc⟩] }
theorem witness_rebind : ∃ s n q v s', nodeOf s n.ref = some n ∧ n.resume = true ∧ n.parts ≠ [] ∧ rebinds s n = [q] ∧
    bindMain n q.part q.desc (some q.handle) s = some (v, s') :=
  ⟨withObject (inState fun n => { n with resume := true, images := [mainImage] }), { node0 .running with resume := true, images := [mainImage] }, ⟨5, 0, 1, mainDesc⟩, _, _,
   rfl, rfl, by decide, by decide, rfl⟩

def onNodes (l : List Node) (s : State) : State := { s with dev := { s.dev with hw := { s.dev.hw with nodes := l } } }
def kicked (w : Word) (s : State) : State := withCtx (fun c => { c with kicks := [w] }) s
/-- Kicks that find room and none, of a graph that is not there, and with patches absent, misaligned and legal; the lowest replay number. -/
theorem witness_kicks :
    (∃ s x, s.dev.fabric.assigned = true ∧ ctxOf s 0 = some x ∧ x.kicks.length < 64) ∧
    (∃ s x, s.dev.fabric.assigned = true ∧ ctxOf s 0 = some x ∧ 64 ≤ x.kicks.length) ∧
    (∃ s a x word rest, s.dev.hw.active = some a ∧ ctxOf (cleanNodes s) 0 = some x ∧ x.kicks = word :: rest ∧ nextIs (cleanNodes s) 0 false = false ∧
      x.graphs.find? (fun g => g.num == fld word 48 16) = none) ∧
    (∃ s a x word rest g, s.dev.hw.active = some a ∧ ctxOf (cleanNodes s) 0 = some x ∧ x.kicks = word :: rest ∧ nextIs (cleanNodes s) 0 false = false ∧
      x.graphs.find? (fun g => g.num == fld word 48 16) = some g ∧ readPatches (cleanNodes s) 0 (fld word 0 48) g.slots.length = some (.error 2)) ∧
    (∃ s a x word rest g patches num, s.dev.hw.active = some a ∧ ctxOf (cleanNodes s) 0 = some x ∧ x.kicks = word :: rest ∧ nextIs (cleanNodes s) 0 false = false ∧
      x.graphs.find? (fun g => g.num == fld word 48 16) = some g ∧ readPatches (cleanNodes s) 0 (fld word 0 48) g.slots.length = some (.ok patches) ∧
      (List.range 16).find? (fun i => decide (i ∉ ((cleanNodes s).dev.hw.replays.filter fun r => r.ctx == 0 && r.graph == g.num).map Replay.num)) = some num) :=
  ⟨⟨assigned (inState id), _, rfl, rfl, by decide⟩, ⟨withCtx (fun c => { c with kicks := List.replicate 64 0 }) (assigned (inState id)), _, rfl, rfl, by decide⟩,
   ⟨kicked 0 (inState id), 0, _, 0, [], by decide, rfl, rfl, by decide, rfl⟩, ⟨kicked 8 (withGraph (inState id)), 0, _, 8, [], graph0, by decide, rfl, rfl, by decide, rfl, rfl⟩,
   ⟨kicked 0 (withGraph (inState id)), 0, _, 0, [], graph0, [], 0, by decide, rfl, rfl, by decide, rfl, rfl, rfl⟩⟩

/-- Context 0 maps 0 to 2^21 - 1 to themselves by one leaf of 2 MiB with the bits of `leaf`; a pool of one frame, 0x8000000, stands at 0x50000; the first
node of its graph waits for the second, which has ended, with a hand-off of 64 KiB from 0, on which it stands as `m` says. -/
def waits (m : Option Moving) : Node := { node0 .waiting with cls := 1, moving := m }
def handing (leaf : Byte) (rlen : Word) (m : Option Moving) : State :=
  let s := withCtx (fun c => { c with graphs := [{ graph0 with nodes := [decl0, decl0], edges := [⟨1, 0, true, 0, rlen, 0x50000⟩] }] }) (inState id)
  let s := onNodes [waits m, { node0 .ended with ref := { ref0 with node := 1 } }] s
  { s with dev := { s.dev with mem := [(0x10000, 1), (0x10002, 2), (0x20000, 1), (0x20002, 3), (0x30000, leaf), (0x50000, 1), (0x5000B, 8)] } }
/-- A hand-off that is over, one whose page migrates for another, one whose page gets its place, and one whose page has it, copied or not. -/
theorem witness_hand_offs :
    (∃ s n, nodeOf s n.ref = some n ∧ readyNow s n = true) ∧
    (∃ s n e k es c, nodeOf s n.ref = some n ∧ n.state = .waiting ∧ handOffs s n = (e, k) :: es ∧ ctxOf s n.ref.ctx = some c ∧ n.moving = none ∧
      e.rva.toNat + e.rlen.toNat ≤ e.rva.toNat) ∧
    (∃ s n e k es c ea sh leaf, nodeOf s n.ref = some n ∧ n.state = .waiting ∧ handOffs s n = (e, k) :: es ∧ ctxOf s n.ref.ctx = some c ∧ n.moving = none ∧
      e.rva.toNat < e.rva.toNat + e.rlen.toNat ∧ findLeaf s e.rva.toNat 4 0 c.root.toNat = some (ea, sh, leaf) ∧ bitsOf leaf 6 1 = 1) ∧
    (∃ s n e k es c ea sh leaf pool new used, nodeOf s n.ref = some n ∧ n.state = .waiting ∧ handOffs s n = (e, k) :: es ∧ ctxOf s n.ref.ctx = some c ∧
      n.moving = none ∧ findLeaf s e.rva.toNat 4 0 c.root.toNat = some (ea, sh, leaf) ∧ bitsOf leaf 6 1 = 0 ∧ readPool s c.num e.pool.toNat = some pool ∧
      pagePlace s n.cls pool { edge := k, va := e.rva.toNat, page := 0, used := [], dest := none, copied := false } (2 ^ sh) (leaf / 256 * 256) = some (new, used)) ∧
    (∀ b ∈ [true, false], ∃ s n e k es c m ea sh leaf new, nodeOf s n.ref = some n ∧ n.state = .waiting ∧ handOffs s n = (e, k) :: es ∧
      ctxOf s n.ref.ctx = some c ∧ n.moving = some m ∧ m.va < e.rva.toNat + e.rlen.toNat ∧ findLeaf s m.va 4 0 c.root.toNat = some (ea, sh, leaf) ∧
      m.dest = some new ∧ m.copied = b) := by
  refine ⟨⟨withGraph (inState fun n => { n with state := .waiting }), node0 .waiting, rfl, by decide⟩,
    ⟨handing 15 0 none, waits none, _, _, _, _, rfl, rfl, rfl, rfl, rfl, by decide⟩,
    ⟨handing 79 0x10000 none, waits none, _, _, _, _, _, _, _, rfl, rfl, rfl, rfl, rfl, by decide, rfl, by decide⟩,
    ⟨handing 15 0x10000 none, waits none, _, _, _, _, _, _, _, _, _, _, rfl, rfl, rfl, rfl, rfl, rfl, by decide, rfl, rfl⟩, fun b hb => ?_⟩
  fin_cases hb
  · exact ⟨handing 15 0x10000 (some ⟨0, 0, 0, [], some 0x8000000, true⟩), waits (some ⟨0, 0, 0, [], some 0x8000000, true⟩), _, _, _, _, _, _, _, _, _,
      rfl, rfl, rfl, rfl, rfl, by decide, rfl, rfl, rfl⟩
  · exact ⟨handing 15 0x10000 (some ⟨0, 0, 0, [], some 0x8000000, false⟩), waits (some ⟨0, 0, 0, [], some 0x8000000, false⟩), _, _, _, _, _, _, _, _, _,
      rfl, rfl, rfl, rfl, rfl, by decide, rfl, rfl, rfl⟩
/-- A node loaded from its start, and from a sealed image without mains. -/
theorem witness_loads :
    (∃ s n f, nodeOf s n.ref = some n ∧ n.state = .loading ∧ gangHolds s n.ref = false ∧ funcOf s n = some f ∧ n.resume = false) ∧
    (∃ s n f i, nodeOf s n.ref = some n ∧ n.state = .loading ∧ gangHolds s n.ref = false ∧ funcOf s n = some f ∧ resumeImage s n = some i ∧ rebinds s n = []) :=
  ⟨⟨withObject (inState fun n => { n with state := .loading }), node0 .loading, _, rfl, rfl, by decide, rfl, rfl⟩,
   ⟨withObject (inState fun n => { n with state := .loading, resume := true, images := [{ mainImage with mains := [] }] }),
    { node0 .loading with resume := true, images := [{ mainImage with mains := [] }] }, _, _, rfl, rfl, by decide, rfl, rfl, by decide⟩⟩
/-- A ready node of one tile of class B, at the node of a graph. -/
def readied : State := onNodes [{ node0 .ready with cls := 1, parts := [] }] (withObject (inState id))
/-- A placement round that finds nothing, and one that places a node; launches that are refused and one that is accepted; an estimate. -/
theorem witness_scheduler :
    (∃ (s : State) (a : Nat) (x : Die), s.dev.hw.active = some a ∧ s.dev.dies[7]? = some x ∧ x.service = true ∧
      ∃ passed, scan (placeReserved 7 (reserveAged 7 (cleanReserved s))) 7 (scanOrder (placeReserved 7 (reserveAged 7 (cleanReserved s))) 7) [] = (none, passed)) ∧
    (∃ (s : State) (a : Nat) (x : Die), s.dev.hw.active = some a ∧ s.dev.dies[7]? = some x ∧ x.service = true ∧
      ∃ n spots passed, scan (placeReserved 7 (reserveAged 7 (cleanReserved s))) 7 (scanOrder (placeReserved 7 (reserveAged 7 (cleanReserved s))) 7) [] = (some (n, spots), passed)) ∧
    (∃ s a n o, (focus o0 s).dev.hw.active = some a ∧ curNode (focus o0 s) = some n ∧ (focus o0 s).cur.lnk.find? (fun o => o.code == 8) = some o ∧
      lsDone (focus o0 s) o.serial 3 = true ∧ launchBlocked (focus o0 s).cur o = false ∧ graphOf (focus o0 s) n.ref = none) ∧
    (∃ s a n o g, (focus o0 s).dev.hw.active = some a ∧ curNode (focus o0 s) = some n ∧ (focus o0 s).cur.lnk.find? (fun o => o.code == 8) = some o ∧ lsDone (focus o0 s) o.serial 3 = true ∧
      launchBlocked (focus o0 s).cur o = false ∧ graphOf (focus o0 s) n.ref = some g ∧ g.tmpls[fld o.arg 0 16]? = some decl0 ∧ classPresent (focus o0 s) decl0.cls = true) ∧
    (∃ s a n o, (focus o0 s).dev.hw.active = some a ∧ curNode (focus o0 s) = some n ∧ (focus o0 s).cur.lnk.find? (fun o => o.code == 113) = some o) ∧
    classPresent State.resetH 0 = false :=
  ⟨⟨base, 0, _, by decide, rfl, by decide, _, rfl⟩, ⟨readied, 0, _, by decide, rfl, by decide, _, _, _, rfl⟩,
   ⟨withLnk ⟨8, 0, 0⟩ (inState id), 0, _, _, by decide, rfl, rfl, by decide, by decide, by decide⟩,
   ⟨withLnk ⟨8, 0, 0⟩ (withGraph (inState id)), 0, _, _, graph0, by decide, rfl, rfl, by decide, by decide, rfl, rfl, by decide⟩,
   ⟨withLnk ⟨113, 0, 0⟩ (inState id), 0, _, _, by decide, rfl, rfl⟩, by decide⟩

/-- Completions whose parent is gone, runs, is being cut, or waits. -/
theorem witness_completions :
    (∃ s p, s.dev.hw.completions.find? (fun q => decide (q.child = p.child)) = some p ∧ nodeOf s p.ref = none) ∧
    (∀ st ∈ [NodeState.running, .cutting, .waiting], ∃ s p q, s.dev.hw.completions.find? (fun q => decide (q.child = p.child)) = some p ∧ nodeOf s p.ref = some q ∧ q.state = st) := by
  refine ⟨⟨{ base with dev := { base.dev with hw := { base.dev.hw with completions := [⟨ref0, ref0, 0, 0, 0, 1, false, 0, 0, 0⟩] } } }, ⟨ref0, ref0, 0, 0, 0, 1, false, 0, 0, 0⟩, rfl, rfl⟩, fun st hs => ?_⟩
  fin_cases hs <;>
    exact ⟨(fun (s : State) => { s with dev := { s.dev with hw := { s.dev.hw with completions := [⟨ref0, ref0, 0, 0, 0, 1, false, 0, 0, 0⟩] } } }) (inState fun n => { n with state := _ }),
      ⟨ref0, ref0, 0, 0, 0, 1, false, 0, 0, 0⟩, _, rfl, rfl, rfl⟩
/-- A node whose tiles are idle, with sums that repeat and that do not, and one with a message under way; a node that each policy may stop; a failing one. -/
theorem witness_sweeps :
    (∀ w ∈ [none, some (0, 0)], ∃ s n, nodeOf s n.ref = some n ∧ n.state = .running ∧ (∀ t ∈ sweptTiles s n, tileDone t = true ∧ idleFlag t = true) ∧
      ((sweptTiles s n).map fun t => t.net.sent.toNat).sum = ((sweptTiles s n).map fun t => t.net.received.toNat + t.net.lost.toNat).sum ∧ n.sweep = w) ∧
    (∃ s n, nodeOf s n.ref = some n ∧ n.state = .draining ∧ (∀ t ∈ sweptTiles s n, tileDone t = true) ∧
      ((sweptTiles s n).map fun t => t.net.sent.toNat).sum ≠ ((sweptTiles s n).map fun t => t.net.received.toNat + t.net.lost.toNat).sum) ∧
    (∃ s n, nodeOf s n.ref = some n ∧ n.state = .running ∧ holdsAttached s n.ref = false ∧ n.decl.has 0 = true ∧ n.decl.has 1 = true) ∧
    (∃ s n, nodeOf s n.ref = some n ∧ n.failing = true) := by
  refine ⟨fun w hw => ?_, ⟨onCur (fun t => { t with run := .idle, net := { t.net with sent := 1 } }) (inState fun n => { n with state := .draining }), node0 .draining, rfl, rfl, by decide, by decide⟩,
    ⟨inState id, node0 .running, rfl, rfl, by decide, by decide, by decide⟩, ⟨inState fun n => { n with failing := true }, { node0 .running with failing := true }, rfl, rfl⟩⟩
  fin_cases hw
  · exact ⟨onCur (fun t => { t with run := .idle }) (inState id), node0 .running, rfl, rfl, by decide, by decide, rfl⟩
  · exact ⟨onCur (fun t => { t with run := .idle }) (inState fun n => { n with sweep := some (0, 0) }), { node0 .running with sweep := some (0, 0) }, rfl, rfl, by decide, by decide, rfl⟩
/-- A running tile of a node that is cut: stopped at a cut number, or with its report; and one with nothing to run. -/
def cutting (n : Node → Node) (run : Run) : State :=
  onCur (fun t => { t with run := run, code := { t.code with running := true }, csr := { t.csr with cutn := 5 }, ctl := { t.ctl with reported := some 5, stop := some 5 } })
    (inState fun k => n { k with state := .cutting })
/-- The round that takes M, the rounds in which every tile stands at M and beyond it, one without tiles, and the save that is ready and that expires. -/
theorem witness_cuts :
    (∃ s n, nodeOf s n.ref = some n ∧ n.failing = false ∧ n.state = .cutting ∧ n.saving = none ∧ n.target = none ∧ ((nodeTiles n).map fun i => tileAt s i).filter takesPart ≠ [] ∧
      ∀ t ∈ ((nodeTiles n).map fun i => tileAt s i).filter takesPart, t.ctl.reported.isSome = true) ∧
    (∀ m ∈ [(5 : Word), 4], ∃ s n, nodeOf s n.ref = some n ∧ n.failing = false ∧ n.state = .cutting ∧ n.saving = none ∧ n.target = some m ∧
      ((nodeTiles n).map fun i => tileAt s i).filter takesPart ≠ [] ∧ (∀ t ∈ ((nodeTiles n).map fun i => tileAt s i).filter takesPart, cutStopped t = true) ∧
      (maxCut ((((nodeTiles n).map fun i => tileAt s i).filter takesPart).map fun t => t.csr.cutn.toNat) = m.toNat ↔ m = 5)) ∧
    (∃ s n, nodeOf s n.ref = some n ∧ n.failing = false ∧ n.state = .cutting ∧ n.saving = none ∧ ((nodeTiles n).map fun i => tileAt s i).filter takesPart = []) ∧
    (∃ s n start, nodeOf s n.ref = some n ∧ n.state = .cutting ∧ n.saving = some start ∧ ∀ i ∈ nodeTiles n, tileRests (focus i s) = true) ∧
    ∃ s n start, nodeOf s n.ref = some n ∧ n.state = .cutting ∧ n.saving = some start ∧
      (if n.decl.wdog = 0 then 2 ^ 32 else n.decl.wdog) ≤ 3 * ((cisternTsc s 0).toNat - start) := by
  refine ⟨⟨cutting id .go, node0 .cutting, rfl, rfl, rfl, rfl, rfl, by decide, by decide⟩, fun m hm => ?_,
    ⟨onCur (fun t => { t with run := .idle }) (inState fun n => { n with state := .cutting }), node0 .cutting, rfl, rfl, rfl, rfl, by decide⟩,
    ⟨cutting (fun n => { n with saving := some 3 }) .cut, { node0 .cutting with saving := some 3 }, 3, rfl, rfl, rfl, by decide⟩,
    ⟨raiseCistern (cutting (fun n => { n with saving := some 3 }) .cut) 0 0x60000000, { node0 .cutting with saving := some 3 }, 3, rfl, rfl, rfl, by decide⟩⟩
  fin_cases hm
  · exact ⟨cutting (fun n => { n with target := some 5 }) .cut, { node0 .cutting with target := some 5 }, rfl, rfl, rfl, rfl, rfl, by decide, by decide, by decide⟩
  · exact ⟨cutting (fun n => { n with target := some 4 }) .cut, { node0 .cutting with target := some 4 }, rfl, rfl, rfl, rfl, rfl, by decide, by decide, by decide⟩
/-- A gang of this device, the coordinator, and of device 5. -/
def ganged (ready : List Nat) (sched : Word) : State :=
  { base with dev := { base.dev with hw := { base.dev.hw with sched := sched, gangs := [⟨1, [0, 5], ready, 0, none, []⟩] }, fabric := { base.dev.fabric with dev := 0 } } }
theorem witness_gangs :
    (∃ s : State, s.dev.hw.active = some 0) ∧ (∃ (s : State) (k : Nat), s.dev.hw.active = some k ∧ k ≠ 0) ∧
    (∃ s g, s = ganged [0, 5] 0x320000 ∧ s.dev.hw.gangs.find? (fun x => x.num == g.num) = some g ∧ g.sent = none ∧ gangStands s g = true ∧ (∀ d ∈ g.devs, d ∈ g.ready) ∧
      (cisternTsc s 0).toNat ≤ g.start.toNat + fld s.dev.hw.sched 16 16 * 1000) ∧
    ∃ s g, s = ganged [0] 0 ∧ s.dev.hw.gangs.find? (fun x => x.num == g.num) = some g ∧ g.sent = none ∧ g.nodes = [] ∧ (∃ d ∈ g.devs, d ∉ g.ready) ∧
      g.start.toNat + fld s.dev.hw.sched 16 16 * 1000 ≤ (cisternTsc s 0).toNat :=
  ⟨⟨base, by decide⟩, ⟨{ base with dev := { base.dev with hw := { base.dev.hw with active := some 1 } } }, 1, rfl, by decide⟩,
   ⟨_, ⟨1, [0, 5], [0, 5], 0, none, []⟩, rfl, rfl, rfl, by decide, by decide, by decide⟩, ⟨_, ⟨1, [0, 5], [0], 0, none, []⟩, rfl, rfl, rfl, rfl, by decide, by decide⟩⟩
/-- A trained link with a channel 0 of depth 8 and credits `h`, whose last audit sent (h, 0) and found `m`. -/
def linked (k h : Nat) (last : Option Int) (s : State) : State :=
  putLink k { Link.reset with trained := true, unacked := [3], chans := [(0, ⟨8, BitVec.ofNat 8 h, 0, 0, 0, 0, some (BitVec.ofNat 8 h, 0), last⟩)] } s
/-- Both sides of port 17 and 18, each outcome of an audit, and a dead link of a die. -/
theorem witness_links : (linkOf (linked 17 8 none base) 17).trained = true ∧ (linkOf (linked 17 8 none base) 17).dead = false ∧
    (chanOf (linkOf (linked 65 8 none base) 65) 0).audit = some (8, 0) ∧ (3 : BitVec 10).toNat ∈ (linkOf (linked 17 8 none base) 17).unacked ∧
    (chanOf (linkOf (linked 65 5 (some 3) base) 65) 0).last = some 3 ∧ (chanOf (linkOf (linked 65 9 (some (-1)) base) 65) 0).last = some (-1) ∧
    (linkOf base 65).dead = false ∧ linkExists base 65 = true ∧ (linkDies 65).eraseDups = [0] ∧ linkExists base 1025 = true ∧ (linkDies 1025).eraseDups = [0, 1] ∧
    linkExists base 2048 = true ∧ linkExists base 17 = true ∧ linkExists base 63 = false ∧
    (linkOf (putLink 65 { Link.reset with dead := true } base) 65).dead = true ∧ (linkOf base 17).failed < 15 := by decide
theorem witness_dies : (∃ (s : State) (x : Die), s.dev.dies[7]? = some x ∧ x.paused = false ∧ x.service = true) ∧
    (∃ (s : State) (x : Die), s.dev.dies[0]? = some x ∧ x.paused = true) :=
  ⟨⟨base, _, rfl, rfl, by decide⟩, ⟨putDie base 0 { Die.reset true with paused := true }, _, rfl, rfl⟩⟩
/-- A span node over dies 0 and 1, whose link dies. -/
theorem witness_span : let s := inState fun n => { n with parts := [(0, 0, 0), (1, 0, 0)] }
    (s.dev.hw.nodes.filter fun n => onTiles n && [0, 1].all fun d => n.parts.any fun q => q.1 == d) ≠ [] := by decide
theorem witness_islands : ownAddr base 0 = true ∧ addrStatus base 0 = 0 ∧ (0 : Nat) ∉ base.dev.poison ∧ (tget Errors.reset base.dev.errors 16).log.length < 256 ∧
    islandExists base 0 = true ∧ base.dev.hw.nodes = [] := by decide
/-- A request of endpoint 1 to read 8 bytes at 0x100. -/
def request (op : Nat) (ddev : Nat) (len : Nat) : FabricReq :=
  { op := BitVec.ofNat 8 op, st := 0, sdev := 1, ddev := BitVec.ofNat 16 ddev, addr := 0x100, tag := 0, ctl := 0, fn := 0, ts := 0, data := [], len := len, tile := none }
theorem witness_fabric : (request 1 0 8).tile = none ∧ base.dev.fabric.assigned = false ∧ (request 1 5 8).ddev.toNat ≠ base.dev.fabric.dev ∧
    (assigned base).dev.fabric.assigned = true ∧ ownAddr (assigned base) 0x100 = true ∧ malformed (request 1 0 32) = false ∧ malformed (request 1 0 256) = false ∧ malformed (request 1 0 257) = true ∧
    earlier (assigned base) (request 1 0 32) = none ∧ inWindow 0x100 = false ∧ addrStatus (assigned base) 0x11F = 0 ∧ homeRefuses (assigned base) 0x100 32 = 0 ∧
    (request 9 0 8).op.toNat ∉ [1, 2, 3, 4, 5, 6, 7, 0x10, 0x81, 0x82, 0x84, 0x85, 0x86, 0x87] ∧ (17 : Nat) ∉ base.dev.fabric.lostPorts ∧ (17 : Nat) ∉ base.dev.fabric.hello ∧
    (linkOf (linked 17 8 none base) 17).trained = true ∧ edgePerform (request 1 0 32) (assigned base) = (0, memRead base 0x100 32, assigned base) := by decide
/-- A load of a tile that is ready to be performed, and a domain fence. -/
theorem witness_tile_requests : ∃ (u : State) (r : GmReq), u = focus o0 (onCur (fun t => { t with gm := [⟨8, 0x3000000000100, 0, 0, [(0, 0x100)], 7, 1, false, 0, 0, 0, 0, 7⟩] }) base) ∧
    u.cur.gm.find? (fun e => decide (e.serial = 7)) = some r ∧ r.code ∈ opCodes 1 ∧ gmReady u r = true ∧ r.remote u = false ∧ checkedOf u.cur 7 = none :=
  ⟨_, ⟨8, 0x3000000000100, 0, 0, [(0, 0x100)], 7, 1, false, 0, 0, 0, 0, 7⟩, rfl, rfl, by decide, by decide, by decide, by decide⟩
theorem witness_window : (assigned base).dev.fabric.assigned = true ∧ tget 0 (assigned base).dev.window.grants 0 = 0 ∧ (0x1000 : BitVec 24).toNat / 4096 = 1 ∧
    (0x78 : BitVec 24).toNat % 4096 = 0x48 + 8 * 6 ∧ (commandsOf (assigned base) 0).length < 16 ∧ (ctxOf (noded (node0 .running) (assigned base)) 0).isSome = true := by decide
theorem witness_commands : (∃ a, base.dev.hw.active = some a) ∧ commandsOf base 0 = [] ∧ ringLegal base 0 0 = false ∧
    base.dev.fallback = false ∧ ctxOf base 5 = none ∧ (∃ a d : Word, ringLegal base a d = true) :=
  ⟨⟨_, rfl⟩, by decide, by decide, by decide, by decide, ⟨0x1000, 64, by decide⟩⟩
theorem witness_context_free : ((List.range 4095).map Nat.succ).find? (fun n => (ctxOf base n).isNone) = some 1 := by decide
/-- A faulted node by its entry word, and none; a tile of a node that waits for its owner, a parked copy and a parked main. -/
theorem witness_entries : let u := inState fun n => { n with state := .faulted }
    entryNodes u 0 0 = [node0 .faulted] ∧ isFaulted u (node0 .faulted) = true ∧ (node0 .faulted).parts ≠ [] ∧ entryNodes base 0 0 = [] ∧
    answeredTile (node0 .running) 0 = some o0 ∧ answeredTile (node0 .running) 0x300 = none := by decide
theorem witness_answers :
    (let u := onCur (fun t => { t with run := .owner, ctl := { t.ctl with owner := some (mkFault 20 13 8 1 0) } }) (inState id);
      entryNodes u 0 0 = [node0 .running] ∧ recordCtx u (tileAt u o0) (node0 .running) = 0 ∧ (focus o0 u).cur.run = .owner ∧
        (focus o0 u).cur.ctl.owner = some (mkFault 20 13 8 1 0)) ∧
    (let u := onCur (fun t => { t with copies := [{ aCopy 5 with parked := some 20 }] }) (inState id);
      ((focus o0 u).cur.copies.find? (fun c => copyTag c.desc == 5 && c.parked.isSome)).map Copy.parked = some (some 20)) ∧
    (let m : Main := { piped with parked := some (20, 0x1000), handle := 3 }; let u := withMain m (inState id);
      u.dev.mains.find? (fun m => decide (m.node = ref0) && m.parked.isSome &&
        (if 3 = 0 then !m.bound && m.owner == 0 && stageTile u m 0 == some o0 else m.bound && m.ctx == 0 && m.handle == 3)) = some m) := by decide


/-! Further witnesses: each clause at a boundary. -/

/-- binary32: the NaN, the infinities, a zero, −1, 1 = 2^23 · 2^−23, the integer 2^24, and the integer 3 with a fraction's exponent. -/
theorem witness_special_points : decodeFloat 0 0x7FC00000 = .nan ∧ decodeFloat 0 0xFF800000 = .inf true ∧ decodeFloat 0 0x7F800000 = .inf false ∧
    (∃ e, decodeFloat 0 0x80000000 = .fin true 0 e) ∧ (∃ m e, decodeFloat 0 0xBF800000 = .fin true m e ∧ m ≠ 0) ∧
    decodeFloat 0 0x3F800000 = .fin false (2 ^ 23) (-((23 : Nat) : Int)) ∧ (∃ m e, decodeFloat 0 0x4B800000 = .fin false m e ∧ m ≠ 0 ∧ 0 ≤ e) ∧
    (∃ m e, decodeFloat 0 0x40400000 = .fin false m e ∧ m ≠ 0 ∧ -420 ≤ e ∧ 2 ^ (-e).toNat ∣ m) ∧ (sfuPoints 0 (.sfuTanh g0 (.imm 0))).isSome = true :=
  ⟨by decide, by decide, by decide, ⟨_, rfl⟩, ⟨_, _, rfl, by decide⟩, by decide, ⟨_, _, rfl, by decide, by decide⟩, ⟨_, _, rfl, by decide, by decide, by decide⟩, by decide⟩
/-- The last pass of a level with an enclosing one, and a staged level with its window. -/
def lastPass (t : Tile) : Tile :=
  { t with pc := 262, ctl := { t.ctl with loops := [{ top := 261, last := 262, trips := 3, stages := 0, pass := 2, strides := 0, window := [] },
                                                    { top := 259, last := 263, trips := 2, stages := 0, pass := 1, strides := 0, window := [] }] } }
def staged (t : Tile) : Tile :=
  { t with pc := 262, ctl := { t.ctl with loops := [{ top := 261, last := 262, trips := 3, stages := 2, pass := 0, strides := 5, window := [0, 1, 2, 0, 1, 2] }] } }
theorem witness_loop_exit : (Issues (.ctlLend h0 1) h0 (baseWith (lastPass ∘ coded)) ∧ ∃ l ls, (baseWith (lastPass ∘ coded)).cur.ctl.loops = l :: ls ∧ ¬ l.pass + 1 < l.trips ∧
      l.window.length ≤ 6) ∧
    (Issues (.ctlLend h0 1) h0 (baseWith (staged ∘ coded)) ∧ ∃ l ls, (baseWith (staged ∘ coded)).cur.ctl.loops = l :: ls ∧ l.stages ≠ 0 ∧ l.pass + 1 < l.trips + l.stages - 1 ∧
      l.window.length ≤ 6) ∧ Issues (.ctlLbrk h0) h0 (baseWith (staged ∘ coded)) :=
  ⟨⟨not_quiet rfl rfl (by decide) ⟨rfl, rfl⟩, _, _, rfl, by decide, by decide⟩, ⟨not_quiet rfl rfl (by decide) ⟨rfl, rfl⟩, _, _, rfl, by decide, by decide, by decide⟩,
   not_quiet rfl rfl (by decide) ⟨rfl, rfl⟩⟩
/-- An element of a stream outside its handle (R230). -/
theorem witness_stream_leaves : ∃ v t st, Fires (.moveToStream g0 (.imm 5) 3) g0 (.imm 5) (baseWith (withStream { str true 0 [] with base := 128 })) v t ∧
    tfind t.streams 3 = some st ∧ streamHeld t 3 = false ∧ elemOk t st st.moved = false :=
  ⟨_, _, _, ⟨rfl, by decide, by decide, rfl, ⟨rfl, rfl⟩⟩, rfl, by decide, by decide⟩
/-- A second fault at system privilege, alone and on a checked tile; a first fault on a checked and on another tile of a node. -/
theorem witness_double_fault : isSystem (asSystem base.cur) = true ∧ nodeStands (noded (node0 .running) base) = true ∧
    bit (onCur (fun t => { t with csr := { t.csr with status := 129 } }) base).cur.csr.status 7 = true ∧ (mkFault 32 0 0 0 0).cause ≠ 33 := by decide
/-- Accumulators in use, and reserved windows. -/
def streaming (t : Tile) : Tile := { t with mx := { t.mx with array := some (mxOpOf t 10 1 0x10) } }
theorem witness_matrix_busy :
    Ready (.mxMclr g0 (.imm 1)) (.imm 1) 8 12 [] [] (baseWith streaming) (fun v _ _ t => busyMask t.mx &&& fld v 0 8 ≠ 0) ∧
    Ready (.mxMacw g0 (.imm 0)) (.imm 0) 8 14 [0] [] (baseWith (streaming ∘ withOps 8 [(0, 7)]))
      (fun v _ _ t => mxCheck t (mxOpOf t 14 1 v) = none ∧ busyMask t.mx &&& windowMask (vecWord v) ≠ 0) ∧
    Ready (.mxMread g0 (.imm 0)) (.imm 0) 8 13 [] [0] (baseWith streaming)
      (fun v _ _ t => mxCheck t (mxOpOf t 13 1 v) = none ∧ busyMask t.mx &&& windowMask (vecWord v) ≠ 0) ∧
    Ready (.mxMread g0 (.lit 0x20001)) (.lit 0x20001) 8 13 [] [0] base (fun v _ _ t => mxCheck t (mxOpOf t 13 1 v) = some 1) ∧
    Ready (.mxMacw g0 (.lit 0x20001)) (.lit 0x20001) 8 14 [0] [] (baseWith (withOps 8 [(0, 7)])) (fun v _ _ t => mxCheck t (mxOpOf t 14 1 v) = some 1) := by
  refine ⟨?_, ?_, ?_, ?_, ?_⟩ <;> exact ⟨_, _, _, _, ⟨⟨rfl, by decide, by decide, rfl, ⟨rfl, rfl⟩⟩, rfl, rfl, rfl⟩, by decide⟩
/-- Eight accesses in flight. -/
def crowded (t : Tile) : Tile := { t with lw := [(11, List.replicate 8 ⟨8, 0x86000, 0, 0, 0, [0], 0, 1, 0⟩)] }
theorem witness_local_full :
    Ready (.lwLd g0 (.lit 0x86000) false) (.lit 0x86000) 11 8 [] [0] (baseWith crowded) (fun v _ t0 _ => fld (vecWord v) 16 32 % 2 ^ fld (vecWord v) 13 3 = 0 ∧ 8 ≤ lwInFlight t0 11) ∧
    Ready (.lwGath g0 (.lit 0x86000) false) (.lit 0x86000) 11 16 [0] [0] (baseWith (crowded ∘ withOps 11 [(0, 1)])) (fun v _ t0 _ => fld (vecWord v) 13 3 ≤ 4 ∧
      fld (vecWord v) 16 32 % 2 ^ fld (vecWord v) 13 3 = 0 ∧ 8 ≤ lwInFlight t0 11) ∧
    Ready (.lwSeal g0 (.imm 3) false) (.imm 3) 11 14 [] [] (baseWith crowded) (fun _ _ t0 _ => 8 ≤ lwInFlight t0 11) := by
  refine ⟨?_, ?_, ?_⟩ <;> exact ⟨_, _, _, _, ⟨⟨rfl, by decide, by decide, rfl, ⟨rfl, rfl⟩⟩, rfl, rfl, rfl⟩, by decide⟩
/-- A legal hset; entries that may be freed, that are filling, and absent; an allocation that is planned and one that finds its number taken. -/
def tabled (tracked : Bool) (st : Nat) : State :=
  let e : Entry := ⟨1, 0, 0, 128, 4, 4, 8, tracked, 0⟩
  putHstate (baseWith fun t => { t with table := [(0, e)] }) e ⟨st, 0⟩
theorem witness_tile_table_effects :
    Ready (.ttHset g0 (.imm 3)) (.imm 3) 17 11 [0, 1] [] (baseWith (asSystem ∘ withOps 17 [(0, 0x100100004), (1, 0)])) (fun v ops t0 _ => isSystem t0 = true ∧
      ttIllegal (withTile base t0) 11 (vecWord (opAt ops 0)) (vecWord (opAt ops 1)) (vecWord v) = false) ∧
    (∃ e, tfind (tabled false 0).cur.table 0 = some e ∧ e.tracked = false ∧ (∀ x ∈ (tabled false 0).cur.streams, x.2.h ≠ 0) ∧ copyNames (tabled false 0).cur 0 = false) ∧
    (∃ e, tfind (tabled true 1).cur.table 0 = some e ∧ e.tracked = true ∧ (hstateOf (tabled true 1) e).st = 1) ∧
    (∃ p e, hallocPlan base ⟨8, 0x200100010, 0, 5, 0, 1⟩ = (p, 0, some e)) ∧ (∃ p st, hallocPlan (tabled true 1) ⟨8, 0x200100010, 0, 0, 0, 1⟩ = (p, st, none)) ∧
    (storageOf base 1 0 64).isSome = true :=
  ⟨⟨_, _, _, _, ⟨⟨rfl, by decide, by decide, rfl, ⟨rfl, rfl⟩⟩, rfl, rfl, rfl⟩, by decide⟩, ⟨_, rfl, by decide⟩, ⟨_, rfl, by decide⟩, ⟨_, _, rfl⟩, ⟨_, _, rfl⟩, by decide⟩
/-- The mapping of `mapped` with its page under migration: a gm lane freezes (R219). -/
def movingPage (s : State) : State := let s := mapped s; { s with dev := { s.dev with mem := [(0x10000, 1), (0x10002, 2), (0x20000, 79)] } }
theorem witness_global_freeze : Ready (.gmLd g0 (.lit 0x3000000001000)) (.lit 0x3000000001000) 13 8 [] [0] (movingPage base) (fun v ops _ t =>
    gmIllegal 8 (vecWord v) = false ∧ gmLanes 8 1 true false (gmTargets 8 (vecWord v) (opAt ops 0)) (withTile (movingPage base) t) = .freeze) :=
  ⟨_, _, _, _, ⟨⟨rfl, by decide, by decide, rfl, ⟨rfl, rfl⟩⟩, rfl, rfl, rfl⟩, by decide, rfl⟩
/-- An access to a reserved address, one to a poisoned word, a store and a cas; a cell with a parity error. -/
theorem witness_home_refusals : addrStatus base 0xD00000000000 ≠ 0 ∧ ownAddr base 0xD00000000000 = true ∧
    (let s := { base with dev := { base.dev with poison := [8] } }; addrStatus s 0x100 = 0 ∧ memPoisoned s 0x100 8 = true) ∧
    (∀ c ∈ [9, 15], let r : GmReq := ⟨c, 0x3000000000100, 0, 0, [(0, 0x100)], 0, 0, false, 0, 0, 0, 0, 0⟩; r.isRed = false ∧ r.isFence = false ∧ r.lenOf (0, 0x100) = r.size) ∧
    cellOf { base with dev := { base.dev with cells := [{ freshCell 0 0x100 with parity := true }] } } 0 0x100 = some { freshCell 0 0x100 with parity := true } := by decide
/-- The copy of copyDesc with its source in handle 0x1000 mod 1024 = 0, which a table operation before it holds; and pumps whose queues are full. -/
def copyHandle : Vec := 0x3000000000005003000000000000020008000000000001000
theorem witness_copy_freezes :
    Ready (.cpCopy g0 (.reg ⟨.v, 1⟩ false)) (.reg ⟨.v, 1⟩ false) 14 8 [] []
      (baseWith fun t => { t with regs := { t.regs with v := [(1, copyHandle)] }, tt := [⟨9, 0, 0, 0, 0, 1⟩], serial := 1 })
      (fun v _ t0 _ => copyIllegal v = false ∧ t0.copies.length < 1024 ∧ bit (copySrc v) 63 = true ∧ ttHolds t0 (fld (copySrc v) 0 10) t0.serial = true) :=
  ⟨_, _, _, _, ⟨⟨rfl, by decide, by decide, rfl, ⟨rfl, rfl⟩⟩, rfl, rfl, rfl⟩, by decide +kernel⟩
/-- Four full pump queues. -/
def fullPumps : State := baseWith fun t => { t with copies := (List.range 256).map fun i => { aCopy 0 with serial := i, pump := i % 4 } }
theorem witness_pumps_full : pumpQueue fullPumps (clusterOf fullPumps.cur.id) 0 = 64 ∧ choosePump fullPumps = none := by decide +kernel
/-- SOCKMODE writes that wait for a result under way; couple on a variant H and beside a partner of the node. -/
theorem witness_system_more :
    Ready (.sysCsrw g0 (.imm 1)) (.imm 1) 19 9 [0] [0] (baseWith (withOps 19 [(0, 2)] ∘ withPort 1 0 ⟨[⟨.cycles 1, 5, none⟩], 0, false, []⟩)) (fun v ops t0 _ =>
      csrAccess v.toNat = some .user ∧ modeWaits t0 (vecWord (opAt ops 0)) = true) ∧
    Ready (.sysCouple g0 (.imm 0)) (.imm 0) 19 15 [] [0] (onCur asSystem (noded (node0 .running) base)) (fun v _ t0 _ => isSystem t0 = true ∧ v = 0) := by
  refine ⟨?_, ?_⟩ <;> exact ⟨_, _, _, _, ⟨⟨rfl, by decide, by decide, rfl, ⟨rfl, rfl⟩⟩, rfl, rfl, rfl⟩, by decide⟩

end Sys2Proof.Tests
end

section
/-!
PROOF. Memory and storage: what a byte write does to a memory, to a storage and to its poison (R3, R208, R221).
-/
namespace Sys2Proof.Machine

/-! ## Bytes of a number (R3) -/

@[simp] theorem length_leBytes (n v : Nat) : (leBytes n v).length = n := by
  induction n generalizing v with
  | zero => rfl
  | succ n ih => rw [leBytes, List.length_cons, ih]

/-- Byte i of a number is its digit i to the base 256. -/
theorem getElem_leBytes {n v i : Nat} (h : i < (leBytes n v).length) : (leBytes n v)[i] = BitVec.ofNat 8 (v / 256 ^ i) := by
  induction n generalizing v i with
  | zero => exact absurd h (Nat.not_lt_zero i)
  | succ n ih =>
    cases i with
    | zero => simp [leBytes]
    | succ i =>
      have hi : i < (leBytes n (v / 256)).length := by simpa [leBytes] using h
      calc (leBytes (n + 1) v)[i + 1] = (leBytes n (v / 256))[i] := rfl
        _ = BitVec.ofNat 8 (v / 256 / 256 ^ i) := ih hi
        _ = BitVec.ofNat 8 (v / 256 ^ (i + 1)) := by rw [Nat.div_div_eq_div_mul, Nat.pow_succ']

/-- The number that the n low bytes of a number stand for. -/
theorem leNat_leBytes (n v : Nat) : leNat (leBytes n v) = v % 256 ^ n := by
  induction n generalizing v with
  | zero => rw [Nat.pow_zero, Nat.mod_one]; rfl
  | succ n ih =>
    calc leNat (leBytes (n + 1) v) = v % 256 + 256 * (v / 256 % 256 ^ n) := by rw [leBytes, leNat, ih, BitVec.toNat_ofNat]
      _ = v % (256 * 256 ^ n) := Nat.mod_mul.symm
      _ = v % 256 ^ (n + 1) := by rw [Nat.pow_succ']

/-! ## Canonical tables that read alike are equal -/

section Canonical
variable {α : Type}

/-- A key that reads as something else than the default is not below the table's bound. -/
theorem le_of_tget_ne {d : α} {lo k : Nat} {t : Tab α} (ht : keysFrom lo t = true) (h : tget d t k ≠ d) : lo ≤ k := by
  induction t generalizing lo with
  | nil => exact absurd rfl h
  | cons e t ih =>
    simp only [keysFrom, Bool.and_eq_true, decide_eq_true_eq] at ht
    obtain ⟨hlo, ht⟩ := ht
    unfold tget at h
    split at h
    · omega
    · have := ih ht h
      omega

/-- The head of a table with a bound: its key respects the bound, and the rest lies above that key. -/
theorem keysFrom_cons {lo : Nat} {e : Nat × α} {t : Tab α} : keysFrom lo (e :: t) = true ↔ lo ≤ e.1 ∧ keysFrom (e.1 + 1) t = true := by
  simp [keysFrom]

/-- The head's key reads as its value. -/
theorem tget_cons_same (d : α) (e : Nat × α) (t : Tab α) : tget d (e :: t) e.1 = e.2 := if_pos rfl

/-- Any other key reads as in the rest. -/
theorem tget_cons_other (d : α) {e : Nat × α} (t : Tab α) {k : Nat} (h : e.1 ≠ k) : tget d (e :: t) k = tget d t k := if_neg h

/-- Two tables with rising keys and no default entry that read alike are equal. -/
theorem eq_of_tget_eq {d : α} {lo : Nat} {t u : Tab α} (ht : keysFrom lo t = true) (hu : keysFrom lo u = true)
    (htd : ∀ e ∈ t, e.2 ≠ d) (hud : ∀ e ∈ u, e.2 ≠ d) (h : ∀ k, tget d t k = tget d u k) : t = u := by
  induction t generalizing lo u with
  | nil =>
    cases u with
    | nil => rfl
    | cons b u => exact absurd ((tget_cons_same d b u).symm.trans (h b.1).symm) (hud b List.mem_cons_self)
  | cons a t ih =>
    have ha : a.2 ≠ d := htd a List.mem_cons_self
    cases u with
    | nil => exact absurd ((tget_cons_same d a t).symm.trans (h a.1)) ha
    | cons b u =>
      have hb : b.2 ≠ d := hud b List.mem_cons_self
      obtain ⟨-, ht⟩ := keysFrom_cons.mp ht
      obtain ⟨-, hu⟩ := keysFrom_cons.mp hu
      have hab : b.1 ≤ a.1 := le_of_tget_ne (keysFrom_cons.mpr ⟨le_refl _, hu⟩) (by rw [← h a.1, tget_cons_same]; exact ha)
      have hba : a.1 ≤ b.1 := le_of_tget_ne (keysFrom_cons.mpr ⟨le_refl _, ht⟩) (by rw [h b.1, tget_cons_same]; exact hb)
      have hkey : a.1 = b.1 := le_antisymm hba hab
      have hval : a.2 = b.2 := by rw [← tget_cons_same d a t, h a.1, hkey, tget_cons_same]
      have hrest : ∀ k, tget d t k = tget d u k := fun k => by
        by_cases hk : a.1 = k
        · have below : ∀ {v : Tab α}, keysFrom (a.1 + 1) v = true → tget d v k = d := fun hv => by
            by_contra hne
            have := le_of_tget_ne hv hne
            omega
          rw [below ht, below (hkey ▸ hu)]
        · rw [← tget_cons_other d t hk, h k, tget_cons_other d u (hkey ▸ hk)]
      rw [Prod.ext hkey hval, ih ht (hkey ▸ hu) (fun e he => htd e (List.mem_cons_of_mem _ he)) (fun e he => hud e (List.mem_cons_of_mem _ he)) hrest]

end Canonical

/-- Two canonical memories that read alike are equal. -/
theorem Memory.eq_of_mget_eq {m n : Memory} (hm : Memory.wf m = true) (hn : Memory.wf n = true) (h : ∀ a, mget m a = mget n a) : m = n := by
  simp only [Memory.wf, twf, Bool.and_eq_true, List.all_eq_true, decide_eq_true_eq] at hm hn
  obtain ⟨hmkeys, hmvals⟩ := hm
  obtain ⟨hnkeys, hnvals⟩ := hn
  exact eq_of_tget_eq hmkeys hnkeys hmvals hnvals h

/-! ## Writes of bytes, and poison (R221) -/

/-- A memory after the n low bytes of a number are written, byte by byte. -/
theorem mget_mwrite_leBytes (m : Memory) (off n v a : Nat) :
    mget (mwrite m off (leBytes n v)) a = if off ≤ a ∧ a < off + n then BitVec.ofNat 8 (v / 256 ^ (a - off)) else mget m a := by
  split
  · rename_i h
    have hi : a - off < (leBytes n v).length := by rw [length_leBytes]; omega
    calc mget (mwrite m off (leBytes n v)) a = mget (mwrite m off (leBytes n v)) (off + (a - off)) := by rw [Nat.add_sub_cancel' h.1]
      _ = (leBytes n v)[a - off] := mget_mwrite_same hi
      _ = BitVec.ofNat 8 (v / 256 ^ (a - off)) := getElem_leBytes hi
  · exact mget_mwrite_other (by rw [length_leBytes]; omega)

/-- The poisoned words that stay are those that the write does not cover whole. -/
theorem mem_poisonCleared {ps : List Nat} {g off n w : Nat} :
    w ∈ poisonCleared ps g off n ↔ w ∈ ps ∧ ¬ (off ≤ w * g ∧ (w + 1) * g ≤ off + n) := by
  rw [poisonCleared, List.mem_filter, Bool.not_eq_true', decide_eq_false_iff_not]

/-! ## Cistern memory -/

/-- Bytes stored read back. -/
theorem memRead_memStore (s : State) (a : Nat) (bs : List Byte) : memRead (memStore s a bs) a bs.length = bs := mread_mwrite s.dev.mem a bs

/-- A little-endian word stored reads back. -/
theorem memWord_memStore (s : State) (a : Nat) (w : Word) : memWord (memStore s a (leBytes 8 w.toNat)) a = w.toNat := by
  have hr := memRead_memStore s a (leBytes 8 w.toNat)
  rw [length_leBytes] at hr
  rw [memWord, hr, leNat_leBytes]
  exact Nat.mod_eq_of_lt w.isLt

/-- A write whose address is in order is refused exactly for a poisoned word that it covers in part. -/
theorem homeRefuses_of_addrOk {s : State} {a : Nat} (n : Nat) (h : addrStatus s a = 0) :
    homeRefuses s a n = if poisonPart s.dev.poison 32 a n = true then 4 else 0 := by
  simp [homeRefuses, h]

/-! ## Storage -/

section Space
variable (s : State) (sp : Nat) (m : Memory) (ps : List Nat)

@[simp] theorem spaceMem_putSpace_same : spaceMem (putSpace s sp m ps) sp = m := by
  unfold putSpace
  split
  · rename_i h; exact if_pos h
  · rename_i h; rw [spaceMem, if_neg h]; exact tget_tset_same ..

@[simp] theorem spacePoison_putSpace_same : spacePoison (putSpace s sp m ps) sp = ps := by
  unfold putSpace
  split
  · rename_i h; exact if_pos h
  · rename_i h; rw [spacePoison, if_neg h]; exact tget_tset_same ..

/-- Another storage keeps its bytes; every number from 10,000 is the focused tile's well. -/
theorem spaceMem_putSpace_other {sp q : Nat} (h : q ≠ sp) (hw : q < 10000 ∨ sp < 10000) : spaceMem (putSpace s sp m ps) q = spaceMem s q := by
  unfold putSpace
  split
  · have hq : ¬ 10000 ≤ q := by omega
    rw [spaceMem, spaceMem, if_neg hq, if_neg hq]
  · unfold spaceMem
    split
    · rfl
    · exact tget_tset_other _ _ _ h

@[simp] theorem putSpace_regs : (putSpace s sp m ps).cur.regs = s.cur.regs := by unfold putSpace; split <;> rfl
@[simp] theorem putSpace_csr : (putSpace s sp m ps).cur.csr = s.cur.csr := by unfold putSpace; split <;> rfl
@[simp] theorem putSpace_socks : (putSpace s sp m ps).cur.socks = s.cur.socks := by unfold putSpace; split <;> rfl
@[simp] theorem putSpace_table : (putSpace s sp m ps).cur.table = s.cur.table := by unfold putSpace; split <;> rfl
@[simp] theorem putSpace_mem : (putSpace s sp m ps).dev.mem = s.dev.mem := by unfold putSpace; split <;> rfl
@[simp] theorem putSpace_hstate : (putSpace s sp m ps).dev.hstate = s.dev.hstate := by unfold putSpace; split <;> rfl
@[simp] theorem putSpace_peers : (putSpace s sp m ps).peers = s.peers := by unfold putSpace; split <;> rfl

end Space

section Write
variable {s : State} {sp off : Nat} {bs : List Byte}

/-- A write over a part of a poisoned word is refused. -/
theorem spaceWrite_refused (h : poisonPart (spacePoison s sp) 8 off bs.length = true) : spaceWrite s sp off bs = none := if_pos h

/-- Any other write puts its bytes and clears the poison of the words it covers whole. -/
theorem spaceWrite_done (h : poisonPart (spacePoison s sp) 8 off bs.length = false) : spaceWrite s sp off bs =
    some (putSpace s sp (mwrite (spaceMem s sp) off bs) (poisonCleared (spacePoison s sp) 8 off bs.length)) := by
  simp [spaceWrite, h]

/-- Bytes written to a storage read back. -/
theorem spaceRead_putSpace (ps : List Nat) : (spaceRead (putSpace s sp (mwrite (spaceMem s sp) off bs) ps) sp off bs.length).1 = bs := by
  rw [spaceRead, spaceMem_putSpace_same]
  exact mread_mwrite ..

end Write

/-- Settles O34: a storage write is `putSpace` of the written memory, which the laws of byte memories read. -/
theorem storageAccesses : Obligations.StorageAccesses := by
  intro s sp off n v
  have hlen := length_leBytes n v
  refine ⟨fun h => ?_, fun h => spaceWrite_refused (hlen.symm ▸ h)⟩
  have hread (ps : List Nat) := spaceRead_putSpace (s := s) (sp := sp) (off := off) (bs := leBytes n v) ps
  rw [hlen] at hread
  refine ⟨_, spaceWrite_done (hlen.symm ▸ h), fun a => ?_, fun q ⟨hq, hw⟩ => spaceMem_putSpace_other _ _ _ hq hw, hread _, ?_, ?_⟩
  · rw [spaceMem_putSpace_same, mget_mwrite_leBytes]
  · rw [hread, leNat_leBytes]
  · simp

/-- Settles O49, law by law. -/
theorem memoryLaws : Obligations.MemoryLaws := by
  refine ⟨fun m a bs => mwrite_wf a bs, fun m a bs => ⟨mread_mwrite m a bs, fun b => mget_mwrite_other⟩, fun m n => Memory.eq_of_mget_eq,
    fun s a w => ⟨memWord_memStore s a w, memStore_cur ..⟩, fun s a bs => ⟨memRead_memStore s a bs, mwrite_wf a bs, fun w => mem_poisonCleared⟩,
    fun s a n => homeRefuses_of_addrOk n, fun s sp off bs => ⟨spaceWrite_refused, fun h => ?_⟩⟩
  exact ⟨_, spaceWrite_done h, spaceMem_putSpace_same .., spaceRead_putSpace _, fun w => by rw [spacePoison_putSpace_same]; exact mem_poisonCleared⟩

end Sys2Proof.Machine
end

section
/-!
PROOF. The machine after reset (R2, R39, R85, R286).
-/
namespace Sys2Proof.Machine

@[simp] theorem reset_regs (id : TileId) : (Tile.reset id).regs = Regs.reset := rfl

/-- Reset writes no x register, so every one reads 0. -/
theorem reset_getX (id : TileId) (k : Nat) : getX (Tile.reset id) k = 0 := by simp [getX, Regs.reset]

/-- After reset p0 alone is true (R39). -/
theorem reset_getP (id : TileId) (k : Nat) : getP (Tile.reset id) k = if k = 0 then 1 else 0 := by simp [getP, Regs.reset]

/-- Reset writes no register: each of a class reads as the value of an unwritten one (R39, R85). -/
theorem reset_readReg (id : TileId) (i : BitVec 6) :
    readReg (Tile.reset id) { cls := .v, idx := i } = 0 ∧ readReg (Tile.reset id) { cls := .k, idx := i } = 0 ∧
      readReg (Tile.reset id) { cls := .j, idx := i } = jReset ∧
      readReg (Tile.reset id) { cls := .p, idx := i } = if i = 0 then 1 else 0 := by
  refine ⟨by simp [readReg, Regs.reset], by simp [readReg, Regs.reset, wordVec], by simp [readReg, Regs.reset], ?_⟩
  have hi : i.toNat = 0 ↔ i = 0 := by rw [← BitVec.toNat_inj]; rfl
  simp only [readReg, reset_getP, hi]
  split <;> simp

/-- No loop level is entered after reset, and STATUS reads 0 (R114). -/
theorem reset_statusWord (id : TileId) : statusWord (Tile.reset id) = 0 := by
  simp [statusWord, Tile.reset, Csr.reset, Ctl.reset]

/-- SCHED at package reset, field by field (R286). -/
theorem reset_sched : fld State.reset.dev.hw.sched 32 16 = 200 ∧ fld State.reset.dev.hw.sched 16 16 = 50 ∧
    fld State.reset.dev.hw.sched 0 16 = 0 ∧ fld State.reset.dev.hw.sched 48 16 = 0 := by decide

/-- The dies in service on an SG9-H: the B dies (R2). -/
theorem resetH_service : State.resetH.dev.dies.map Die.service = [false, false, false, false, true, true, true, true] := rfl

/-- Settles O48: registers, STATUS and SCHED by the lemmas above; every other field is read off the reset value. -/
theorem resetState : Obligations.ResetState := by
  obtain ⟨hdrain, hgrace, hlow, hhigh⟩ := reset_sched
  refine ⟨fun id => ⟨reset_getX id, reset_readReg id, fun _ => rfl, fun _ _ => rfl, fun _ _ => rfl,
      rfl, rfl, rfl, rfl, rfl, rfl, rfl, rfl, rfl, rfl, rfl, rfl, reset_statusWord id, ?rest⟩, rfl, rfl, rfl,
    hdrain, hgrace, hlow, hhigh, rfl, rfl, reset_mem_wf, fun _ => rfl, rfl, rfl, rfl, resetH_service⟩
  and_intros <;> rfl

end Sys2Proof.Machine
end

section
/-!
PROOF. The CSR operations (R86, R87, R94, R125): what a write of a CSR changes, the operation branch by branch, and a SOCKMODE value
that applies at the end of its bundle.
-/
namespace Sys2Proof.Machine
open Sys2Proof.Machine.Claims

/-! ## A CSR after a write -/

/-- The CSRs that a program may write at once (FMT and SOCKMODE have times of their own, R72, R94), but STATUS, of which a write changes
the stored bits alone (R114). -/
def plainCsrs : List Nat := [0x002, 0x003, 0x005, 0x006, 0x007, 0x010, 0x020, 0x022, 0x101, 0x102]

/-- The CSRs that may be written (R86). -/
theorem writable_csr {n : Nat} {acc : CsrAccess} (h : csrAccess n = some acc) (hacc : acc ≠ .readOnly) :
    n = 0 ∨ n = 1 ∨ n = 0x100 ∨ n ∈ plainCsrs := by
  unfold csrAccess at h
  unfold plainCsrs
  split_ifs at h with huser hqib hread hsys
  · fin_cases huser <;> simp
  · simp [hqib]
  · exact absurd (Option.some.inj h).symm hacc
  · fin_cases hsys <;> simp

section Put
variable (s : State) (t : Tile) {n : Nat} (v : Word)

/-- A write of a CSR other than FMT and SOCKMODE changes the CSRs alone. -/
theorem csrPut_frame (h0 : n ≠ 0) (h1 : n ≠ 1) : { csrPut t n v with csr := t.csr } = t := by
  unfold csrPut
  dsimp only
  split
  · exact absurd rfl h0
  · exact absurd rfl h1
  all_goals rfl

/-- A plain CSR reads as its old value with the bits of its mask replaced (R87). -/
theorem csrRead_csrPut_same (hn : n ∈ plainCsrs) :
    csrRead (withTile s (csrPut t n v)) n = (csrRead (withTile s t) n &&& ~~~csrMask n) ||| (v &&& csrMask n) := by
  fin_cases hn <;> rfl

/-- A write of STATUS changes its bits 0, 1 and 6 (R114). -/
theorem csrPut_status : (csrPut t 0x100 v).csr.status = (t.csr.status &&& ~~~0x43) ||| (v &&& 0x43) := rfl

/-- Every other CSR reads as before. -/
theorem csrRead_csrPut_other {k : Nat} (hn : n = 0x100 ∨ n ∈ plainCsrs) (hk : k ≠ n) :
    csrRead (withTile s (csrPut t n v)) k = csrRead (withTile s t) k := by
  rw [← List.mem_cons] at hn
  unfold csrRead
  split
  all_goals fin_cases hn
  any_goals rfl
  all_goals exact absurd rfl hk

end Put

/-- A tile between bundles stays one through a write of a CSR other than FMT and SOCKMODE. -/
theorem csrPut_rest {t : Tile} {n : Nat} (v : Word) (h0 : n ≠ 0) (h1 : n ≠ 1) (h : AtRest t) : AtRest (csrPut t n v) := by
  have hctl : (csrPut t n v).ctl = t.ctl := by
    have := congrArg Tile.ctl (csrPut_frame t v h0 h1)
    exact this
  exact ⟨hctl ▸ h.traps, hctl ▸ h.mode⟩

/-- A write of FMT only queues its fields. -/
theorem writeFmt_rest {t : Tile} (w : Word) (h : AtRest t) : AtRest (writeFmt t w) := by
  unfold writeFmt
  refine List.foldlRecOn _ _ h fun u hu f _ => ?_
  dsimp only
  split
  · exact ⟨hu.traps, hu.mode⟩
  · exact hu

/-! ## The operation -/

/-- The value that csrw, csrs or csrc writes, from the old bits and a (R125). -/
def csrNew (code : Nat) (c a : Word) : Word := if code = 9 then a else if code = 10 then c ||| a else c &&& ~~~a

/-- The operation writes: csrs and csrc with a = 0 do not (R125). -/
def csrWrites (code : Nat) (a : Word) : Bool := code == 9 || ((code == 10 || code == 11) && a != 0)

/-- The same as the statements say it. -/
theorem csrWrites_iff {code : Nat} {a : Word} : csrWrites code a = true ↔ code = 9 ∨ (code ∈ [10, 11] ∧ a ≠ 0) := by
  simp [csrWrites]

/-- The written value, for the operations that write. -/
def csrValue (code : Nat) : Option (Word → Word → Word) := if code = 8 then none else some (csrNew code)

theorem csrValue_of_writes {code : Nat} {a : Word} (hw : csrWrites code a = true) : csrValue code = some (csrNew code) := by
  refine if_neg ?_
  rintro rfl
  simp [csrWrites] at hw

/-- What `fireCsr` tests before it writes is `csrWrites`. -/
theorem csrWriting {code : Nat} (hcode : code ∈ [8, 9, 10, 11]) (a : Word) :
    ((csrValue code).isSome && !((code == 10 || code == 11) && a == 0)) = csrWrites code a := by
  fin_cases hcode <;> simp [csrValue, csrWrites, bne]

/-- The trigger of the CSR operation of a code. -/
def fireCsrOf (code : Nat) : Fire := fireCsr code (if code = 8 then [] else [0]) (csrValue code)

/-- The CSR operations, their codes and their triggers. -/
theorem csrRow_some {i : Instr} {code : Nat} (h : csrRow i = some code) : ∃ g x, i.move = some (g, x) ∧
    (∀ s, exec i s = runMove i g x (fireCsrOf code) s) ∧ code ∈ [8, 9, 10, 11] := by
  unfold csrRow at h
  split at h
  · cases h; exact ⟨_, _, rfl, fun _ => rfl, by decide⟩
  · cases h; exact ⟨_, _, rfl, fun _ => rfl, by decide⟩
  · cases h; exact ⟨_, _, rfl, fun _ => rfl, by decide⟩
  · cases h; exact ⟨_, _, rfl, fun _ => rfl, by decide⟩
  · cases h

section Fire
variable {i : Instr} {g : Guard} {x : Src} {code : Nat} {s : State} {v : Vec} {t0 t : Tile} {ops : List Vec}

/-- A firing CSR operation does what its trigger does. -/
theorem exec_csr (hf : Fires i g x s v t0) (hc : csrRow i = some code) :
    exec i s = .next (settle s (fireCsrOf code 1 x.hold v (withTile s t0))) := by
  obtain ⟨g', x', hm, hrun, -⟩ := csrRow_some hc
  obtain ⟨rfl, rfl⟩ : g' = g ∧ x' = x := by simpa [hm] using hf.isMove
  rw [hrun s]
  exact runMove_fires hf _

variable (htake : Takes t0 19 code x (if code = 8 then [] else [0]) ops t) (hcode : code ∈ [8, 9, 10, 11])
include htake hcode

/-- A CSR that R86 does not list, and a write of a read-only one, are illegal encodings. -/
theorem fireCsr_illegal
    (h : csrAccess v.toNat = none ∨ (csrAccess v.toNat = some .readOnly ∧ csrWrites code (vecWord (opAt ops 0)) = true)) :
    fireCsrOf code 1 x.hold v (withTile s t0) = .fault (mkFault 1 19 code 1 0) := by
  unfold Takes at htake
  simp only [fireCsrOf, fireCsr, htake, Res.bind, csrWriting hcode]
  rcases h with h | ⟨h, hw⟩
  · simp only [h]
  · simp [h, hw]

/-- In user mode a system CSR, and a write of one that the system alone writes, are privilege faults. -/
theorem fireCsr_privilege (hu : isSystem t0 = false)
    (h : csrAccess v.toNat = some .system ∨ (csrAccess v.toNat = some .systemWrite ∧ csrWrites code (vecWord (opAt ops 0)) = true)) :
    fireCsrOf code 1 x.hold v (withTile s t0) = .fault (mkFault 2 19 code 1 0) := by
  unfold Takes at htake
  simp only [fireCsrOf, fireCsr, htake, Res.bind, csrWriting hcode]
  rcases h with h | ⟨h, hw⟩
  · simp [h, hu]
  · simp [h, hw, hu]

section Accepted
variable {acc : CsrAccess} (hacc : csrAccess v.toNat = some acc)
  (hp : isSystem t0 = true ∨ acc = .user ∨ csrWrites code (vecWord (opAt ops 0)) = false ∧ acc ≠ .system)
  (hro : csrWrites code (vecWord (opAt ops 0)) = true → acc ≠ .readOnly) (hroom : Room t0 19 code [0])
include hacc hp hro hroom

/-- Any other access that has room waits for the sockets of a SOCKMODE write, or sends the old value and writes. -/
theorem fireCsr_accepted : fireCsrOf code 1 x.hold v (withTile s t0) =
    let new := csrNew code (csrBase (withTile s t0) v.toNat) (vecWord (opAt ops 0))
    if csrWrites code (vecWord (opAt ops 0)) && v.toNat == 1 && modeWaits t0 new then .drain
    else .ok (withTile s (deliver (if csrWrites code (vecWord (opAt ops 0)) then csrPut t v.toNat new else t) 19 code 0 2
      (wordVec (csrRead (withTile s t0) v.toNat)) none)) := by
  unfold Takes at htake
  unfold Room at hroom
  have hillegal : (csrWrites code (vecWord (opAt ops 0)) && acc == .readOnly) = false := by simpa using hro
  have hpriv : (!isSystem t0 && (acc == .system || (csrWrites code (vecWord (opAt ops 0)) && acc == .systemWrite))) = false := by
    rcases hp with hp | rfl | ⟨hw, hp⟩
    · rw [hp]; rfl
    · simp
    · simp [hw, hp]
  simp only [fireCsrOf, fireCsr, htake, Res.bind, csrWriting hcode, hacc, hroom, hillegal, hpriv]
  cases hw : csrWrites code (vecWord (opAt ops 0)) with
  | false => simp
  | true => simp [csrValue_of_writes hw]

/-- An operation that does not write sends the old value. -/
theorem fireCsr_reads (hw : csrWrites code (vecWord (opAt ops 0)) = false) : fireCsrOf code 1 x.hold v (withTile s t0) =
    .ok (withTile s (deliver t 19 code 0 2 (wordVec (csrRead (withTile s t0) v.toNat)) none)) := by
  rw [fireCsr_accepted htake hcode hacc hp hro hroom, hw]; rfl

/-- One that writes and has no sockets to wait for sends the old value and writes. -/
theorem fireCsr_writes (hw : csrWrites code (vecWord (opAt ops 0)) = true)
    (hmode : v.toNat = 1 → modeWaits t0 (csrNew code (csrBase (withTile s t0) v.toNat) (vecWord (opAt ops 0))) = false) :
    fireCsrOf code 1 x.hold v (withTile s t0) =
      .ok (withTile s (deliver (csrPut t v.toNat (csrNew code (csrBase (withTile s t0) v.toNat) (vecWord (opAt ops 0)))) 19 code 0 2
        (wordVec (csrRead (withTile s t0) v.toNat)) none)) := by
  rw [fireCsr_accepted htake hcode hacc hp hro hroom, hw]
  exact if_neg (by simpa using hmode)

/-- A SOCKMODE write waits while an operation is in flight in a socket that it changes (R94). -/
theorem fireCsr_waits (hw : csrWrites code (vecWord (opAt ops 0)) = true) (h1 : v.toNat = 1)
    (hmode : modeWaits t0 (csrNew code (csrBase (withTile s t0) v.toNat) (vecWord (opAt ops 0))) = true) :
    fireCsrOf code 1 x.hold v (withTile s t0) = .drain := by
  rw [fireCsr_accepted htake hcode hacc hp hro hroom]
  exact if_pos (by simp [hw, h1, ← hmode])

end Accepted

end Fire

/-! ## A SOCKMODE value at the end of its bundle (R94) -/

/-- A bundle whose moves raised no trap leaves the SOCKMODE value that they wrote in force. -/
theorem settle_noTraps {s s' : State} (h : s'.cur.ctl.traps = []) : settle s (.ok s') = onCur endMoves s' := by
  have hend : (endMoves s'.cur).ctl.traps = [] := by
    unfold endMoves
    split <;> exact h
  unfold settle takeTraps
  dsimp only [onCur]
  rw [hend]
  exact congrArg (fun t => { s' with cur := t }) (noTraps _ hend)

/-- A change that keeps keys and drops default entries leaves an entry that it does not change. -/
theorem tget_map_filter {α : Type} [DecidableEq α] {d : α} {f : Nat × α → Nat × α} (hf : ∀ e, (f e).1 = e.1) {k : Nat}
    (hk : ∀ x, f (k, x) = (k, x)) {t : Tab α} (ht : tget d t k ≠ d) :
    tget d ((t.map f).filter fun e => decide (e.2 ≠ d)) k = tget d t k := by
  induction t with
  | nil => rfl
  | cons e t ih =>
    obtain ⟨j, x⟩ := e
    by_cases hj : j = k
    · subst hj
      have hx : x ≠ d := by simpa [tget] using ht
      rw [List.map_cons, hk, List.filter_cons_of_pos (by simpa using hx)]
      simp [tget]
    · have hrest : tget d ((j, x) :: t) k = tget d t k := if_neg hj
      rw [hrest] at ht ⊢
      rw [List.map_cons, List.filter_cons]
      split
      · have hfj : (f (j, x)).1 ≠ k := (hf (j, x)).symm ▸ hj
        exact (if_neg hfj).trans (ih ht)
      · exact ih ht

/-- A socket that is in use and whose bit a SOCKMODE value leaves as it is keeps its ports. -/
theorem sockOf_applyMode {t : Tile} {m : Word} {k : Nat} (hbit : bit t.csr.sockmode k = bit m k) (hk : sockOf t k ≠ Socket.reset) :
    sockOf (applyMode t m) k = sockOf t k := by
  refine tget_map_filter (fun e => ?_) (fun x => ?_) hk
  · split <;> rfl
  · simp [hbit]

/-- A result sent under the data-locked rules is the last of its port's queue (R92). -/
theorem portOf_deliver_locked {t : Tile} {sock code : Nat} (h : runsFree t sock code = false) (y lat : Nat) (v : Vec) (q : Option Vec) :
    (portOf (sockOf (deliver t sock code y lat v q) sock) y).fifo =
      (portOf (sockOf t sock) y).fifo ++ [{ due := .cycles lat, val := v, narrowed := q }] := by
  simp [deliver, h, sockOf, putSock, portOf, putPort]

/-- A bit as the library reads it. -/
theorem bit_eq_getLsbD {k : Nat} (v : BitVec k) (i : Nat) : bit v i = v.getLsbD i := by
  rw [BitVec.getLsbD, Nat.testBit_eq_decide_div_mod_eq, bit, fld, bitsOf, Nat.shiftRight_eq_div_pow, pow_one, beq_eq_decide]

/-- sys has no SOCKMODE bit (R94). -/
theorem bit_sys_masked (m : Word) : bit (m &&& modeMask) 19 = false := by
  have hmask : modeMask.getLsbD 19 = false := by decide
  rw [bit_eq_getLsbD, BitVec.getLsbD_and, hmask, Bool.and_false]

/-- A SOCKMODE value leaves a result that sys has just sent in its queue. -/
theorem fifo_applyMode_sys {t : Tile} (m : Word) (code : Nat) (v : Vec) (h : bit t.csr.sockmode 19 = false) :
    (portOf (sockOf (applyMode (deliver t 19 code 0 2 v none) (m &&& modeMask)) 19) 0).fifo =
      (portOf (sockOf t 19) 0).fifo ++ [{ due := .cycles 2, val := v, narrowed := none }] := by
  have hsent := portOf_deliver_locked (t := t) (sock := 19) (code := code) (by simp [runsFree, sockFree, h]) 0 2 v none
  have hused : sockOf (deliver t 19 code 0 2 v none) 19 ≠ Socket.reset := by
    intro hr
    rw [hr] at hsent
    simp [Socket.reset, Port.reset, portOf] at hsent
  rw [sockOf_applyMode ?_ hused, hsent]
  rw [deliver_csr, h, bit_sys_masked]

/-- At the end of its bundle a SOCKMODE write that did not wait is in force. -/
theorem settle_modeWrite {t : Tile} (h : AtRest t) (s s' : State) (m : Word) (code : Nat) (v : Vec) :
    settle s (.ok (withTile s' (deliver (csrPut t 1 m) 19 code 0 2 v none))) =
      withTile s' (applyMode (deliver (csrPut t 1 m) 19 code 0 2 v none) (m &&& modeMask)) :=
  settle_noTraps h.traps

/-- Settles O43: the branches of the operation, each with what the end of its bundle leaves. -/
theorem registerOperations : Obligations.RegisterOperations := by
  intro i g x code s v t0 ops t hf hc htake n a writes old value out
  obtain ⟨-, -, -, -, hcode⟩ := csrRow_some hc
  have hexec {r : Res State} (h : fireCsrOf code 1 x.hold v (withTile s t0) = r) : exec i s = .next (settle s r) := h ▸ exec_csr hf hc
  have hrest : AtRest t := takeOperands_rest htake (Fires_rest hf)
  have hw : csrWrites code (vecWord (opAt ops 0)) = true ↔ writes := csrWrites_iff
  have hnw : csrWrites code (vecWord (opAt ops 0)) = false ↔ ¬ writes := by rw [← Bool.not_eq_true, hw]
  refine ⟨fun h => ?_, fun hu h => ?_, fun acc hacc hp hro hroom => ?_⟩
  · exact hexec (fireCsr_illegal htake hcode (by rwa [hw]))
  · exact hexec (fireCsr_privilege htake hcode hu (by rwa [hw]))
  have hp' : isSystem t0 = true ∨ acc = .user ∨ csrWrites code (vecWord (opAt ops 0)) = false ∧ acc ≠ .system := by rwa [hnw]
  have hro' : csrWrites code (vecWord (opAt ops 0)) = true → acc ≠ .readOnly := fun h => hro (hw.mp h)
  have hwrite := fireCsr_writes (s := s) htake hcode hacc hp' hro' hroom
  have goes {u : Tile} (h : fireCsrOf code 1 x.hold v (withTile s t0) = .ok (withTile s u)) (hu : AtRest u) : GoesTo i s u :=
    (hexec h).trans (congrArg _ (settle_ok hu))
  have hbase (h0 : n ≠ 0) : csrBase (withTile s t0) v.toNat = old := if_neg h0
  refine ⟨fun h => ?reads, fun h h0 h1 => ?plain, fun h h0 => ?fmt, fun h h1 hwait => ?mode, fun h h1 hwait => ?waits⟩
  case reads => exact goes (fireCsr_reads htake hcode hacc hp' hro' hroom (hnw.mpr h)) (deliver_rest hrest ..)
  case plain =>
    have hn : n = 0x100 ∨ n ∈ plainCsrs := ((writable_csr hacc (hro h)).resolve_left h0).resolve_left h1
    have hold : csrRead (withTile s t) n = old := by
      obtain ⟨k, rfl⟩ := takeOperands_socks htake
      rfl
    have hfire := hwrite (hw.mpr h) (absurd · h1)
    rw [hbase h0] at hfire
    refine ⟨csrPut t n (value old), goes hfire (deliver_rest (csrPut_rest _ h0 h1 hrest) ..), csrPut_frame t _ h0 h1,
      fun k hk => csrRead_csrPut_other s t _ hn hk, fun hs => ?_, fun hs => ?_⟩
    · rw [csrRead_csrPut_same s t _ (hn.resolve_left hs), hold]
    · rw [hs]; exact csrPut_status ..
  case fmt =>
    have hput : csrPut t v.toNat (csrNew code (csrBase (withTile s t0) v.toNat) (vecWord (opAt ops 0))) =
        writeFmt t (value (fmtFinal t0)) := by rw [show v.toNat = 0 from h0]; rfl
    have hfire := hwrite (hw.mpr h) fun h1 => absurd (h0.symm.trans h1) (by decide)
    rw [hput] at hfire
    exact goes hfire (deliver_rest (writeFmt_rest _ hrest) ..)
  case mode =>
    have hfire := hwrite (hw.mpr h)
    rw [hbase (h1 ▸ by decide)] at hfire
    have hput : csrPut t v.toNat (csrNew code old (vecWord (opAt ops 0))) = csrPut t 1 (value old) := by
      rw [show v.toNat = 1 from h1]; rfl
    have hend := hexec (hfire fun _ => hwait)
    rw [hput, settle_modeWrite hrest] at hend
    exact ⟨_, hend, rfl, rfl, rfl, rfl, fifo_applyMode_sys (t := csrPut t 1 (value old)) (value old) code (wordVec old)⟩
  case waits =>
    refine hexec (fireCsr_waits htake hcode hacc hp' hro' hroom (hw.mpr h) h1 ?_)
    rw [hbase (h1 ▸ by decide)]
    exact hwait

end Sys2Proof.Machine
end

section
/-!
PROOF. Quiet bundles (R24, R73, R327, R328): a bundle without moves whose quiet check faults, freezes or passes.
-/
namespace Sys2Proof.Machine
open Sys2Proof.Machine.Claims

/-- Every control operation runs as a bundle that holds it alone. -/
theorem exec_control {i : Instr} {h : CtlHead} (hi : i.head = some h) (s : State) :
    exec i s = .next (issueBundle false { ctl := i, moves := [] } s).1 := by
  cases i <;> cases hi <;> rfl

/-! ## A bundle by what its body comes to -/

/-- What the body of a bundle comes to, once the marks of the bundle before are gone. -/
def issuedBody (b : Bundle) (s : State) : Res State :=
  bundleBody ((b.ctl.head).getD { xstall := 0, quiet := false, lit := .none }).quiet (s.cur.ctl.split.map SplitBundle.got) b (onCur unmarked s)

section Body
variable {b : Bundle} {s : State}

/-- A bundle whose body faults takes that fault at its PC (R50). -/
theorem issueBundle_fault {f : FaultInfo} (h : issuedBody b s = .fault f) :
    (issueBundle false b s).1 = takeException f s.cur.pc.toNat false true (onCur unmarked s) := by
  simp only [issueBundle, Bool.not_false, Bool.and_true]
  change (match issuedBody b s with | .freeze => _ | .drain => _ | .fault f => _ | .ok s1 => _ : State × CycleKind).1 = _
  rw [h]
  rfl

/-- A bundle whose body freezes leaves the tile frozen (R96). -/
theorem issueBundle_freeze (h : issuedBody b s = .freeze) :
    (issueBundle false b s).1 = onCur (fun t => { t with run := .frozen }) (onCur unmarked s) := by
  simp only [issueBundle, Bool.not_false, Bool.and_true]
  change (match issuedBody b s with | .freeze => _ | .drain => _ | .fault f => _ | .ok s1 => _ : State × CycleKind).1 = _
  rw [h]
  rfl

end Body

section Quiet
variable {i : Instr} {h : CtlHead} {s : State} (isControl : i.head = some h) (quiet : h.quiet = true) (legal : i.wf = true)
  (noFault : ctlFault s.cur i = none) (rest : AtRest s.cur) (whole : s.cur.ctl.split = none)
include isControl quiet legal noFault rest whole

/-- A legal quiet bundle without moves and without a fault of its own comes to what its quiet check comes to. -/
theorem issuedBody_quiet : issuedBody { ctl := i, moves := [] } s = (quietCheck s).bind fun _ => .ok (onCur unmarked s) := by
  have hf : ctlFault (onCur unmarked s).cur i = none := (ctlFault_unmarked s.cur i).trans noFault
  have hend : onCur endMoves (onCur unmarked s) = onCur unmarked s := by simp [onCur, endMoves, unmarked, rest.mode]
  have hslot : illegalSlot (onCur unmarked s) [] = none := rfl
  have hfire : firing (onCur unmarked s).cur [] = [] := rfl
  have hpriv : privilegesOf (onCur unmarked s).cur [] = [] := by simp [privilegesOf]
  simp only [issuedBody, isControl, Option.getD_some, quiet, whole, Option.map_none]
  unfold bundleBody
  dsimp only
  rw [if_pos legal, hslot, hf, if_pos rfl, quietCheck_unmarked, hfire, hpriv]
  simp only [Option.filter_none, Option.toList_none, List.nil_append, runMoves_nil, Res.bind, hend]
  cases quietCheck s <;> rfl

end Quiet

/-! ## The quiet check -/

/-- An exposed pipeline that is busy, or an FMT write that waits, is a quiet violation (R73). -/
theorem quietCheck_fault {s : State} (h : nothingFlies s.cur = false ∨ s.cur.ctl.fmtPending ≠ []) : quietCheck s = .fault (mkFault 10 0 0 0 0) :=
  if_pos (by simpa using h)

section Settled
variable {s : State} (hflies : nothingFlies s.cur = true) (hfmt : s.cur.ctl.fmtPending = [])
include hflies hfmt

/-- With the exposed pipelines empty the check waits for every other operation and transfer (R24). -/
theorem quietCheck_settled : quietCheck s = if (socketsDone s.cur && transfersDone s) = true then .ok () else .freeze := by
  simp [quietCheck, hflies, hfmt]

theorem quietCheck_freeze (h : socketsDone s.cur = false ∨ transfersDone s = false) : quietCheck s = .freeze := by
  rw [quietCheck_settled hflies hfmt]
  refine if_neg ?_
  rcases h with h | h <;> simp [h]

theorem quietCheck_ok (hsock : socketsDone s.cur = true) (htrans : transfersDone s = true) : quietCheck s = .ok () := by
  rw [quietCheck_settled hflies hfmt, hsock, htrans]
  rfl

end Settled

/-! ## The quiet effects (R327, R328) -/

/-- What the liveness table adds to CUTN at a bundle: the count of its entry, 0 without one. -/
def cutIncrement (t : Tile) : Nat := ((t.code.live.find? fun e => decide (256 + e.pc = t.pc.toNat)).map Live.inc).getD 0

theorem atControl_quietGap {i : Instr} {h : CtlHead} (s : State) (hq : h.quiet = true) : (atControl i h s).cur.perf.quietGap = 0 := by
  rw [atControl, if_pos hq]
  rfl

theorem atControl_cutn {i : Instr} {h : CtlHead} (s : State) (hq : h.quiet = true) :
    (atControl i h s).cur.csr.cutn = s.cur.csr.cutn + BitVec.ofNat 64 (cutIncrement s.cur) := by
  rw [atControl, if_pos hq]
  rfl

/-- Settles O24: the three outcomes of the quiet check, each with what the bundle then does. -/
theorem quietBundles_faultFreezeCount : Obligations.QuietBundles := by
  intro i h s hi hquiet hlegal hnone hrest hwhole t s0
  have hbody := issuedBody_quiet hi hquiet hlegal hnone hrest hwhole
  refine ⟨fun hbusy => ?_, fun hflies hfmt hwork => ?_, fun hflies hfmt hsock htrans => ?_⟩
  · rw [quietCheck_fault hbusy] at hbody
    exact (exec_control hi s).trans (congrArg _ (issueBundle_fault hbody))
  · rw [quietCheck_freeze hflies hfmt hwork] at hbody
    exact (exec_control hi s).trans (congrArg _ (issueBundle_freeze hbody))
  · refine ⟨⟨hi, hlegal, hnone, fun _ => quietCheck_ok hflies hfmt hsock htrans, hwhole, hrest⟩, atControl_quietGap s hquiet,
      fun e he => ?_, fun he => ?_⟩
    · rw [atControl_cutn s hquiet, cutIncrement, he]
      rfl
    · rw [atControl_cutn s hquiet, cutIncrement, he]
      exact BitVec.add_zero _

end Sys2Proof.Machine
end

section
/-!
PROOF. Accesses at their home (R235-R241): one lane of an access, and the reductions on a cell.
-/
namespace Sys2Proof.Machine
open Sys2Proof.Machine.Claims

/-- A poisoned word that is touched in part is touched. -/
theorem poisonPart_of_not_poisonHit {ps : List Nat} {g off n : Nat} (h : poisonHit ps g off n = false) : poisonPart ps g off n = false := by
  simp only [poisonHit, poisonPart, List.any_eq_false, decide_eq_true_eq, not_and] at h ⊢
  exact fun w hw hlo hhi => absurd hhi (h w hw hlo)

/-! ## One lane of an access -/

/-- The accesses that have no answer value, those that write memory and answer it, and those that only read. -/
theorem posted_of_store {r : GmReq} (h : r.code ∈ [9, 11, 13, 21]) : r.posted = true := by
  simp only [List.mem_cons, List.not_mem_nil, or_false] at h
  rcases h with h | h | h | h <;> simp [GmReq.posted, h]

theorem not_posted_of_load {r : GmReq} (h : r.code ∈ [8, 10, 12, 20]) : r.posted = false ∧ r.code ≠ 14 ∧ r.code ≠ 15 := by
  simp only [List.mem_cons, List.not_mem_nil, or_false] at h
  rcases h with h | h | h | h <;> simp [GmReq.posted, h]

section Lane
variable {s : State} {r : GmReq} {p pa : Nat} (ctx : Nat) (hlanes : r.lanes = [(p, pa)]) (hred : r.isRed = false) (hown : ownAddr s pa = true)
include hlanes hred hown

/-- A posted access is refused with the status of its write, or writes its bytes (R235). -/
theorem performAt_posted (hposted : r.posted = true) : performAt s ctx r =
    if homeRefuses s pa (r.lenOf (p, pa)) = 0 then
      (0, 0, [], memStore s pa (leBytes (r.lenOf (p, pa)) (fld r.a (8 * r.posOf (p, pa)) (8 * r.lenOf (p, pa)))))
    else (homeRefuses s pa (r.lenOf (p, pa)), 0, [(pa, 2, homeRefuses s pa (r.lenOf (p, pa)))], s) := by
  by_cases h : homeRefuses s pa (r.lenOf (p, pa)) = 0 <;> simp [performAt, hlanes, hred, hown, hposted, h]

/-- Another access whose read is refused answers the status. -/
theorem performAt_refused (hposted : r.posted = false) (h : (homeRead s pa (r.lenOf (p, pa))).1 ≠ 0) : ∃ k, performAt s ctx r =
    ((homeRead s pa (r.lenOf (p, pa))).1, 0, [(pa, k, (homeRead s pa (r.lenOf (p, pa))).1)], s) :=
  ⟨if r.code = 14 ∨ r.code = 15 then 3 else 1, by simp [performAt, hlanes, hred, hown, hposted, h]⟩

section Read
variable (hposted : r.posted = false) (hread : homeRead s pa (r.lenOf (p, pa)) = (0, memRead s pa (r.lenOf (p, pa))))
include hposted hread

/-- A load answers the bytes read, at its place in the value (R235). -/
theorem performAt_load (h14 : r.code ≠ 14) (h15 : r.code ≠ 15) : performAt s ctx r =
    (0, toVec (leNat (memRead s pa (r.lenOf (p, pa))) * 2 ^ (8 * r.posOf (p, pa))), [], s) := by
  simp [performAt, hlanes, hred, hown, hposted, hread, h14, h15]

/-- amo writes f of the old value and its operand (R237). -/
theorem performAt_amo (h14 : r.code = 14) : performAt s ctx r =
    let old := leNat (memRead s pa (r.lenOf (p, pa))) * 2 ^ (8 * r.posOf (p, pa))
    (0, toVec old, [], memStore s pa (leBytes r.size (amoValue (gmFx r.word) r.size old (fld r.a 0 (8 * r.size))))) := by
  simp [performAt, hlanes, hred, hown, hposted, hread, h14]

/-- cas writes where the old value is the expected one (R238). -/
theorem performAt_cas (h15 : r.code = 15) : performAt s ctx r =
    let old := leNat (memRead s pa (r.lenOf (p, pa))) * 2 ^ (8 * r.posOf (p, pa))
    (0, toVec old, [], if old = fld r.a 0 (8 * r.size) then memStore s pa (leBytes r.size (fld r.c 0 (8 * r.size))) else s) := by
  simp [performAt, hlanes, hred, hown, hposted, hread, h15]

end Read

end Lane

/-- The bytes that a store leaves where it writes, and elsewhere. -/
theorem memStore_bytes (s : State) (pa n v : Nat) : memRead (memStore s pa (leBytes n v)) pa n = leBytes n v ∧
    ∀ a, (a < pa ∨ pa + n ≤ a) → mget (memStore s pa (leBytes n v)).dev.mem a = mget s.dev.mem a := by
  have hlen := length_leBytes n v
  refine ⟨?_, fun a ha => mget_mwrite_other (hlen.symm ▸ ha)⟩
  have := memRead_memStore s pa (leBytes n v)
  rwa [hlen] at this

/-! ## Reading and writing at the home -/

section Home
variable {s : State} {a n : Nat}

theorem homeRead_status (h : addrStatus s a ≠ 0) : (homeRead s a n).1 = if addrStatus s a = 5 then 7 else addrStatus s a := by
  simp [homeRead, h]

theorem homeRefuses_status (h : addrStatus s a ≠ 0) : homeRefuses s a n = addrStatus s a := by simp [homeRefuses, h]

theorem homeRead_poisoned (h : addrStatus s a = 0) (hp : memPoisoned s a n = true) : (homeRead s a n).1 = 3 := by simp [homeRead, h, hp]

theorem homeRead_done (h : addrStatus s a = 0) (hp : memPoisoned s a n = false) : homeRead s a n = (0, memRead s a n) := by
  simp [homeRead, h, hp]

theorem homeRefuses_done (h : addrStatus s a = 0) (hp : memPoisoned s a n = false) : homeRefuses s a n = 0 := by
  rw [homeRefuses_of_addrOk n h, poisonPart_of_not_poisonHit hp]
  rfl

end Home

/-! ## Reduction cells (R68, R69, R241) -/

section Cells
variable (s : State) {ctx pa : Nat}

/-- The cell found at a place is that of the place. -/
theorem cellOf_place {s : State} {c : Cell} (h : cellOf s ctx pa = some c) : c.ctx = ctx ∧ c.addr = pa := by
  simpa using List.find?_some h

theorem cellOf_dropCell_same : cellOf (dropCell s ctx pa) ctx pa = none := by
  simp only [cellOf, dropCell, List.find?_filter, List.find?_eq_none]
  intro c _
  by_cases hc : c.ctx = ctx ∧ c.addr = pa <;> simp [hc]

theorem cellOf_dropCell_other {d b : Nat} (h : d ≠ ctx ∨ b ≠ pa) : cellOf (dropCell s ctx pa) d b = cellOf s d b := by
  simp only [cellOf, dropCell, List.find?_filter]
  congr 1
  funext c
  by_cases hc : c.ctx = d ∧ c.addr = b
  · obtain ⟨rfl, rfl⟩ := hc
    simpa [-not_and, not_and_or] using h
  · simp [hc]

theorem cellOf_putCell_same (c : Cell) : cellOf (putCell s c) c.ctx c.addr = some c := by
  have h := cellOf_dropCell_same s (ctx := c.ctx) (pa := c.addr)
  simp only [cellOf, putCell] at h ⊢
  rw [List.find?_append, h]
  simp

theorem cellOf_putCell_other (c : Cell) {d b : Nat} (h : d ≠ c.ctx ∨ b ≠ c.addr) : cellOf (putCell s c) d b = cellOf s d b := by
  rw [← cellOf_dropCell_other s h]
  simp only [cellOf, putCell]
  rw [List.find?_append]
  have hc : ¬ (c.ctx = d ∧ c.addr = b) := by
    rintro ⟨rfl, rfl⟩
    simp at h
  simp [hc]

/-- A state that differs from another in one cell. -/
structure CellBecomes (s s' : State) (ctx pa : Nat) (c : Option Cell) : Prop where
  here : cellOf s' ctx pa = c
  mem : s'.dev.mem = s.dev.mem
  cur : s'.cur = s.cur
  others : ∀ d b, (d ≠ ctx ∨ b ≠ pa) → cellOf s' d b = cellOf s d b

theorem putCell_becomes (c : Cell) : CellBecomes s (putCell s c) c.ctx c.addr (some c) :=
  ⟨cellOf_putCell_same s c, rfl, rfl, fun _ _ h => cellOf_putCell_other s c h⟩

theorem dropCell_becomes : CellBecomes s (dropCell s ctx pa) ctx pa none :=
  ⟨cellOf_dropCell_same s, rfl, rfl, fun _ _ h => cellOf_dropCell_other s h⟩

end Cells

section Red
variable {s : State} {pa : Nat} (ctx : Nat) (w : Word) (a : Vec) (hok : addrStatus s pa = 0)
include hok

/-- fredclr puts a cleared cell where the cistern has one to spare. -/
theorem performRed_clear (hroom : cellsUsed s pa + 1 ≤ 2 ^ 18) :
    performRed s 18 ctx w a [(0, pa)] = (0, 0, [], putCell s (freshCell ctx pa)) := by
  have hfit : ¬ 2 ^ 18 < cellsUsed s pa + ([(0, pa)].filter fun q : Nat × Nat => (cellOf s ctx q.2).isNone).length := by
    have := List.length_filter_le (fun q : Nat × Nat => (cellOf s ctx q.2).isNone) [(0, pa)]
    simp only [List.length_singleton] at this
    omega
  have hbad : ([(0, pa)].find? fun q : Nat × Nat => decide (addrStatus s q.2 ≠ 0)) = none := by simp [hok]
  unfold performRed
  rw [hbad]
  exact if_neg hfit

/-- Without a cell fred and fredrd are refused with status 4. -/
theorem performRed_absent (hnone : cellOf s ctx pa = none) : performRed s 16 ctx w a [(0, pa)] = (4, 0, [(pa, 4, 4)], s) ∧
    performRed s 17 ctx w a [(0, pa)] = (4, 0, [(pa, 4, 4)], s) := by
  simp [performRed, hok, hnone]

/-- fred replaces the cell by the sum. -/
theorem performRed_add {c c' : Cell} (hc : cellOf s ctx pa = some c)
    (hadd : cellAdd c (decodeFloat (gmSz w) (lane (floatBits (gmSz w)) 0 a)) = some c') :
    performRed s 16 ctx w a [(0, pa)] = (0, 0, [], putCell s c') := by
  simp [performRed, hok, hc, hadd]

/-- fredrd answers the cell's value; a parity error is logged, and goes, as the cell does with the clear bit. -/
theorem performRed_read {c : Cell} (hc : cellOf s ctx pa = some c) : performRed s 17 ctx w a [(0, pa)] =
    (0, packLanes (floatBits (gmSz w)) [cellRead (gmSz w) c], if c.parity then [(pa, 4, 3)] else [],
      if bit w 55 then dropCell s ctx pa else if c.parity then putCell s { c with parity := false } else s) := by
  cases hp : c.parity <;> simp [performRed, hok, hc, hp]

end Red

/-- A finite addend is added and counted unless the count is full (R68). -/
theorem cellAdd_fin {c : Cell} {x : Num} {n : Bool} {m : Nat} {e : Int} (hx : x = .fin n m e) (hc : c.count.toNat ≠ 2 ^ 40 - 1) :
    cellAdd c x = some { c with val := c.val + BitVec.ofInt 320 (scaledInt n m e (-149)), count := c.count + 1 } := by
  subst hx
  exact if_neg hc

/-- fredrd takes the parity mark of its cell with it, or the cell itself with the clear bit (log 12). -/
theorem performRed_read_becomes {s : State} {ctx pa : Nat} (w : Word) {c : Cell} (hc : cellOf s ctx pa = some c) : CellBecomes s
    (if bit w 55 then dropCell s ctx pa else if c.parity then putCell s { c with parity := false } else s) ctx pa
    (if bit w 55 then none else some { c with parity := false }) := by
  obtain ⟨rfl, rfl⟩ := cellOf_place hc
  split
  · exact dropCell_becomes s
  · split
    · exact putCell_becomes s { c with parity := false }
    · next hp =>
      refine ⟨?_, rfl, rfl, fun _ _ _ => rfl⟩
      rw [hc, ← Bool.eq_false_iff.mpr hp]

/-- amo and cas are neither lists nor reductions nor posted: one piece at the start of its value stands at place 0 (R237, R238). -/
theorem atomic_place {r : GmReq} (h : r.code = 14 ∨ r.code = 15) : r.posted = false ∧ ∀ pa, r.posOf (0, pa) = 0 := by
  rcases h with h | h <;> simp [GmReq.posted, GmReq.posOf, h]

section Done
variable {s : State} {r : GmReq} {p pa : Nat} (ctx : Nat) (hlanes : r.lanes = [(p, pa)]) (hred : r.isRed = false) (hown : ownAddr s pa = true)
  (hok : addrStatus s pa = 0) (hclean : memPoisoned s pa (r.lenOf (p, pa)) = false)
include hlanes hred hown hok hclean

/-- A store that its home takes (R235). -/
theorem performAt_store_done (h : r.code ∈ [9, 11, 13, 21]) : performAt s ctx r =
    (0, 0, [], memStore s pa (leBytes (r.lenOf (p, pa)) (fld r.a (8 * r.posOf (p, pa)) (8 * r.lenOf (p, pa))))) := by
  rw [performAt_posted ctx hlanes hred hown (posted_of_store h), homeRefuses_done hok hclean, if_pos rfl]

/-- A load that its home takes (R235). -/
theorem performAt_load_done (h : r.code ∈ [8, 10, 12, 20]) : performAt s ctx r =
    (0, toVec (leNat (memRead s pa (r.lenOf (p, pa))) * 2 ^ (8 * r.posOf (p, pa))), [], s) :=
  have ⟨hposted, h14, h15⟩ := not_posted_of_load h
  performAt_load ctx hlanes hred hown hposted (homeRead_done hok hclean) h14 h15

/-- amo of one piece (R237). -/
theorem performAt_amo_done (hp : p = 0) (hn : r.lenOf (p, pa) = r.size) (h : r.code = 14) : performAt s ctx r =
    (0, toVec (leNat (memRead s pa r.size)), [],
      memStore s pa (leBytes r.size (amoValue (gmFx r.word) r.size (leNat (memRead s pa r.size)) (fld r.a 0 (8 * r.size))))) := by
  obtain ⟨hposted, hpos⟩ := atomic_place (.inl h)
  subst hp
  simpa [hn, hpos] using performAt_amo ctx hlanes hred hown hposted (homeRead_done hok hclean) h

/-- cas of one piece (R238). -/
theorem performAt_cas_done (hp : p = 0) (hn : r.lenOf (p, pa) = r.size) (h : r.code = 15) : performAt s ctx r =
    (0, toVec (leNat (memRead s pa r.size)), [],
      if leNat (memRead s pa r.size) = fld r.a 0 (8 * r.size) then memStore s pa (leBytes r.size (fld r.c 0 (8 * r.size))) else s) := by
  obtain ⟨hposted, hpos⟩ := atomic_place (.inr h)
  subst hp
  simpa [hn, hpos] using performAt_cas ctx hlanes hred hown hposted (homeRead_done hok hclean) h

end Done

/-- Settles O37: the access by its kind, and the reductions by what they do to their cell. -/
theorem accessesAtHome : Obligations.AccessesAtHome := by
  refine ⟨fun s ctx r p pa hlanes hred hfence hown => ?lane, fun s ctx pa w a hok => ⟨fun hroom => ?clear, performRed_absent ctx w a hok, ?cell⟩⟩
  case lane =>
    intro n pos old same
    refine ⟨fun h => ?refused, fun h hp hposted => ?poisoned, fun h hp => ⟨?load, fun hc => ?store, fun hp0 hn hc => ?amo, fun hp0 hn hc => ?cas⟩⟩
    case refused =>
      cases hposted : r.posted with
      | true =>
        refine ⟨addrStatus s pa, 2, ?_, by simp⟩
        rw [performAt_posted ctx hlanes hred hown hposted, homeRefuses_status h, if_neg h]
      | false =>
        have hst := homeRead_status (n := n) h
        obtain ⟨k, hk⟩ := performAt_refused ctx hlanes hred hown hposted (show (homeRead s pa n).1 ≠ 0 by rw [hst]; split <;> omega)
        exact ⟨_, k, hk, by simpa using hst⟩
    case poisoned =>
      have hst := homeRead_poisoned h hp
      obtain ⟨k, hk⟩ := performAt_refused ctx hlanes hred hown hposted (show (homeRead s pa n).1 ≠ 0 by rw [hst]; decide)
      exact ⟨k, by rw [hk, hst]⟩
    case load => exact performAt_load_done ctx hlanes hred hown h hp
    case store =>
      obtain ⟨hread, hsame⟩ := memStore_bytes s pa n (fld r.a (8 * pos) (8 * n))
      exact ⟨_, performAt_store_done ctx hlanes hred hown h hp hc, hread, hsame, rfl, rfl⟩
    case amo =>
      obtain ⟨hread, hsame⟩ := memStore_bytes s pa n (amoValue (gmFx r.word) n old (fld r.a 0 (8 * n)))
      have hp := performAt_amo_done ctx hlanes hred hown h hp hp0 hn hc
      rw [← hn] at hp
      exact ⟨_, hp, hread, hsame, rfl⟩
    case cas =>
      obtain ⟨hread, hsame⟩ := memStore_bytes s pa n (fld r.c 0 (8 * n))
      have hp := performAt_cas_done ctx hlanes hred hown h hp hp0 hn hc
      rw [← hn] at hp
      refine ⟨_, hp, fun he => ?_, fun he => if_neg he, by split <;> rfl⟩
      rw [if_pos he]
      exact ⟨hread, hsame⟩
  case clear =>
    obtain ⟨hhere, hmem, hcur, hothers⟩ := putCell_becomes s (freshCell ctx pa)
    exact ⟨_, performRed_clear ctx w a hok hroom, hhere, hmem, hcur, hothers⟩
  case cell =>
    intro c hc
    refine ⟨fun m n e hx hcount => ?add, ?read⟩
    case add =>
      refine ⟨_, performRed_add ctx w a hok hc (cellAdd_fin hx hcount), ?_⟩
      obtain ⟨rfl, rfl⟩ := cellOf_place hc
      obtain ⟨hhere, hmem, hcur, hothers⟩ :=
        putCell_becomes s { c with val := c.val + BitVec.ofInt 320 (scaledInt n m e (-149)), count := c.count + 1 }
      exact ⟨hhere, hmem, hcur, hothers⟩
    case read =>
      obtain ⟨hhere, hmem, hcur, hothers⟩ := performRed_read_becomes w hc
      exact ⟨_, performRed_read ctx w a hok hc, hhere, hmem, hcur, hothers⟩

end Sys2Proof.Machine
end

section
/-!
PROOF. Links (R321, R322, R370, R371, R379): what each event of a living link, of a dying one and of a die's reroute does.
-/
namespace Sys2Proof.Machine
open Sys2Proof.Machine.Claims

/-! ## Living links (R370, R371, R379) -/

theorem alive_of_trained {l : Link} (ht : l.trained = true) (hd : l.dead = false) : l.alive = true := by simp [Link.alive, ht, hd]

@[simp] theorem isPort_eq_true {k : Nat} : isPort k = true ↔ k < 18 := by simp [isPort]

/-- A link whose training completes: credits and flit numbers as after a reset, the repair count kept. -/
def trainedLink (depth : BitVec 8) (l : Link) : Link :=
  { Link.reset with trained := true, repair := l.repair, chans := (List.range 4).map fun v => (v, trainedChannel depth) }

theorem trainLink_exists {s : State} {k : Nat} (depth : BitVec 8) (h : linkExists s k = true) :
    trainLink k depth s = [k, reverseLink k].foldl (fun s j => putLink j (trainedLink depth (linkOf s j)) s) s := by
  unfold trainLink
  exact if_neg (by simp [h])

/-- Flits inside the package have no numbers. -/
theorem numberFlit_inside {k : Nat} (l : Link) (h : 18 ≤ k) : numberFlit k l = some l := by
  simp [numberFlit, isPort, Nat.not_lt.mpr h]

theorem numberFlit_port {k : Nat} {l : Link} (h : k < 18) (hroom : l.unacked.length < 512) :
    numberFlit k l = some { l with nextSeq := l.nextSeq + 1, unacked := l.unacked ++ [l.nextSeq.toNat] } := by
  simp [numberFlit, isPort, h, Nat.not_le.mpr hroom]

theorem numberFlit_full {k : Nat} {l : Link} (h : k < 18) (hfull : 512 ≤ l.unacked.length) : numberFlit k l = none := by
  simp [numberFlit, isPort, h, hfull]

section Alive
variable {s : State} {k : Nat} (halive : (linkOf s k).alive = true)
include halive

/-- An audit leaves on a numbered flit. -/
theorem sendAudit_numbered {l : Link} (v : Nat) (h : numberFlit k (linkOf s k) = some l) :
    sendAudit k v s = putLink k (putChan v { chanOf l v with audit := some ((chanOf l v).h, (chanOf l v).rc) } l) s := by
  simp [sendAudit, halive, h]

theorem sendAudit_full (v : Nat) (h : numberFlit k (linkOf s k) = none) : sendAudit k v s = s := by simp [sendAudit, halive, h]

/-- Over a port the flit names its credits. -/
theorem returnCredit_port (v : Nat) (crd : BitVec 8) (h : k < 18) : returnCredit k v crd s =
    putLink k (putChan v { chanOf (linkOf s k) v with h := (chanOf (linkOf s k) v).h + crd, rc := (chanOf (linkOf s k) v).rc + crd.setWidth 16 }
      (goodFlit k (linkOf s k))) s := by
  simp [returnCredit, halive, isPort, h]

/-- Inside the package only credits on their way come back. -/
theorem returnCredit_inside (v : Nat) (crd : BitVec 8) (h : 18 ≤ k) : returnCredit k v crd s =
    let c := chanOf (linkOf s k) v
    let n := if crd.toNat ≤ c.back.toNat then crd else c.back
    putLink k (putChan v { c with h := c.h + n, rc := c.rc + n.setWidth 16, back := c.back - n } (goodFlit k (linkOf s k))) s := by
  simp [returnCredit, halive, isPort, Nat.not_lt.mpr h]

theorem replayFrom_alive (seq : Nat) : replayFrom k seq s =
    putLink k { goodFlit k (linkOf s k) with resend := (linkOf s k).unacked.dropWhile fun x => x != seq } s := by
  simp [replayFrom, halive]

theorem acknowledge_known {seq : Nat} (h : seq ∈ (linkOf s k).unacked) : acknowledge k seq s =
    let kept := ((linkOf s k).unacked.dropWhile fun x => x != seq).drop 1
    putLink k { goodFlit k (linkOf s k) with unacked := kept, resend := (linkOf s k).resend.filter fun x => decide (x ∈ kept) } s := by
  simp [acknowledge, halive, h]

/-- A failed flit counts; the sixteenth in a row kills the link. -/
theorem failFlit_alive : failFlit k s =
    let l := linkOf s k
    let s1 := putLink k { l with failed := l.failed + 1, lost := if k < 18 then l.lost ++ [l.expected.toNat] else l.lost } s
    if 15 ≤ l.failed then killLink k s1 else discardFlit k s1 := by
  simp [failFlit, halive]

end Alive

theorem discardFlit_port {k : Nat} (s : State) (h : k % 8192 < 18) : discardFlit k s = s := by simp [discardFlit, isPort, h]

theorem discardFlit_inside {k : Nat} (s : State) (h : 18 ≤ k % 8192) : discardFlit k s =
    let x := (Config.freeValue s.fresh).toNat % 8
    onChan k (x % 4) (fun c => if x < 4 then { c with h := c.h - if c.h = 0 then 0 else 1 } else { c with back := 0 })
      { s with fresh := s.fresh + 1 } := by
  simp [discardFlit, isPort, Nat.not_lt.mpr h]

/-! ## Audits (R371) -/

section Audit
variable {s : State} {k v : Nat} {h : BitVec 8} {rc : BitVec 16} (halive : (linkOf s k).alive = true)
  (haudit : (chanOf (linkOf s k) v).audit = some (h, rc))
include halive haudit

/-- An audit that finds the balance 0 clears the channel's last finding. -/
theorem checkAudit_even (hm : auditBalance (chanOf (linkOf s k) v) h rc = 0) : checkAudit k v s =
    putLink k (putChan v { chanOf (linkOf s k) v with audit := none, last := none } (goodFlit k (linkOf s k))) s := by
  simp [checkAudit, halive, haudit, hm]

/-- A balance that is found for the first time is kept. -/
theorem checkAudit_lacks (hm : 0 < auditBalance (chanOf (linkOf s k) v) h rc)
    (hlast : (chanOf (linkOf s k) v).last ≠ some (auditBalance (chanOf (linkOf s k) v) h rc)) : checkAudit k v s =
    putLink k (putChan v { chanOf (linkOf s k) v with audit := none, last := some (auditBalance (chanOf (linkOf s k) v) h rc) }
      (goodFlit k (linkOf s k))) s := by
  simp [checkAudit, halive, haudit, hm, hm.ne', hlast]

/-- A lack that is found twice is made up. -/
theorem checkAudit_repairs (hm : 0 < auditBalance (chanOf (linkOf s k) v) h rc)
    (hlast : (chanOf (linkOf s k) v).last = some (auditBalance (chanOf (linkOf s k) v) h rc)) : checkAudit k v s =
    let c := chanOf (linkOf s k) v
    let n := (auditBalance c h rc).toNat
    let s1 := putLink k (putChan v
      { c with audit := none, last := none, sc := c.sc + BitVec.ofNat 16 n, rc := c.rc + BitVec.ofNat 16 n, h := c.h + BitVec.ofNat 8 n }
      (goodFlit k (linkOf s k))) s
    let j := repairKey k
    (linkDies k).eraseDups.foldl (fun s d =>
      match s.dev.dies[d]? with | some x => putDie s d { x with routerLog := x.routerLog ++ [(k, n)] } | none => s)
      (putLink j { linkOf s1 j with repair := sat32 (linkOf s1 j).repair } s1) := by
  dsimp only [checkAudit]
  rw [halive, haudit]
  exact (if_neg hm.ne').trans ((if_pos hm).trans (if_pos hlast))

/-- A channel found with too many credits keeps the finding. -/
theorem checkAudit_exceeds (hm : auditBalance (chanOf (linkOf s k) v) h rc < 0)
    (hlast : ∀ p, (chanOf (linkOf s k) v).last = some p → 0 ≤ p) : checkAudit k v s =
    putLink k (putChan v { chanOf (linkOf s k) v with audit := none, last := some (auditBalance (chanOf (linkOf s k) v) h rc) }
      (goodFlit k (linkOf s k))) s := by
  cases hl : (chanOf (linkOf s k) v).last with
  | none => simp [checkAudit, halive, haudit, hm.ne, hm.not_gt, hl]
  | some p => simp [checkAudit, halive, haudit, hm.ne, hm.not_gt, hl, (hlast p hl).not_gt]

/-- Too many credits twice kill the link. -/
theorem checkAudit_kills {p : Int} (hm : auditBalance (chanOf (linkOf s k) v) h rc < 0)
    (hlast : (chanOf (linkOf s k) v).last = some p) (hp : p < 0) : checkAudit k v s =
    killLink k (putLink k (putChan v { chanOf (linkOf s k) v with audit := none, last := none } (goodFlit k (linkOf s k))) s) := by
  simp [checkAudit, halive, haudit, hm.ne, hm.not_gt, hlast, hp]

end Audit

/-! ## Dead links and reroutes (R312, R321-R325) -/

/-- A dead link, or one that the package lacks, does not die. -/
theorem killLink_dead {s : State} {k : Nat} (h : (linkOf s k).dead = true ∨ linkExists s k = false) : killLink k s = s := by
  rcases h with h | h <;> simp [killLink, h]

section Kill
variable {s : State} {k : Nat} (hdead : (linkOf s k).dead = false) (hexists : linkExists s k = true)
include hdead hexists

theorem killLink_port (h : k % 8192 < 18) : killLink k s = losePort (k % 8192) s := by simp [killLink, hdead, hexists, isPort, h]

/-- What was on a link inside the package is lost, and its dies pause. -/
def deadLinkState (k : Nat) (s : State) : State :=
  let s1 := loseMulticast k (((s.cur :: s.peers).map Tile.id).foldl (fun s i => onTile i (loseTraffic k) s) s)
  let s2 := [k, reverseLink k].foldl (fun s j => putLink j { linkOf s j with trained := false, dead := true } s) s1
  (linkDies k).eraseDups.foldl (fun s d => match s.dev.dies[d]? with | some x => putDie s d { x with paused := true } | none => s) s2

/-- The nodes on tiles of every die at a link's ends. -/
def nodesAcross (k : Nat) (s : State) : List Node :=
  s.dev.hw.nodes.filter fun n => onTiles n && (linkDies k).eraseDups.all fun d => n.parts.any fun q => q.1 == d

/-- A span node across the link fails (R312). -/
theorem killLink_inside (h : 18 ≤ k % 8192) : killLink k s =
    if (linkDies k).eraseDups.length < 2 then deadLinkState k s
    else (nodesAcross k (deadLinkState k s)).foldl (fun s n => match nodeOf s n.ref with | some m => failSpan m s | none => s)
      (deadLinkState k s) := by
  unfold killLink
  rw [if_neg (by simp [hdead, hexists]), if_neg (by simpa using h)]
  rfl

theorem killLink_inside_alone (h : 18 ≤ k % 8192) (hone : (linkDies k).eraseDups.length < 2 ∨ nodesAcross k (deadLinkState k s) = []) :
    killLink k s = deadLinkState k s := by
  rw [killLink_inside hdead hexists h]
  split
  · rfl
  · next htwo => rw [hone.resolve_left htwo, List.foldl_nil]

theorem killLink_inside_across (h : 18 ≤ k % 8192) (htwo : 2 ≤ (linkDies k).eraseDups.length) {n m : Node}
    (hacross : nodesAcross k (deadLinkState k s) = [n]) (hnode : nodeOf (deadLinkState k s) n.ref = some m) :
    killLink k s = failSpan m (deadLinkState k s) := by
  rw [killLink_inside hdead hexists h, if_neg (by omega), hacross, List.foldl_cons, hnode]
  rfl

end Kill

section Die
variable {s : State} {d : Nat} {x : Die} (hdie : s.dev.dies[d]? = some x)
include hdie

theorem rerouteDone_running (h : x.paused = false) : rerouteDone d s = s := by simp [rerouteDone, hdie, h]

theorem dieFails_service (h : x.service = true) : dieFails d s = deviceEventAll 3 0 (putDie s d { x with service := false }) := by
  simp [dieFails, hdie, h]

/-- Injection resumes on a die with its new routes; the tiles on it that lost messages are reported (R322, R323). -/
def resumedState (d : Nat) (x : Die) (s : State) : State :=
  let s0 := rewriteTables d (putDie s d { x with paused := false })
  let hit := fun (i : TileId) => decide (i.die = d) || !(dieOf s0 i).paused
  let s1 := (s0.dev.losers.filter hit).foldl lostRecord s0
  { s1 with dev := { s1.dev with losers := s1.dev.losers.filter fun i => !hit i } }

/-- The nodes on tiles of a die that have not failed. -/
def nodesHere (d : Nat) (s : State) : List Node :=
  s.dev.hw.nodes.filter fun n => onTiles n && !n.failing && n.parts.any fun q => q.1 == d

theorem rerouteDone_paused (h : x.paused = true) : rerouteDone d s =
    (nodesHere d (resumedState d x s)).foldl (fun s n => match nodeOf s n.ref with | some m => rerouteNode d s m | none => s)
      (resumedState d x s) := by
  unfold rerouteDone
  rw [hdie]
  exact if_neg (by simp [h])

theorem rerouteDone_alone (h : x.paused = true) (hhere : nodesHere d (resumedState d x s) = []) : rerouteDone d s = resumedState d x s := by
  rw [rerouteDone_paused hdie h, hhere, List.foldl_nil]

theorem rerouteDone_node (h : x.paused = true) {n m : Node} (hhere : nodesHere d (resumedState d x s) = [n])
    (hnode : nodeOf (resumedState d x s) n.ref = some m) : rerouteDone d s = rerouteNode d (resumedState d x s) m := by
  rw [rerouteDone_paused hdie h, hhere, List.foldl_cons, hnode]
  rfl

end Die

/-- The circuits of a node's parts on a die, rerouted one after the other. -/
def routedParts (d : Nat) (m : Node) (s : State) : Option State :=
  m.parts.foldl (fun (r : Option State) q => r.bind fun s => if q.1 = d then reroutePart m q s else some s) (some s)

/-- A node without a route is evacuated (R325). -/
theorem rerouteNode_evacuates {d : Nat} {s : State} {m : Node}
    (h : routedParts d m s = none ∨ partsRoute s (2 ^ m.decl.lh) (2 ^ m.decl.lw) m.parts = false) : rerouteNode d s m = evacuate m s := by
  unfold rerouteNode
  rcases h with h | h
  · rw [show m.parts.foldl _ _ = none from h]
  · simp only [h]
    split <;> rfl

theorem rerouteNode_routed {d : Nat} {s v : State} {m : Node} (h : routedParts d m s = some v)
    (hparts : partsRoute s (2 ^ m.decl.lh) (2 ^ m.decl.lw) m.parts = true) : rerouteNode d s m = v := by
  unfold rerouteNode
  rw [show m.parts.foldl _ _ = some v from h]
  exact if_pos hparts

/-- An event continues with its state. -/
theorem event_congr {s t : State} (h : s = t) : event s = .next t := congrArg _ h

/-- Settles O56: each event by the lemma about its function. -/
theorem linkEvents : Obligations.LinkEvents := by
  refine ⟨fun k s => ⟨fun depth h => ?train, fun ht hd => ?living, fun h => ?stays, fun hd he h => ?port, fun hd he h => ?inside⟩,
    fun d s x hdie => ⟨fun h => ?running, fun h => ?timeout, fun h => ?service, fun h => ?reroute⟩⟩
  case train => exact event_congr (trainLink_exists depth h)
  case living =>
    have halive := alive_of_trained ht hd
    refine ⟨fun v => ⟨fun h => ?_, fun h hroom => ?_, fun h hfull => ?_, fun crd => ⟨fun h => ?_, fun h => ?_⟩, fun h rc haudit => ?audit⟩,
      fun seq => ⟨?_, fun h => ?_⟩, ?failed⟩
    · exact event_congr (sendAudit_numbered halive v.toNat (numberFlit_inside _ h))
    · exact event_congr (sendAudit_numbered halive v.toNat (numberFlit_port h hroom))
    · exact event_congr (sendAudit_full halive v.toNat (numberFlit_full h hfull))
    · exact event_congr (returnCredit_port halive v.toNat crd h)
    · exact event_congr (returnCredit_inside halive v.toNat crd h)
    case audit =>
      refine ⟨fun hm => ?_, fun hm hl => ?_, fun hm hl => ?_, fun hm hl => ?_, fun hm ⟨p, hl, hp⟩ => ?_⟩
      · exact event_congr (checkAudit_even halive haudit hm)
      · exact event_congr (checkAudit_lacks halive haudit hm hl)
      · exact event_congr (checkAudit_repairs halive haudit hm hl)
      · exact event_congr (checkAudit_exceeds halive haudit hm hl)
      · exact event_congr (checkAudit_kills halive haudit hm hl hp)
    · exact event_congr (replayFrom_alive halive seq.toNat)
    · exact event_congr (acknowledge_known halive h)
    case failed =>
      refine ⟨fun hf h => ?_, fun hf h => ?_, fun hf => ?_⟩
      · exact event_congr ((failFlit_alive halive).trans ((if_neg (by omega)).trans (discardFlit_port _ h)))
      · exact event_congr ((failFlit_alive halive).trans ((if_neg (by omega)).trans (discardFlit_inside _ h)))
      · exact event_congr ((failFlit_alive halive).trans (if_pos hf))
  case stays => exact event_congr (killLink_dead h)
  case port => exact event_congr (killLink_port hd he h)
  case inside => exact ⟨fun hone => event_congr (killLink_inside_alone hd he h hone),
    fun n m htwo hacross hnode => event_congr (killLink_inside_across hd he h htwo hacross hnode)⟩
  case running => exact ⟨event_congr (rerouteDone_running hdie h), event_congr (by simp [hdie, h])⟩
  case timeout => exact event_congr (by simp [hdie, h])
  case service => exact event_congr (dieFails_service hdie h)
  case reroute => exact ⟨fun hhere => event_congr (rerouteDone_alone hdie h hhere), fun n m hhere hnode =>
    ⟨fun hr => event_congr ((rerouteDone_node hdie h hhere hnode).trans (rerouteNode_evacuates hr)),
      fun v hr hparts => event_congr ((rerouteDone_node hdie h hhere hnode).trans (rerouteNode_routed hr hparts))⟩⟩

end Sys2Proof.Machine
end

section
/-!
PROOF. How nodes end, stop and move (R26, R280, R287, R288, R302, R312, R313, R329-R332): completions, sweeps, stops, cuts and gangs.
-/
namespace Sys2Proof.Machine
open Sys2Proof.Machine.Claims

/-! ## Completions and sweeps (R287, R302) -/

section Completion
variable {s : State} {p : Parent} (hfind : s.dev.hw.completions.find? (fun q => decide (q.child = p.child)) = some p)
include hfind

/-- A completion whose parent is gone goes to the context. -/
theorem deliverCompletion_orphan (h : nodeOf s p.ref = none) :
    deliverCompletion p.child s = recordCompletion p (onHw (fun h => { h with completions := h.completions.erase p }) s) := by
  simp [deliverCompletion, hfind, h]

variable {q : Node} (hparent : nodeOf s p.ref = some q)
include hparent

/-- It lands at a parent that runs, drains or has faulted. -/
theorem deliverCompletion_lands (h : q.state ∈ [.running, .draining, .faulted]) :
    deliverCompletion p.child s = landCompletion q p (onHw (fun h => { h with completions := h.completions.erase p }) s) := by
  simp only [List.mem_cons, List.not_mem_nil, or_false] at h
  rcases h with h | h | h <;> simp [deliverCompletion, hfind, hparent, h]

/-- It waits for a parent that is cut. -/
theorem deliverCompletion_waits (h : q.state = .cutting) : deliverCompletion p.child s = s := by
  simp [deliverCompletion, hfind, hparent, h]

/-- It goes to the context of a parent that waits or has ended. -/
theorem deliverCompletion_records (h : q.state ∈ [.waiting, .ended]) :
    deliverCompletion p.child s = recordCompletion p (onHw (fun h => { h with completions := h.completions.erase p }) s) := by
  simp only [List.mem_cons, List.not_mem_nil, or_false] at h
  rcases h with h | h <;> simp [deliverCompletion, hfind, hparent, h]

end Completion

/-- The messages that the swept tiles have sent, and those received or lost. -/
def sweepCounts (s : State) (n : Node) : Nat × Nat :=
  (((sweptTiles s n).map fun t => t.net.sent.toNat).sum, ((sweptTiles s n).map fun t => t.net.received.toNat + t.net.lost.toNat).sum)

section Sweep
variable {s : State} {n : Node} (hn : nodeOf s n.ref = some n)
include hn

/-- A sweep of a node whose tiles are all done: two equal ones that find every tile idle and every message received end it. -/
theorem sweepNode_done (hruns : n.state = .running ∨ n.state = .draining) (hdone : ∀ t ∈ sweptTiles s n, tileDone t = true) :
    sweepNode n.ref s =
      if !(sweptTiles s n).all idleFlag || (sweepCounts s n).1 != (sweepCounts s n).2 then putNode { n with sweep := none } s
      else if n.sweep = some (sweepCounts s n) then endNode n s else putNode { n with sweep := some (sweepCounts s n) } s := by
  have hstate : (n.state == .running || n.state == .draining) = true := by simpa using hruns
  have hall : (sweptTiles s n).all tileDone = true := List.all_eq_true.mpr hdone
  unfold sweepNode
  rw [hn]
  exact if_neg (by simp [hstate, hall])

/-! ## Stops and cuts (R280, R313, R329-R332) -/

section Stop
variable (hfree : holdsAttached s n.ref = false) (hruns : n.state = .running)
include hfree hruns

theorem stopNode_drain : stopNode n.ref .drain s = beginDrain n s := by simp [stopNode, hn, hfree, hruns]

theorem stopNode_checkpoint (h : n.decl.has 0 = true) : stopNode n.ref .checkpoint s = beginCut n s := by
  simp [stopNode, hn, hfree, hruns, h]

theorem stopNode_kill (h : n.decl.has 1 = true) : stopNode n.ref .kill s = killNode n s := by simp [stopNode, hn, hfree, hruns, h]

end Stop

/-- The tiles of a node that take part in its cut. -/
def cutTiles (s : State) (n : Node) : List Tile := ((nodeTiles n).map fun i => tileAt s i).filter takesPart

section Cut
variable (hcut : n.state = .cutting) (hsaving : n.saving = none)
include hcut hsaving

/-- A round of a cut that is not yet being saved. -/
theorem cutRoundOf_cutting : cutRoundOf n.ref s =
    if cutTiles s n = [] then beginSave n s
    else match n.target with
      | none => if (cutTiles s n).all fun t => t.ctl.reported.isSome then
          broadcastCut n (maxCut ((cutTiles s n).map fun t => (t.ctl.reported.getD 0).toNat)) s else s
      | some m => if !(cutTiles s n).all cutStopped then s
        else if maxCut ((cutTiles s n).map fun t => t.csr.cutn.toNat) = m.toNat then beginSave n s
        else broadcastCut n (maxCut ((cutTiles s n).map fun t => t.csr.cutn.toNat)) s := by
  unfold cutRoundOf
  rw [hn]
  exact if_neg (by simp [hcut, hsaving])

/-- A node of which no tile takes part has stopped. -/
theorem cutRoundOf_empty (h : cutTiles s n = []) : cutRoundOf n.ref s = beginSave n s := by
  rw [cutRoundOf_cutting hn hcut hsaving, if_pos h]

/-- The first target is the largest number reported. -/
theorem cutRoundOf_reported (h : cutTiles s n ≠ []) (htarget : n.target = none) (hall : ∀ t ∈ cutTiles s n, t.ctl.reported.isSome = true) :
    cutRoundOf n.ref s = broadcastCut n (maxCut ((cutTiles s n).map fun t => (t.ctl.reported.getD 0).toNat)) s := by
  rw [cutRoundOf_cutting hn hcut hsaving, if_neg h, htarget]
  exact if_pos (List.all_eq_true.mpr hall)

/-- Once every tile has stopped, the save begins where they stand at the target, and else their largest number is the new one. -/
theorem cutRoundOf_stopped {m : Word} (h : cutTiles s n ≠ []) (htarget : n.target = some m) (hall : ∀ t ∈ cutTiles s n, cutStopped t = true) :
    cutRoundOf n.ref s = if maxCut ((cutTiles s n).map fun t => t.csr.cutn.toNat) = m.toNat then beginSave n s
      else broadcastCut n (maxCut ((cutTiles s n).map fun t => t.csr.cutn.toNat)) s := by
  rw [cutRoundOf_cutting hn hcut hsaving, if_neg h, htarget]
  exact if_neg (by simpa using hall)

end Cut

theorem sealImage_ready (hcut : n.state = .cutting) {start : Nat} (hsaving : n.saving = some start)
    (hrest : ∀ i ∈ nodeTiles n, tileRests (focus i s) = true) :
    sealImage n.ref s = requeueNode n.ref true (putNode (putImage (makeImage n s) n) s) := by
  have hready : sealReady s n = true := by simpa [sealReady, hcut, hsaving] using hrest
  simp [sealImage, hn, hready]

theorem saveExpires_late (h : saveLate s n = true) : saveExpires n.ref s =
    let s1 := putNode (putImage (headerOnly 2 (makeImage n s)) n) s
    let s2 := (s1.dev.hw.nodes.filter fun m => m.ref.ctx == n.ref.ctx).foldl (fun s m =>
      match nodeOf s m.ref with | some m => stopKilled m s | none => s) s1
    eventRecord n.ref.ctx (faultRecord 6 25 5 (entryWord n.ref) (queueByte n) 0 0 0 0 0 (cisternTsc s2 0).toNat 0) (freezeAll n.ref.ctx s2) := by
  unfold saveExpires
  rw [hn]
  exact if_neg (by simp [h])

end Sweep

theorem saveLate_of_saving {s : State} {n : Node} {start : Nat} (hcut : n.state = .cutting) (hsaving : n.saving = some start) :
    saveLate s n = decide ((if n.decl.wdog = 0 then 2 ^ 32 else n.decl.wdog) ≤ 3 * ((cisternTsc s 0).toNat - start)) := by
  simp [saveLate, hcut, hsaving]

/-! ## Failover and gangs (R26, R288) -/

theorem failover_standby {s : State} (h : s.dev.hw.active = some 0) :
    failover s = deviceEventAll 1 0 (onHw (fun h => { h with active := some 1 }) s) := by simp [failover, h]

theorem failover_last {s : State} {k : Nat} (h : s.dev.hw.active = some k) (hk : k ≠ 0) :
    failover s = deviceEventAll 7 0 (onHw (fun h => { h with active := none }) s) := by
  cases k with
  | zero => exact absurd rfl hk
  | succ k => simp [failover, h]

theorem coordinates_eq_false {s : State} {g : Gang} : coordinates s g = false ↔ ∃ d ∈ g.devs, d < s.dev.fabric.dev := by
  simp [coordinates]

theorem gangReady_eq_true {g : Gang} : gangReady g = true ↔ ∀ d ∈ g.devs, d ∈ g.ready := by simp [gangReady]

theorem gangReady_eq_false {g : Gang} : gangReady g = false ↔ ∃ d ∈ g.devs, d ∉ g.ready := by simp [gangReady]

section Gang
variable {s : State} {g : Gang} (hfind : s.dev.hw.gangs.find? (fun x => x.num == g.num) = some g) (hsent : g.sent = none)
include hfind hsent

theorem readyGang_opens {dev : Nat} (hdev : dev ∈ g.devs) (hstands : dev = s.dev.fabric.dev → gangStands s g = true) :
    readyGang g.num dev s = onGang g.num (fun g => { g with ready := dev :: g.ready.filter fun d => d != dev }) s := by
  have hmay : ¬ (dev ∉ g.devs ∨ (dev = s.dev.fabric.dev ∧ (!gangStands s g) = true)) := by
    rintro (h | ⟨h, hn⟩)
    · exact h hdev
    · simp [hstands h] at hn
  simp only [readyGang, hfind]
  rw [if_neg hmay, hsent]

theorem goGang_goes (h : coordinates s g = false ∨ (gangReady g = true ∧ (cisternTsc s 0).toNat ≤ gangLimit s g)) :
    goGang g.num s = onGang g.num (fun g => { g with sent := some true }) s := by
  simp only [goGang, hfind]
  refine if_pos ?_
  rcases h with h | ⟨h, ht⟩
  · simp [hsent, h]
  · simp [hsent, h, ht]

theorem deferGang_alone (hnodes : g.nodes = []) (h : coordinates s g = false ∨ (gangReady g = false ∧ gangLimit s g ≤ (cisternTsc s 0).toNat)) :
    deferGang g.num s = onGang g.num (fun g => { g with sent := some false }) s := by
  simp only [deferGang, hfind, hnodes]
  refine if_pos ?_
  rcases h with h | ⟨h, ht⟩
  · simp [hsent, h]
  · simp [hsent, h, ht]

end Gang

/-- Settles O55: each event by the lemma about its function. -/
theorem nodeEvents : Obligations.NodeEvents := by
  refine ⟨fun s p hfind => ⟨fun h => ?orphan, fun q hq => ⟨fun h => ?lands, fun h => ?waits, fun h => ?records⟩⟩,
    fun s n hn => ⟨fun hruns hdone => ?sweep, fun hfree hruns => ⟨?drain, fun h => ?checkpoint, fun h => ?kill⟩, fun hfail => ?span, ?cut,
      fun start hcut hsaving => ⟨fun hrest => ?image, fun hlate => ?expire⟩⟩,
    fun s => ⟨fun h => ?standby, fun k h hk => ?last⟩, fun s g hfind =>
      ⟨fun d hdev hstands hsent => ?ready, fun hsent h => ?go, fun hsent hnodes h => ?defer⟩⟩
  case orphan => exact event_congr (deliverCompletion_orphan hfind h)
  case lands => exact event_congr (deliverCompletion_lands hfind hq h)
  case waits => exact event_congr (deliverCompletion_waits hfind hq h)
  case records => exact event_congr (deliverCompletion_records hfind hq h)
  case sweep =>
    have hsweep := sweepNode_done hn hruns hdone
    refine ⟨fun h => event_congr (hsweep.trans (if_pos ?_)), fun hidle heq => ?_⟩
    · simpa [sweepCounts] using h
    · have hgo : ¬ (!(sweptTiles s n).all idleFlag || (sweepCounts s n).1 != (sweepCounts s n).2) = true := by
        simpa using ⟨hidle, heq⟩
      rw [if_neg hgo] at hsweep
      exact ⟨fun h => event_congr (hsweep.trans (if_neg h)), fun h => event_congr (hsweep.trans (if_pos h))⟩
  case drain => exact event_congr (stopNode_drain hn hfree hruns)
  case checkpoint => exact event_congr (stopNode_checkpoint hn hfree hruns h)
  case kill => exact event_congr (stopNode_kill hn hfree hruns h)
  case span => exact event_congr (by simp [hn, hfail])
  case cut =>
    intro ts begun hfail hcut hsaving
    have hround : exec (.cutRound n.ref) s = .next (cutRoundOf n.ref s) := event_congr (by simp [hn, hfail])
    refine ⟨fun h => ?_, fun h ht hall => ?_, fun m h ht hall => ⟨fun hm => ?_, fun hm => ?_⟩⟩
    · rw [hround, cutRoundOf_empty hn hcut hsaving h]; rfl
    · rw [hround, cutRoundOf_reported hn hcut hsaving h ht hall]; rfl
    · rw [hround, cutRoundOf_stopped hn hcut hsaving h ht hall]
      exact congrArg _ (if_pos hm)
    · rw [hround, cutRoundOf_stopped hn hcut hsaving h ht hall]
      exact congrArg _ (if_neg hm)
  case image => exact event_congr (sealImage_ready hn hcut hsaving hrest)
  case expire => exact event_congr (saveExpires_late hn ((saveLate_of_saving hcut hsaving).trans (decide_eq_true hlate)))
  case standby => exact event_congr (failover_standby h)
  case last => exact event_congr (failover_last h hk)
  case ready => exact event_congr (readyGang_opens hfind hsent hdev hstands)
  case go =>
    exact event_congr (goGang_goes hfind hsent (h.imp coordinates_eq_false.mpr fun h => ⟨gangReady_eq_true.mpr h.1, h.2⟩))
  case defer =>
    exact event_congr (deferGang_alone hfind hsent hnodes (h.imp coordinates_eq_false.mpr fun h => ⟨gangReady_eq_false.mpr h.1, h.2⟩))

end Sys2Proof.Machine
end

section
/-!
PROOF. The sequencer of a tile (R23, R72, R92-R99, R113-R122, R307, R313, R328): a bundle tried again, and the events between bundles.
-/
namespace Sys2Proof.Machine
open Sys2Proof.Machine.Claims

/-- An event of a tile runs with the focus there. -/
theorem event_onTile {j : TileId} {f : State → State} {s v : State} (h : f (focus j s) = v) :
    event (onTile j f s) = .next (focus s.cur.id v) := by
  subst h
  rfl

theorem onCur_eq_withTile (f : Tile → Tile) (s : State) : onCur f s = withTile s (f s.cur) := rfl

/-! ## A bundle tried again (R96, R97, R99) -/

/-- Re-arming touches the sockets and what the fault captured. -/
theorem foldl_rearm_socks (cs : List Captured) (t : Tile) : ∃ ks, cs.foldl (fun t c =>
    let k := sockOf t c.sock
    let p := portOf k c.port
    putSock t c.sock (putPort k c.port { p with flight := p.flight ++ [c.op] })) t = { t with socks := ks } := by
  induction cs generalizing t with
  | nil => exact ⟨t.socks, rfl⟩
  | cons c cs ih =>
    obtain ⟨ks, h⟩ := ih (putSock t c.sock (putPort (sockOf t c.sock) c.port
      { portOf (sockOf t c.sock) c.port with flight := (portOf (sockOf t c.sock) c.port).flight ++ [c.op] }))
    exact ⟨ks, h⟩

theorem rearm_code_pc (t : Tile) : (rearm t).code = t.code ∧ (rearm t).pc = t.pc := by
  obtain ⟨ks, h⟩ := foldl_rearm_socks t.ctl.captured t
  unfold rearm
  rw [h]
  exact ⟨rfl, rfl⟩

/-- The bundle to be tried, with what a fault captured re-armed. -/
def rearmed (s : State) : State := if s.cur.ctl.rearms then onCur rearm s else s

theorem rearmed_code_pc (s : State) : (rearmed s).cur.code = s.cur.code ∧ (rearmed s).cur.pc = s.cur.pc := by
  unfold rearmed
  split
  · exact rearm_code_pc s.cur
  · exact ⟨rfl, rfl⟩

/-- The bundle at the PC depends on the loaded code and the PC. -/
theorem bundleAt_of_decode {s : State} {b : Bundle} (h : decodeBundle (fetchBundle s.cur s.cur.pc.toNat) = .ok b) : bundleAt s = .ok b := by
  simp only [bundleAt, h]

theorem bundleAt_rearmed {s : State} {b : Bundle} (h : decodeBundle (fetchBundle s.cur s.cur.pc.toNat) = .ok b) :
    bundleAt (rearmed s) = .ok b := by
  obtain ⟨hcode, hpc⟩ := rearmed_code_pc s
  apply bundleAt_of_decode
  rw [hpc, ← h]
  unfold fetchBundle
  rw [hcode]

section Issue
variable {s : State} {b : Bundle} (h : Issuing s.cur b)
include h

/-- A tile that tries a whole legal bundle issues it. -/
theorem issueAt_issuing : issueAt s = issueBundle false b (rearmed s) := by
  obtain ⟨hrun, hlate, hlegal, hsound, hwhole, hlost, hdecodes⟩ := h
  have hb := bundleAt_rearmed hdecodes
  unfold rearmed at hb ⊢
  simp [issueAt, hrun, hlate, hlegal, hsound, hwhole, lostFault, hlost, hb]

/-- A bundle that is whole, or at its last part, issues when it is tried again. -/
theorem retryBundle_issuing (hsplit : ∀ p, s.cur.ctl.split = some p → p.left = 0) : retryBundle s = issueBundle false b (rearmed s) := by
  rw [← issueAt_issuing h]
  unfold retryBundle
  split
  · next k g hs => exact absurd (hsplit _ hs) (Nat.succ_ne_zero k)
  · rfl

end Issue

/-- A bundle that issues in parts stays frozen to its last one (R97). -/
theorem retryBundle_part {s : State} {k : Nat} {g : List (Nat × Instr × Vec × Bool)} (h : s.cur.ctl.split = some { left := k + 1, got := g }) :
    (retryBundle s).1 = onCur (fun t => { t with ctl := { t.ctl with split := some { left := k, got := g } } }) s := by
  unfold retryBundle
  rw [h]

/-! ## SOCKMODE and results that come due (R92, R94, R96) -/

/-- A SOCKMODE value that applies. -/
theorem endMoves_mode {t : Tile} {m : Word} (h : t.ctl.mode = some m) : endMoves t = applyMode t m := by simp [endMoves, h]

theorem updateNpf_none (t : Tile) (v : Vec) : updateNpf t none v = t := rfl

/-- Results that come due change NPF alone besides their ports (R173). -/
theorem updateNpf_frame (t : Tile) (narrowed : Option Vec) (v : Vec) : ∃ n, updateNpf t narrowed v = { t with csr := { t.csr with npf := n } } := by
  cases narrowed with
  | none => exact ⟨t.csr.npf, rfl⟩
  | some u =>
    by_cases h : narrowedProgress (fld t.csr.npt 0 6) u v = true
    · exact ⟨1, if_pos h⟩
    · exact ⟨t.csr.npf, if_neg h⟩

theorem foldl_updateNpf_frame (rs : List Result) (t : Tile) :
    ∃ n, rs.foldl (fun t r => updateNpf t r.narrowed r.val) t = { t with csr := { t.csr with npf := n } } := by
  induction rs generalizing t with
  | nil => exact ⟨t.csr.npf, rfl⟩
  | cons r rs ih =>
    obtain ⟨n, h⟩ := updateNpf_frame t r.narrowed r.val
    obtain ⟨n', h'⟩ := ih (updateNpf t r.narrowed r.val)
    exact ⟨n', by rw [List.foldl_cons, h', h]⟩

/-- A data-locked result that is due at the end of the cycle is there. -/
def landResult (r : Result) : Result := if r.due = .cycles 1 ∨ r.due = .cycles 0 then { r with due := .ready } else r

/-- Every result due in a socket lands (R92). -/
theorem lockedDue_frame (k : Nat) (t : Tile) : ∃ n, lockedDue k t =
    { putSock t k { sockOf t k with y := (sockOf t k).y.map fun p => (p.1, { p.2 with fifo := p.2.fifo.map landResult }) } with
      csr := { t.csr with npf := n } } :=
  foldl_updateNpf_frame _ _

theorem lockedDue_fifo (k y : Nat) (t : Tile) :
    (portOf (sockOf (lockedDue k t) k) y).fifo = (portOf (sockOf t k) y).fifo.map landResult := by
  obtain ⟨n, h⟩ := lockedDue_frame k t
  rw [h]
  change (portOf (tget _ (tset _ _ k _) k) y).fifo = _
  rw [tget_tset_same]
  change (tget Port.reset ((sockOf t k).y.map _) y).fifo = _
  rw [tget_map Port.reset (fun p => { p with fifo := p.fifo.map landResult }) rfl]
  rfl

/-- Sockets other than those of memory answer nothing of their own accord. -/
theorem answerOldest_other {k : Nat} (s : State) (h : k ∉ [11, 12, 13]) : answerOldest k s = s := by
  simp only [List.mem_cons, List.not_mem_nil, or_false, not_or] at h
  simp [answerOldest, h]

/-- The free-running result of a port that is due replaces its value; an unread one may be marked lost (R96, R98). -/
theorem dueOn_single {t : Tile} {k y : Nat} {r : Free} (h : r.narrowed = none) : dueOn t k y [r] =
    putSock (if (portOf (sockOf t k) y).unread && bit t.csr.stc 1 && t.ctl.lost.isNone then
      { t with ctl := { t.ctl with lost := some (k, y) } } else t) k
      (putPort (sockOf t k) y { portOf (sockOf t k) y with val := r.val, unread := true }) := by
  simp only [dueOn, List.foldl_cons, List.foldl_nil, h, updateNpf_none]

/-- The free-running results of a socket that are due come to their ports (R96). -/
def freeDue (sock : Nat) (t : Tile) : Tile :=
  let k := sockOf t sock
  let due := k.y.filterMap fun p =>
    let rs := p.2.flight.filter fun o => decide (o.rem ≤ 1)
    if rs.isEmpty then none else some (p.1, rs)
  let t := putSock t sock { k with y := k.y.map fun p => (p.1, { p.2 with flight := p.2.flight.filter fun o => decide (1 < o.rem) }) }
  due.foldl (fun t q => dueOn t sock q.1 q.2) t

/-- The only result of a socket, due and no contractor's. -/
theorem freeDue_single {t : Tile} {k y : Nat} {p : Port} {o : Free} (hy : (sockOf t k).y = [(y, p)]) (hp : p.flight = [o]) (hrem : o.rem ≤ 1)
    (hnarrow : o.narrowed = none) : ∃ t', freeDue k t = t' ∧ portOf (sockOf t' k) y = { p with flight := [], val := o.val, unread := true } ∧
      t'.ctl.lost = (if p.unread && bit t.csr.stc 1 && t.ctl.lost.isNone then some (k, y) else t.ctl.lost) ∧
      { t' with socks := t.socks, ctl := { t'.ctl with lost := t.ctl.lost } } = t := by
  have hfree : freeDue k t = dueOn (putSock t k { sockOf t k with y := [(y, { p with flight := [] })] }) k y [o] := by
    simp [freeDue, hy, hp, hrem, Nat.not_lt.mpr hrem]
  have hsock : sockOf (putSock t k { sockOf t k with y := [(y, { p with flight := [] })] }) k = { sockOf t k with y := [(y, { p with flight := [] })] } :=
    tget_tset_same _ _ _ _
  have hport : portOf { sockOf t k with y := [(y, { p with flight := [] })] } y = { p with flight := [] } := if_pos rfl
  refine ⟨_, hfree, ?_⟩
  rw [dueOn_single hnarrow, hsock, hport]
  refine ⟨?_, ?_, ?_⟩
  · unfold sockOf putSock
    dsimp only
    rw [tget_tset_same]
    exact tget_tset_same _ _ _ _
  · split
    · next h => exact (if_pos h).symm
    · next h => exact (if_neg h).symm
  · split <;> rfl

/-! ## Late faults (R307) -/

theorem takeLate_first {s : State} {f : FaultInfo} {fs : List FaultInfo} (pc : Nat) (inBundle : Bool) (h : s.cur.ctl.late = f :: fs) :
    takeLate pc inBundle s = takeException f pc false inBundle (withTile s { s.cur with ctl := { s.cur.ctl with late := fs } }) := by
  unfold takeLate
  rw [h]
  rfl

/-! ## Answers to posted accesses (R244) -/

theorem posted_not_fence_acquire {r : GmReq} (h : r.posted = true) : r.isFence = false ∧ r.acquire = false := by
  simp only [GmReq.posted, Bool.or_eq_true, beq_iff_eq] at h
  rcases h with (((h | h) | h) | h) | h <;> simp [GmReq.isFence, GmReq.acquire, h]

/-- The request with a serial number leaves the accesses in flight. -/
def dropAccess (serial : Nat) (s : State) : State := onCur (fun t => { t with gm := t.gm.filter fun g => decide (g.serial ≠ serial) }) s

theorem scope_dropAccess (serial : Nat) (s : State) (r : GmReq) : r.scope (dropAccess serial s) = r.scope s := rfl

section Reply
variable {s : State} {r : GmReq} (hfind : s.cur.gm.find? (fun e => decide (e.serial = r.serial)) = some r) (hposted : r.posted = true)
  (hperformed : r.performed = true)
include hfind hposted hperformed

/-- The answer to a posted access ends it; an access that was refused or lost counts at FSTAT. -/
theorem replyGm_posted (hopen : r.st = 6 ∨ replyOpen s r = true) : replyGm r.serial s =
    let v := dropAccess r.serial (if r.st = 6 then s else replyOver r s)
    if r.st = 0 then v else onCur (fun t => failStore t (r.scope v) (r.st == 6) (BitVec.ofNat 64 (gmVa r.word))) v := by
  obtain ⟨hfence, hacq⟩ := posted_not_fence_acquire hposted
  have hgo : (!r.performed || r.isFence || (r.st != 6 && !replyOpen s r)) = false := by
    rcases hopen with h | h <;> simp [hperformed, hfence, h]
  unfold replyGm
  rw [hfind]
  refine (if_neg (by rw [hgo]; decide)).trans ?_
  simp only [hacq, hposted, Bool.false_and, Bool.false_eq_true, if_false, if_true]
  rfl

theorem replyGm_done (hst : r.st = 0) (hopen : replyOpen s r = true) : replyGm r.serial s = dropAccess r.serial (replyOver r s) := by
  rw [replyGm_posted hfind hposted hperformed (.inr hopen)]
  simp [hst]

/-- A refused access counts at FSTAT. -/
theorem replyGm_refused (hst : r.st ≠ 0) (hlost : r.st ≠ 6) (hopen : replyOpen s r = true) : replyGm r.serial s =
    onCur (fun t => failStore t (r.scope (replyOver r s)) false (BitVec.ofNat 64 (gmVa r.word))) (dropAccess r.serial (replyOver r s)) := by
  rw [replyGm_posted hfind hposted hperformed (.inr hopen)]
  simp only [hst, hlost, if_false, scope_dropAccess, beq_eq_false_iff_ne.mpr hlost]

/-- A lost access counts as dropped, without a reply (R323). -/
theorem replyGm_lost (hst : r.st = 6) : replyGm r.serial s =
    onCur (fun t => failStore t (r.scope s) true (BitVec.ofNat 64 (gmVa r.word))) (dropAccess r.serial s) := by
  rw [replyGm_posted hfind hposted hperformed (.inl hst)]
  simp [hst, scope_dropAccess]

end Reply

/-! ## Strokes and waits (R23, R113, R364) -/

/-- The counters of a stroke's waits stand high enough. -/
theorem strokeReady_eq_true {t : Tile} {k : Stroke} : strokeReady t k = true ↔ ∀ w ∈ k.waits,
    (k.waits.filter fun v => v == w).length ≤ if w.1 then (semOf t w.2).val else (sluiceOf t w.2).p := by
  simp only [strokeReady, List.all_eq_true, decide_eq_true_eq]

/-- A stroke that may start takes its counters and goes to its first bundle (R23). -/
theorem startStroke_starts {s : State} {k : Stroke} {ks : List Stroke} (hk : s.cur.code.strokes = k :: ks) (hwheel : s.cur.wheel % 20 = 0)
    (hcut : cutHolds s.cur = false) (hspan : spanFails s = false) (hready : strokeReady (completeAll s.cur) k = true) : startStroke s =
    onCur (fun t =>
      { setPc (256 + k.first) t with run := .go, code := { t.code with strokes := ks, running := true },
                                     perf := { t.perf with quietGap := 0 } })
      (k.waits.foldl (fun s w => consume w.1 w.2 s) (onCur completeAll s)) := by
  have hhold : ((onCur completeAll s).cur.wheel % 20 ≠ 0 || !strokeReady (onCur completeAll s).cur k || cutHolds (onCur completeAll s).cur ||
      spanFails (onCur completeAll s)) = false := by
    have h1 : (onCur completeAll s).cur.wheel = s.cur.wheel := rfl
    have h2 : cutHolds (onCur completeAll s).cur = cutHolds s.cur := rfl
    have h3 : spanFails (onCur completeAll s) = spanFails s := rfl
    rw [h1, h2, h3, hcut, hspan, onCur_cur, hready]
    simp [hwheel]
  unfold startStroke
  rw [hk]
  exact if_neg (by rw [hhold]; decide)

theorem raiseTsc_cur (s : State) (v : Word) : (raiseTsc s v).cur = s.cur := by
  unfold raiseTsc
  dsimp only
  split <;> rfl

theorem consume_pc (sem : Bool) (i : Nat) (s : State) : (consume sem i s).cur.pc = s.cur.pc := by
  cases sem <;> simp [consume, learn, raiseTsc_cur, putSem, putSluice]

theorem tryInterrupt_quiet {s : State} (h : interruptReady s.cur = false) : tryInterrupt s = s := if_pos (by rw [h]; rfl)

/-- The drain of a strokeend is over: its ports are discarded, and without cycles left the stroke ends (R113). -/
theorem endCycleOf_drained {s : State} (n : Nat) (hlate : s.cur.ctl.late = []) (hdone : socketsDone s.cur = true)
    (hquiet : interruptReady s.cur = false) : endCycleOf false n s = onCur (fun t => if n = 0 then
      { t with socks := [], run := if t.code.strokes = [] then .idle else .between, code := { t.code with running := false } }
      else { t with socks := [], run := .ending true n }) s := by
  unfold endCycleOf
  rw [if_neg (by simp [hlate]), if_neg (by simp [hdone])]
  simp only [Bool.false_eq_true, if_false]
  rw [tryInterrupt_quiet (by exact hquiet)]
  change onCur (fun t => if n ≤ 0 then endStroke t else { t with run := .ending true n })
    (onCur (fun t => { discardPorts t with run := .ending true n }) s) = _
  by_cases hn : n = 0
  · subst hn
    rfl
  · simp only [Nat.le_zero, if_neg hn]
    rfl

/-! ## Interrupts, halts and watchdogs (R117, R121, R122, R313, R328) -/

/-- The banks swapped are registers. -/
theorem swapBank_regs (t : Tile) : ∃ r, swapBank t = { t with regs := r } := by
  unfold swapBank
  generalize List.range 8 = is
  induction is generalizing t with
  | nil => exact ⟨t.regs, rfl⟩
  | cons i is ih =>
    obtain ⟨r, h⟩ := ih (putX { t with regs := { t.regs with bank := tset 0 t.regs.bank i (getX t (56 + i)) } } (56 + i) (tget 0 t.regs.bank i))
    refine ⟨r, h.trans ?_⟩
    unfold putX
    split <;> rfl

theorem swapBank_csr (t : Tile) : (swapBank t).csr = t.csr := by
  obtain ⟨r, h⟩ := swapBank_regs t
  rw [h]

theorem swapBank_ctl (t : Tile) : (swapBank t).ctl = t.ctl := by
  obtain ⟨r, h⟩ := swapBank_regs t
  rw [h]

/-- The mask of one bit. -/
theorem getLsbD_one_shift (i k : Nat) : ((1 <<< i : Nat) : Word).getLsbD k = (decide (k < 64) && decide (i = k)) := by
  rw [BitVec.natCast_eq_ofNat, BitVec.getLsbD_ofNat, Nat.one_shiftLeft, Nat.testBit_two_pow]

/-- A bit of STATUS reads as it was set, the others as before. -/
theorem bit_putStatus (t : Tile) {i : Nat} (hi : i < 64) (b : Bool) (k : Nat) :
    bit (putStatus t i b).csr.status k = if k = i then b else bit t.csr.status k := by
  have hout : t.csr.status.getLsbD k = true → k < 64 := BitVec.lt_of_getLsbD
  cases b with
  | false =>
    simp only [putStatus, bit_eq_getLsbD, Bool.false_eq_true, if_false, BitVec.getLsbD_and, BitVec.getLsbD_not, getLsbD_one_shift]
    grind
  | true =>
    simp only [putStatus, bit_eq_getLsbD, if_true, BitVec.getLsbD_or, getLsbD_one_shift]
    grind

theorem tryInterrupt_enters {s : State} {back : Nat} {w : Bool} (hready : interruptReady s.cur = true)
    (hpoint : interruptPoint s.cur = some (back, w)) :
    tryInterrupt s = enterHandler back w (onCur (fun t => { t with ctl := { t.ctl with quietPoint := 0 } }) s) := by
  simp [tryInterrupt, hready, hpoint]

theorem hangFault_fires {s : State} (h : watchdogFires s.cur = true) : hangFault s =
    takeException (mkFault 25 0 0 0 0) s.cur.pc.toNat false false (withTile s { s.cur with perf := { s.cur.perf with hang := 0 } }) :=
  if_pos h

theorem watchdogRests_eq_false {t : Tile} (hhalt : ∀ n, t.run ≠ .halted n) (howner : t.run ≠ .owner) (hstop : t.run ≠ .stopped) :
    watchdogRests t = false := by
  unfold watchdogRests
  split
  · next n h => exact absurd h (hhalt n)
  · next h => exact absurd h howner
  · next h => exact absurd h hstop
  · rfl

theorem watchdogFires_eq_true {t : Tile} (hperiod : t.code.period ≤ t.perf.hang) (hrests : watchdogRests t = false) : watchdogFires t = true := by
  simp [watchdogFires, hperiod, hrests]

/-- What the bound of the quiet interval raises, once (R328). -/
theorem qibCheck_over {t : Tile} (hon : bit t.csr.qib 32 = true) (hover : fld t.csr.qib 0 32 < t.perf.quietGap)
    (honce : ∀ f ∈ t.ctl.late, f.cause ≠ 11) : qibCheck t = addLate t (mkFault 11 0 0 0 t.perf.quietGap) :=
  if_pos (by simpa [hon, hover] using honce)

/-- A handler is entered at UIVEC with the oldest event as its cause (R122). -/
theorem enterHandler_enters {s : State} {back : Nat} {w : Bool} {e : BitVec 24} {es : List (BitVec 24)} (he : s.cur.ctl.events = e :: es)
    (hlegal : targetLegal s.cur false (fld s.cur.csr.uivec 0 13) = true) : ∃ t', enterHandler back w s = withTile s t' ∧
      t'.pc = BitVec.ofNat 13 (fld s.cur.csr.uivec 0 13) ∧ t'.run = .go ∧ bit t'.csr.status 5 = true ∧ t'.ctl.events = es ∧
      t'.csr.uicause = (e.setWidth 64 ||| if s.cur.ctl.dropped then 1 <<< 63 else 0) ∧
      t'.csr.uiepc = BitVec.ofNat 64 (back % 8192 + if w then 65536 else 0) := by
  unfold enterHandler
  simp only [hlegal, Bool.not_true, Bool.false_eq_true, if_false, onCur_eq_withTile, he]
  refine ⟨_, rfl, rfl, rfl, ?_⟩
  dsimp only [setPc]
  rw [swapBank_csr, swapBank_ctl]
  exact ⟨bit_putStatus _ (by decide) true 5, rfl, rfl, rfl⟩

/-- An interrupt that is ready at a point where it may be taken enters its handler. -/
theorem tryInterrupt_handler {s : State} {back : Nat} {w : Bool} {e : BitVec 24} {es : List (BitVec 24)} (hready : interruptReady s.cur = true)
    (hpoint : interruptPoint s.cur = some (back, w)) (he : s.cur.ctl.events = e :: es)
    (hlegal : targetLegal s.cur false (fld s.cur.csr.uivec 0 13) = true) : ∃ t', tryInterrupt s = withTile s t' ∧
      t'.pc = BitVec.ofNat 13 (fld s.cur.csr.uivec 0 13) ∧ t'.run = .go ∧ bit t'.csr.status 5 = true ∧ t'.ctl.events = es ∧
      t'.csr.uicause = (e.setWidth 64 ||| if s.cur.ctl.dropped then 1 <<< 63 else 0) ∧
      t'.csr.uiepc = BitVec.ofNat 64 (back % 8192 + if w then 65536 else 0) := by
  rw [tryInterrupt_enters hready hpoint]
  exact enterHandler_enters (s := onCur (fun t => { t with ctl := { t.ctl with quietPoint := 0 } }) s) he hlegal

/-- A tile resumes with its halted bit clear (R117). -/
theorem haltResume_frame (t : Tile) (n : Nat) : ∃ t', { putStatus t 6 false with run := stallRun n } = t' ∧
    t'.run = (if n = 0 then .go else .stall n) ∧ bit t'.csr.status 6 = false ∧
    (∀ k, k ≠ 6 → bit t'.csr.status k = bit t.csr.status k) ∧ { t' with run := t.run, csr := { t'.csr with status := t.csr.status } } = t :=
  ⟨_, rfl, rfl, bit_putStatus t (by decide) false 6, fun k h => (bit_putStatus t (by decide) false k).trans (if_neg h), rfl⟩

/-- Settles O50: each event by the lemma about its function. -/
theorem sequencerEvents : Obligations.SequencerEvents := by
  intro j s u t
  refine ⟨fun b hb hsplit => ?retry, fun k g hrun hsplit => ?part, fun m hm => ?mode, ?fmt, fun k y p o hy hp hrem hnarrow => ?free,
    fun k hk => ?locked, fun f fs hlate => ?late, fun e he hposted hperformed => ?store, fun k ks hrun hks hwheel hcut hspan hready => ?stroke,
    fun sem i n hrun hsat => ?wait, fun n hrun hlate hdone hquiet => ?drain, fun back w e es hready hpoint he hlegal => ?handler,
    fun n hrun => ?halt, fun hperiod hhalt howner hstop => ?hang, fun hon hover honce => ?qib⟩
  case retry =>
    have hissue := congrArg Prod.fst (retryBundle_issuing hb hsplit)
    refine ⟨fun hrun => event_onTile ?_, fun hrun => event_onTile ?_, fun hmode hrun => event_onTile ?_⟩
    · exact (if_pos hrun).trans hissue
    · exact (if_pos hrun).trans hissue
    · exact (if_neg (by rw [show (focus j s).cur.ctl.mode = none from hmode]; decide)).trans ((if_pos hrun).trans hissue)
  case part => exact event_onTile ((if_pos hrun).trans (retryBundle_part hsplit))
  case mode =>
    refine ⟨applyMode t m, event_onTile ((if_pos ?_).trans (congrArg (withTile u) (endMoves_mode hm))), rfl, rfl, rfl⟩
    rw [show (focus j s).cur.ctl.mode = some m from hm]
    rfl
  case fmt => exact ⟨_, rfl, rfl, rfl, rfl⟩
  case free =>
    obtain ⟨t', hdue, hrest⟩ := freeDue_single hy hp hrem hnarrow
    exact ⟨t', event_onTile (congrArg (withTile u) hdue), hrest⟩
  case locked =>
    obtain ⟨n, hframe⟩ := lockedDue_frame k.toNat t
    refine ⟨lockedDue k.toNat t, event_onTile (answerOldest_other _ hk), fun y => lockedDue_fifo k.toNat y t, ?_⟩
    rw [hframe]
    rfl
  case late =>
    have htake := fun pc inBundle => takeLate_first (s := u) pc inBundle hlate
    refine ⟨fun hrun => event_onTile ?_, fun hrun => event_onTile ?_⟩
    · rcases hrun with h | h | h <;> (rw [show (focus j s).cur.run = _ from h]; exact htake _ _)
    · rcases hrun with h | h | ⟨m, i, n, h⟩ | ⟨d, n, h⟩ <;> (rw [show (focus j s).cur.run = _ from h]; exact htake _ _)
  case store =>
    have hany : (u.cur.gm.any fun g => g.serial == e.serial && g.posted) = true :=
      List.any_eq_true.mpr ⟨e, List.mem_of_find?_eq_some he, by simp [hposted]⟩
    refine ⟨fun hst hopen => event_onTile ?_, fun hst hlost hopen => event_onTile ?_, fun hst => event_onTile ?_⟩
    · exact (if_pos hany).trans (replyGm_done he hposted hperformed hst hopen)
    · exact (if_pos hany).trans (replyGm_refused he hposted hperformed hst hlost hopen)
    · exact (if_pos hany).trans (replyGm_lost he hposted hperformed hst)
  case stroke =>
    refine ⟨_, event_onTile ((if_pos hrun).trans (startStroke_starts hks hwheel hcut hspan (strokeReady_eq_true.mpr hready))), rfl, rfl, rfl, rfl, rfl⟩
  case wait =>
    refine event_onTile ?_
    simp only [show (focus j s).cur.run = .waiting sem i n from hrun]
    refine (if_pos hsat).trans ?_
    rw [onCur_eq_withTile, consume_pc]
    rfl
  case drain =>
    refine event_onTile ?_
    simp only [show (focus j s).cur.run = .ending false n from hrun]
    exact (if_pos hlate).trans (endCycleOf_drained n hlate hdone hquiet)
  case handler =>
    obtain ⟨t', hstate, hrest⟩ := tryInterrupt_handler (s := u) hready hpoint he hlegal
    exact ⟨t', event_onTile hstate, hrest⟩
  case halt =>
    obtain ⟨t', ht', hrest⟩ := haltResume_frame t n
    refine ⟨t', event_onTile ?_, hrest⟩
    rw [← ht', onCur_eq_withTile, show (focus j s).cur.run = .halted n from hrun]
  case hang =>
    exact event_onTile (hangFault_fires (watchdogFires_eq_true hperiod (watchdogRests_eq_false hhalt howner hstop)))
  case qib => exact event_onTile (congrArg (withTile u) (qibCheck_over hon hover honce))

end Sys2Proof.Machine
end

section
/-!
PROOF. The memories and the arrays of a tile (R178, R186, R195, R206, R218, R219, R231, R355): elements of streams, zeroed allocations, mx and qnt.
-/
namespace Sys2Proof.Machine
open Sys2Proof.Machine.Claims

/-! ## Streams (R231) -/

section Stream
variable {t : Tile} {f : Nat} {st : Stream} (hfresh : st.fresh = false)
include hfresh

/-- A read stream's unit fetches while its buffer has room. -/
theorem streamWants_read (hread : st.write = false) (hroom : st.buf.length + st.coming.length < 8) (hleft : st.unit < walkLen st)
    (hfence : (t.gm.all fun e => !e.fences 0) = true) : (streamWants t f st).isSome = true := by
  have h : st.buf.length + st.coming.length < 8 ∧ st.unit < walkLen st ∧ (t.gm.all fun e => !e.fences 0) = true := ⟨hroom, hleft, hfence⟩
  unfold streamWants
  rw [if_neg (by simp [hfresh]), if_neg (by simp [hread]), if_pos h]
  rfl

/-- A write stream's unit stores what is in its buffer. -/
theorem streamWants_write {x : Vec × Nat} {rest : List (Vec × Nat)} (hwrite : st.write = true) (hbuf : st.buf = x :: rest)
    (hgoes : st.stopped = false) (hfence : fenceLimit t f = none) : (streamWants t f st).isSome = true := by
  simp [streamWants, hfresh, hwrite, hbuf, hgoes, hfence]

end Stream

theorem streamNow_wants {s : State} {f : Nat} {st : Stream} (hst : tfind s.cur.streams f = some st)
    (hwants : (streamWants s.cur f st).isSome = true) : streamNow st.write f s = if st.write then performStore f s else performFetch f s := by
  simp [streamNow, performStream, hst, hwants]

/-- An element that its handle and its storage give comes after its latency, and not before the elements ahead of it. -/
theorem performFetch_element {s s' : State} {f : Nat} {st : Stream} {e : Entry} (hst : tfind s.cur.streams f = some st)
    (he : tfind s.cur.table st.h = some e) (hok : elemOk s.cur st st.unit = true) (hevent : handleEvent s e .read = some s')
    (hclean : (spaceRead s' e.space (e.off + (elemOff st st.unit).toNat) (Machine.sizeOf st.esz)).2 = false) :
    performFetch f s = onCur (fun t => { t with streams := tput t.streams f (fetched st (max 1 (loadLatency (handleLevel st.h)))
      (bytesVec (spaceRead s' e.space (e.off + (elemOff st st.unit).toNat) (Machine.sizeOf st.esz)).1) 0) }) s' := by
  simp only [performFetch, hst, he, hok, hevent, hclean, Bool.not_true, Bool.false_eq_true, if_false]

theorem reachEntry_inside {t : Tile} {h off n : Nat} {e : Entry} (he : tfind t.table h = some e) (hin : off + n ≤ e.size) :
    reachEntry t h off n = some e := by
  simp [reachEntry, he, hin]

/-- An element within its handle is stored. -/
theorem performStore_element {s s' : State} {f : Nat} {st : Stream} {e : Entry} {v : Vec} {p : Nat} {rest : List (Vec × Nat)}
    (hst : tfind s.cur.streams f = some st) (hbuf : st.buf = (v, p) :: rest) (he : tfind s.cur.table st.h = some e)
    (hin : (elemOff st st.unit).toNat + Machine.sizeOf st.esz ≤ e.size) (hevent : handleEvent s e .write = some s') :
    performStore f s = storeOut (onCur (fun t => { t with streams := tput t.streams f { st with buf := rest, unit := st.unit + 1, rows := 0 } }) s')
      e (elemOff st st.unit).toNat (leBytes (Machine.sizeOf st.esz) v.toNat) (handleWord st.h st.esz (elemOff st st.unit).toNat) s'.cur.serial := by
  simp only [performStore, hst, hbuf, reachEntry_inside he hin, hevent]
  rfl

/-! ## Zeroed allocations (R355) -/

@[simp] theorem putSpace_zero (s : State) (sp : Nat) (m : Memory) (ps : List Nat) : (putSpace s sp m ps).cur.zero = s.cur.zero := by
  unfold putSpace
  split <;> rfl

/-- Zeroing a storage leaves the allocations under way. -/
theorem zeroRows_zero (z : Zeroing) (rows : List Nat) (s : State) : (zeroRows z rows s).cur.zero = s.cur.zero := by
  unfold zeroRows
  dsimp only
  split
  · rfl
  · exact List.foldlRecOn (motive := fun v => v.cur.zero = s.cur.zero) rows _ rfl fun v hv r _ => (putSpace_zero v _ _ _).trans hv

/-- Every zeroing of a tile has its rows written. -/
def zeroAll (s : State) : State :=
  s.cur.zero.foldl (fun s z =>
    onCur (fun t => { t with zero := t.zero.map fun y => if y.serial = z.serial then { y with left := [] } else y }) (zeroRows z z.left s)) s

theorem zeroAll_single {s : State} {z : Zeroing} (h : s.cur.zero = [z]) :
    zeroAll s = onCur (fun t => { t with zero := [{ z with left := [] }] }) (zeroRows z z.left s) := by
  have hrows : (zeroRows z z.left s).cur.zero = [z] := (zeroRows_zero z z.left s).trans h
  unfold zeroAll
  rw [h, List.foldl_cons, List.foldl_nil]
  simp [onCur, hrows]

/-- The only zeroing of a tile, with all its rows written, answers its handle. -/
theorem zeroDone_single {s : State} {z : Zeroing} (h : s.cur.zero = [z]) (hdone : z.left = []) :
    zeroDone s = onCur (fun t => answer { t with zero := [] } 17 z.serial 2 (toVec z.h)) s := by
  simp only [zeroDone, h, onCur_eq_withTile]
  simp [hdone]

/-! ## The matrix socket and the quantiser (R178, R186, R195, R206) -/

/-- An array operation starts once the loads of its plane that are older have completed. -/
theorem arrayStart_starts {m : Mx} {o : MxOp} (hfree : m.array = none) (ho : m.queue.find? MxOp.isArray = some o) (hage : o.age ≠ 0)
    (hloads : ∀ l ∈ pendingLoads m, l.seq < o.seq → l.plane ≠ o.plane) :
    arrayStart m = { m with array := some o, rows := 0, phase := 0, queue := m.queue.filter fun x => decide (x.seq ≠ o.seq) } := by
  have hany : ((pendingLoads m).any fun l => decide (l.seq < o.seq) && l.plane == o.plane) = false := by
    simpa [List.any_eq_false] using hloads
  simp only [arrayStart, hfree, ho, hany]
  exact if_neg (by simpa using hage)

theorem completeMx_array {t : Tile} {e : MxEnd} {m : Mx} (h : e.op.isLoad = false) (hm : completeArray t.mx e.op e.plane = .ok m) :
    completeMx t e = { t with mx := m } := by
  simp [completeMx, h, hm]

theorem completeMx_load {t : Tile} {e : MxEnd} {p : Plane} (h : e.op.isLoad = true) (hp : loadedPlane e.op = .ok p) :
    completeMx t e = { t with mx := putPlane t.mx e.op.plane p } := by
  simp [completeMx, h, hp]

theorem mxEnd_found {t : Tile} {load : Bool} {e : MxEnd} (h : t.mx.ending.find? (fun e => e.op.isLoad == load) = some e) :
    e.op.isLoad = load ∧ mxEnd load t = completeMx { t with mx := { t.mx with ending := t.mx.ending.erase e } } e :=
  ⟨by simpa using List.find?_some h, by simp only [mxEnd, h]⟩

/-- A wswap at the head turns the planes once no older operation is under way. -/
theorem swapWork_swaps {m : Mx} {o : MxOp} {rest : List MxOp} (hq : m.queue = o :: rest) (hcode : o.code = 9)
    (holder : ∀ x ∈ m.array.toList ++ pendingLoads m, o.seq ≤ x.seq) : swapWork m = { m with front := !m.front, queue := rest } := by
  have hany : ((m.array.toList ++ pendingLoads m).any fun x => decide (x.seq < o.seq)) = false := by
    simpa only [List.any_eq_false, decide_eq_true_eq, Nat.not_lt] using holder
  simp only [swapWork, hq, hany, hcode]
  rfl

/-- A unit of the quantiser enters its stream. -/
theorem writeUnit_enters {t : Tile} {f : Nat} {v : Vec} {rest : List (Nat × Vec)} {st : Stream} (hunits : t.qnt.units = (f, v) :: rest)
    (hst : tfind t.streams f = some st) (hwrite : st.write = true) (hesz : st.esz = 6) (hleft : st.moved < walkLen st)
    (hok : elemOk t st st.moved = true) (hgoes : st.stopped = false) (hroom : st.buf.length < 8) : writeUnit t =
      { t with qnt := { t.qnt with units := rest }, streams := tput t.streams f { st with buf := st.buf ++ [(v, 0)], moved := st.moved + 1 } } := by
  simp [writeUnit, hunits, hst, hwrite, hesz, Nat.not_le.mpr hleft, hok, hgoes, Nat.not_le.mpr hroom]

/-- Settles O51: each event by the lemma about its function. -/
theorem memoryEvents : Obligations.MemoryEvents := by
  intro j s u t
  refine ⟨event_onTile rfl, fun f st e s' hst he hfresh hok => ⟨fun hread hroom hleft hfence hevent hclean => ?fetch,
      fun v p rest hwrite hbuf hgoes hfence hin hevent => ?store⟩, fun z hz => ?zeroing, fun b hb hsplit hrun => ?issue,
    fun o hfree ho hage hloads => ?start, fun e m he hm => ?array, fun e p he hp => ?load, fun o rest hq hcode holder => ?swap,
    fun f v rest st hunits hst hwrite hesz hleft hok hgoes hroom => ?unit⟩
  case fetch =>
    have hnow := streamNow_wants (s := u) hst (streamWants_read hfresh hread hroom hleft hfence)
    rw [hread] at hnow
    exact event_onTile (hnow.trans (performFetch_element hst he hok hevent hclean))
  case store =>
    have hnow := streamNow_wants (s := u) hst (streamWants_write hfresh hwrite hbuf hgoes hfence)
    rw [hwrite] at hnow
    exact event_onTile (hnow.trans (performStore_element hst hbuf he hin hevent))
  case zeroing =>
    exact event_onTile ((congrArg zeroDone (zeroAll_single (s := u) hz)).trans (zeroDone_single (z := { z with left := [] }) rfl rfl))
  case issue =>
    have hissue := congrArg Prod.fst (retryBundle_issuing hb hsplit)
    have hretry : retry u = (retryBundle u).1 := by
      rcases hrun with h | h <;> (unfold retry; rw [show u.cur.run = _ from h])
    exact ⟨event_onTile (hretry.trans hissue), event_onTile (hretry.trans hissue)⟩
  case start => exact event_onTile (congrArg (fun m => withTile u { t with mx := m }) (arrayStart_starts hfree ho hage hloads))
  case array =>
    obtain ⟨hload, hend⟩ := mxEnd_found he
    exact event_onTile (congrArg (withTile u) (hend.trans (completeMx_array hload hm)))
  case load =>
    obtain ⟨hload, hend⟩ := mxEnd_found he
    exact event_onTile (congrArg (withTile u) (hend.trans (completeMx_load hload hp)))
  case swap => exact event_onTile (congrArg (fun m => withTile u { t with mx := m }) (swapWork_swaps hq hcode holder))
  case unit => exact event_onTile (congrArg (withTile u) (writeUnit_enters hunits hst hwrite hesz hleft hok hgoes hroom))

end Sys2Proof.Machine
end

section
/-!
PROOF. The scheduler (R88, R126, R222, R275-R286, R300, R301, R336): kicks, ready nodes and their hand-offs, loading, placement, launches.
-/
namespace Sys2Proof.Machine
open Sys2Proof.Machine.Claims

/-! ## Kicks (R275, R276) -/

section Register
variable {s : State} {c : Nat} {x : Ctx} (word : Word) (hx : ctxOf s c = some x)
include hx

theorem storeKick_waits (h : x.kicks.length < 64) :
    storeKick c word s = pushOrder c true (putCtx { x with kicks := x.kicks ++ [word] } s) := by
  simp [storeKick, hx, h]

/-- The 65th waiting kick is dropped with a record. -/
theorem storeKick_full (h : 64 ≤ x.kicks.length) : storeKick c word s = eventRecord c (kickRecord 9 0 word s) s := by
  simp [storeKick, hx, Nat.not_lt.mpr h]

end Register

@[simp] theorem cleanNodes_active (s : State) : (cleanNodes s).dev.hw.active = s.dev.hw.active := rfl

/-- A kick that leaves its register. -/
def takeKick (c : Nat) (x : Ctx) (rest : List Word) (s : State) : State := popOrder c (putCtx { x with kicks := rest } s)

/-- A kick refused with its cause (R276). -/
def refuseKick (c : Nat) (x : Ctx) (word : Word) (rest : List Word) (cause : Nat) (s : State) : State :=
  eventRecord c (kickRecord 8 cause word s) (takeKick c x rest s)

/-- The numbers of the replays of a graph that run. -/
def heldReplays (s : State) (c : Nat) (g : Graph) : List Nat := (s.dev.hw.replays.filter fun r => r.ctx == c && r.graph == g.num).map Replay.num

/-- The nodes of a replay of a graph with its slots. -/
def replayNodes (c : Nat) (g : Graph) (num : Nat) (slots : List Word) : List Node :=
  g.nodes.zipIdx.map fun q =>
    newNode { ctx := c, graph := g.num, replay := num, node := q.2, serial := 0 } q.1 q.1.prio (paramsOf q.1 slots) none

/-- The replay of an accepted kick, before its roots are ready. -/
def startReplay (c : Nat) (x : Ctx) (rest : List Word) (g : Graph) (num : Nat) (slots : List Word) (s : State) : State :=
  onHw (fun h => { h with nodes := h.nodes ++ replayNodes c g num slots,
                          replays := h.replays ++ [{ ctx := c, graph := g.num, num := num, slots := slots }] })
    (takeKick c x rest (retag c g.num num s))

/-- A replay's roots are ready once its record is written. -/
def readyRoots (c : Nat) (word : Word) (g : Graph) (num : Nat) (ns : List Node) (s : State) : State :=
  (ns.filter fun n => (edgesInto g n.ref.node).isEmpty).foldl
    (fun s n => match nodeOf s n.ref with | some m => makeReady m false s | none => s)
    (doneRecord c (completionRecord 1 0 (g.num * 2 ^ 48 + num * 2 ^ 40) word.toNat 0 (cisternTsc s 0).toNat 0) s)

section Accept
variable {s : State} {a c : Nat} {x : Ctx} {word : Word} {rest : List Word} (hactive : s.dev.hw.active = some a)
  (hx : ctxOf (cleanNodes s) c = some x) (hkicks : x.kicks = word :: rest) (hnext : nextIs (cleanNodes s) c false = false)
include hactive hx hkicks hnext

/-- The kick at the head of its context's work, by its graph, its patches and the number of its replay. -/
theorem acceptKick_head : acceptKick c s =
    match x.graphs.find? fun g => g.num == fld word 48 16 with
    | none => refuseKick c x word rest 1 (cleanNodes s)
    | some g =>
      match readPatches (cleanNodes s) c (fld word 0 48) g.slots.length with
      | none => cleanNodes s
      | some (.error cause) => refuseKick c x word rest cause (cleanNodes s)
      | some (.ok patches) =>
        match (List.range 16).find? fun i => decide (i ∉ heldReplays (cleanNodes s) c g) with
        | none => cleanNodes s
        | some num =>
          let slots := patches.foldl (fun l e => setAt l e.1 e.2) g.slots
          readyRoots c word g num (replayNodes c g num slots) (startReplay c x rest g num slots (cleanNodes s)) := by
  dsimp only [acceptKick]
  rw [cleanNodes_active, hactive, hx]
  dsimp only
  rw [hkicks]
  exact if_neg (by rw [hnext]; decide)

theorem acceptKick_unknown (hg : x.graphs.find? (fun g => g.num == fld word 48 16) = none) :
    acceptKick c s = refuseKick c x word rest 1 (cleanNodes s) := by
  rw [acceptKick_head hactive hx hkicks hnext, hg]

variable {g : Graph} (hg : x.graphs.find? (fun g => g.num == fld word 48 16) = some g)
include hg

theorem acceptKick_refused {cause : Nat} (hp : readPatches (cleanNodes s) c (fld word 0 48) g.slots.length = some (.error cause)) :
    acceptKick c s = refuseKick c x word rest cause (cleanNodes s) := by
  rw [acceptKick_head hactive hx hkicks hnext, hg]
  dsimp only
  rw [hp]

/-- An accepted kick is a replay, whose roots are ready. -/
theorem acceptKick_accepted {patches : List (Nat × Word)} {num : Nat}
    (hp : readPatches (cleanNodes s) c (fld word 0 48) g.slots.length = some (.ok patches))
    (hnum : (List.range 16).find? (fun i => decide (i ∉ heldReplays (cleanNodes s) c g)) = some num) : acceptKick c s =
    let slots := patches.foldl (fun l e => setAt l e.1 e.2) g.slots
    readyRoots c word g num (replayNodes c g num slots) (startReplay c x rest g num slots (cleanNodes s)) := by
  rw [acceptKick_head hactive hx hkicks hnext, hg]
  dsimp only
  rw [hp]
  dsimp only
  rw [hnum]

end Accept

/-! ## Ready nodes and their hand-offs (R222, R280) -/

theorem makeReady_frame (n : Node) (resume : Bool) (s : State) : ∃ m,
    makeReady n resume s = putNode m (onHw (fun h => { h with order := h.order + 1 }) s) ∧ m.state = .ready ∧ m.seq = s.dev.hw.order ∧
      m.rounds = 0 ∧ m.resume = resume ∧ m.ref = n.ref ∧ m.decl = n.decl ∧ m.images = n.images :=
  ⟨_, rfl, rfl, rfl, rfl, rfl, rfl, rfl, rfl⟩

/-- Where a hand-off stands: at its region's start before its first step. -/
def handOffAt (n : Node) (e : EdgeDecl) (k : Nat) : Moving :=
  n.moving.getD { edge := k, va := e.rva.toNat, page := 0, used := [], dest := none, copied := false }

/-- A hand-off that goes to the next page. -/
def nextPage (size : Nat) (m : Moving) : Moving :=
  { m with va := (m.va / size + 1) * size, page := m.page + 1, dest := none, copied := false }

/-- A leaf written, and the translations of its page dropped (R220). -/
def putLeaf (c : Ctx) (va size ea v : Nat) (s : State) : State := dropTranslations c.num va size (memStore s ea (leBytes 8 v))

section HandOff
variable {s : State} {n : Node} {e : EdgeDecl} {k : Nat} {es : List (EdgeDecl × Nat)} {c : Ctx}
  (hwait : n.state = .waiting) (hedges : handOffs s n = (e, k) :: es) (hc : ctxOf s n.ref.ctx = some c)
include hwait hedges hc

/-- A hand-off whose region is done ends. -/
theorem handOff_ends (hn : nodeOf s n.ref = some n) (h : e.rva.toNat + e.rlen.toNat ≤ (handOffAt n e k).va) :
    handOff n.ref s = endHandOff n k true s := by
  have hstep : handOffStep n s = some (endHandOff n k true s) := by
    unfold handOffStep
    rw [hedges, hc, decide_eq_true hwait]
    exact if_pos h
  simp [handOff, hn, hstep]

section Page
variable {ea sh leaf : Nat} (hleft : (handOffAt n e k).va < e.rva.toNat + e.rlen.toNat)
  (hleaf : findLeaf s (handOffAt n e k).va 4 0 c.root.toNat = some (ea, sh, leaf))
include hleft hleaf

/-- The step of a hand-off at a page with a leaf. -/
theorem handOffStep_page : handOffStep n s =
    match (handOffAt n e k).dest with
    | none =>
      if bitsOf leaf 6 1 = 1 then none
      else
        match readPool s c.num e.pool.toNat with
        | none => none
        | some pool =>
          match pagePlace s n.cls pool (handOffAt n e k) (2 ^ sh) (leaf / 256 * 256) with
          | none => some (endHandOff n k false s)
          | some (new, used) => some (putNode { n with moving := some { handOffAt n e k with dest := some new, used := used } }
              (putLeaf c (handOffAt n e k).va (2 ^ sh) ea (leaf + 64) s))
    | some new =>
      if !(handOffAt n e k).copied then
        some (putNode { n with moving := some { handOffAt n e k with copied := true } } (movePage (leaf / 256 * 256) new (2 ^ sh) s))
      else some (putNode { n with moving := some (nextPage (2 ^ sh) (handOffAt n e k)) }
        (putLeaf c (handOffAt n e k).va (2 ^ sh) ea (new + leaf % 64 + leaf / 128 % 2 * 128) s)) := by
  unfold handOffStep
  rw [hedges, hc, decide_eq_true hwait]
  refine (if_neg (Nat.not_le.mpr hleft)).trans ?_
  unfold handOffAt at hleaf
  dsimp only
  rw [hleaf]
  rfl

variable (hn : nodeOf s n.ref = some n)
include hn

/-- A page that migrates already is waited for (R219). -/
theorem handOff_waits (hdest : (handOffAt n e k).dest = none) (hmig : bitsOf leaf 6 1 = 1) : handOff n.ref s = s := by
  have hstep := handOffStep_page hwait hedges hc hleft hleaf
  rw [hdest] at hstep
  simp [handOff, hn, hstep.trans (if_pos hmig)]

/-- The leaf takes mig once the page has its place. -/
theorem handOff_marks (hdest : (handOffAt n e k).dest = none) (hmig : bitsOf leaf 6 1 = 0) {pool : List Nat} {new : Nat} {used : Tab Nat}
    (hpool : readPool s c.num e.pool.toNat = some pool)
    (hplace : pagePlace s n.cls pool (handOffAt n e k) (2 ^ sh) (leaf / 256 * 256) = some (new, used)) : handOff n.ref s =
    putNode { n with moving := some { handOffAt n e k with dest := some new, used := used } }
      (putLeaf c (handOffAt n e k).va (2 ^ sh) ea (leaf + 64) s) := by
  have hstep := handOffStep_page hwait hedges hc hleft hleaf
  rw [hdest, hpool] at hstep
  dsimp only at hstep
  rw [if_neg (by omega), hplace] at hstep
  simp [handOff, hn, hstep]

variable {new : Nat} (hdest : (handOffAt n e k).dest = some new)
include hdest

/-- The page is copied. -/
theorem handOff_copies (hcopied : (handOffAt n e k).copied = false) : handOff n.ref s =
    putNode { n with moving := some { handOffAt n e k with copied := true } } (movePage (leaf / 256 * 256) new (2 ^ sh) s) := by
  have hstep := handOffStep_page hwait hedges hc hleft hleaf
  rw [hdest] at hstep
  simp [handOff, hn, hstep.trans (if_pos (by rw [hcopied]; rfl))]

/-- The leaf takes the new address, and the hand-off goes to the next page. -/
theorem handOff_moves (hcopied : (handOffAt n e k).copied = true) : handOff n.ref s =
    putNode { n with moving := some (nextPage (2 ^ sh) (handOffAt n e k)) }
      (putLeaf c (handOffAt n e k).va (2 ^ sh) ea (new + leaf % 64 + leaf / 128 % 2 * 128) s) := by
  have hstep := handOffStep_page hwait hedges hc hleft hleaf
  rw [hdest] at hstep
  simp [handOff, hn, hstep.trans (if_neg (by rw [hcopied]; decide))]

end Page

end HandOff

/-! ## Loading (R88, R280, R336) -/

theorem resumeImage_start {s : State} {n : Node} (h : n.resume = false) : resumeImage s n = none := by simp [resumeImage, h]

theorem resume_of_resumeImage {s : State} {n : Node} {i : Image} (h : resumeImage s n = some i) : n.resume = true := by
  by_contra hr
  rw [resumeImage_start (Bool.eq_false_iff.mpr hr)] at h
  cases h

/-- A node without mains to bind again keeps its mains. -/
theorem rebindNode_none {s : State} {n : Node} (hn : nodeOf s n.ref = some n) (h : rebinds s n = []) : rebindNode n.ref s = s := by
  simp [rebindNode, hn, h]

theorem rebindWaits_none {s : State} {n : Node} (h : rebinds s n = []) : rebindWaits n s = false := by simp [rebindWaits, h]

/-- Every tile of every part loaded, with the routes of its circuits. -/
def loadTiles (n : Node) (f : Func) (restored : Bool) (s : State) : State :=
  let s := (placedTiles n).foldl (fun s q => onTile q.1 (loadTile n f restored q.2.1 q.2.2) s) s
  if linksLive s then s else routeParts n s

/-- The estimates of a node's tiles as it starts (R285). -/
def startEst (n : Node) (s : State) : Tab Nat :=
  (nodeTiles n).foldl (fun t i => tset 0 t (tileIndex i) ((cisternTsc s 0).toNat + n.decl.est)) []

/-- A node as it starts to run. -/
def runningNode (n : Node) (s : State) : Node :=
  { n with state := .running, resume := false, est := startEst n s, placed := s.dev.hw.order, sweep := none }

/-- A loaded node starts. -/
def startNode (n : Node) (s : State) : State := raiseParts n (putNode (runningNode n s) (onHw (fun h => { h with order := h.order + 1 }) s))

/-- The owner of a node is told where its last image was refused (R336). -/
def tellRefused (n : Node) (image : Option Image) (s : State) : State :=
  if n.resume && image.map Image.seq != (lastImage n).map Image.seq then deviceEvent n.ref.ctx 5 0 s else s

theorem tellRefused_start {n : Node} (image : Option Image) (s : State) (h : n.resume = false) : tellRefused n image s = s := by
  simp [tellRefused, h]

theorem tellRefused_resume {n : Node} (i : Image) (s : State) (h : n.resume = true) : tellRefused n (some i) s =
    if (lastImage n).map Image.seq = some i.seq then s else deviceEvent n.ref.ctx 5 0 s := by
  by_cases hseq : (lastImage n).map Image.seq = some i.seq
  · simp [tellRefused, hseq]
  · simp [tellRefused, h, hseq, Ne.symm hseq]

section Load
variable {s : State} {n : Node} {f : Func} (hn : nodeOf s n.ref = some n) (hloading : n.state = .loading) (hgang : gangHolds s n.ref = false)
  (hf : funcOf s n = some f)
include hn hloading hgang hf

/-- The steps of a node's load: its mains bound again, its tiles loaded, its image restored. -/
theorem loadNode_loading : loadNode n.ref s =
    let image := resumeImage s n
    let s := if image.isSome then rebindNode n.ref s else s
    if image.isSome && rebindWaits n s then s
    else
      let s := loadTiles n f image.isSome s
      startNode n (tellRefused n image (match image with | some i => restoreNode n i s | none => s)) := by
  unfold loadNode
  rw [hn]
  dsimp only
  rw [hgang, decide_eq_true hloading, hf]
  rfl

theorem loadNode_start (hresume : n.resume = false) : loadNode n.ref s = startNode n (loadTiles n f false s) := by
  rw [loadNode_loading hn hloading hgang hf, resumeImage_start hresume]
  exact congrArg (startNode n) (tellRefused_start none _ hresume)

/-- A node that resumes from another image than its last has its owner told (R336). -/
theorem loadNode_resume {i : Image} (himage : resumeImage s n = some i) (hrebinds : rebinds s n = []) : loadNode n.ref s =
    let s2 := restoreNode n i (loadTiles n f true s)
    startNode n (if (lastImage n).map Image.seq = some i.seq then s2 else deviceEvent n.ref.ctx 5 0 s2) := by
  rw [loadNode_loading hn hloading hgang hf, himage]
  simp only [Option.isSome_some, if_true, rebindNode_none hn hrebinds, rebindWaits_none hrebinds, Bool.and_false, Bool.false_eq_true, if_false]
  exact congrArg (startNode n) (tellRefused_resume i _ (resume_of_resumeImage himage))

end Load

/-! ## Placement (R281-R285) -/

section Placement
variable {s : State} {a d : Nat} {x : Die} (hactive : s.dev.hw.active = some a) (hdie : s.dev.dies[d]? = some x) (hservice : x.service = true)
include hactive hdie hservice

/-- A round first places the die's reserved node, then the first node that fits, and then chooses a victim for one passed over. -/
theorem placementRound_service : placementRound d s =
    let s1 := placeReserved d (reserveAged d (cleanReserved s))
    let r := scan s1 d (scanOrder s1 d) []
    roundDone d (firstVictim d r.2 (match r.1 with | some (n, q) => placeNode n q s1 | none => s1)) := by
  unfold placementRound
  exact if_neg (by simp [hactive, hdie, hservice])

end Placement

/-! ## Launches and estimates (R126, R300, R301) -/

section Launch
variable {s : State} {a : Nat} {n : Node} {o : LnkOp} (hactive : s.dev.hw.active = some a) (hnode : curNode s = some n)
include hactive hnode

section Accept
variable (ho : s.cur.lnk.find? (fun o => o.code == 8) = some o) (hls : lsDone s o.serial 3 = true) (hfree : launchBlocked s.cur o = false)
include ho hls hfree

theorem acceptLaunch_unknown (h : ∀ g, graphOf s n.ref = some g → g.tmpls[fld o.arg 0 16]? = none) : acceptLaunch s = answerLaunch o 1 s := by
  unfold acceptLaunch
  rw [hactive, ho, hnode]
  refine (if_neg (by simp [hls, hfree])).trans ?_
  cases hg : graphOf s n.ref with
  | none => rfl
  | some g => simp only [h g hg]

variable {g : Graph} {d : NodeDecl} (hg : graphOf s n.ref = some g) (hd : g.tmpls[fld o.arg 0 16]? = some d)
include hg hd

/-- A launch of a known template is refused where no die of its class is in service. -/
theorem acceptLaunch_known : acceptLaunch s = if !classPresent s d.cls then answerLaunch o 2 s else answerLaunch o 0
    (makeReady (childOf s n g d o.arg) false (onHw (fun h => { h with nodes := h.nodes ++ [childOf s n g d o.arg], serial := h.serial + 1 }) s)) := by
  unfold acceptLaunch
  rw [hactive, ho, hnode]
  refine (if_neg (by simp [hls, hfree])).trans ?_
  rw [hg]
  dsimp only
  rw [hd]

end Accept

theorem publishEst_acknowledged (ho : s.cur.lnk.find? (fun o => o.code == 113) = some o) : publishEst s = onCur (answerLnk 19 o 0)
    (putNode { n with est := tset 0 n.est (tileIndex s.cur.id) ((cisternTsc s 0).toNat + fld o.arg 0 40) } s) := by
  unfold publishEst
  rw [hactive, ho]
  dsimp only
  rw [hnode]

end Launch

/-- Settles O54: each event by the lemma about its function. -/
theorem schedulerEvents : Obligations.SchedulerEvents := by
  refine ⟨fun c word s x hassigned hx => ⟨fun h => ?waits, fun h => ?dropped⟩, ?kick,
    fun s n hn => ⟨fun hready => ?ready, fun e k es c hwait hedges hc => ?handoff, fun f hloading hgang hf => ?load⟩,
    fun d s a x hactive hdie hservice => ?place, ?tile⟩
  case waits => exact event_congr ((if_pos hassigned).trans (storeKick_waits word hx h))
  case dropped => exact event_congr ((if_pos hassigned).trans (storeKick_full word hx h))
  case kick =>
    intro c s a x word rest s0 hactive hx hkicks hnext
    refine ⟨fun hg => ?_, fun g hg => ⟨fun cause hp => ?_, fun patches num hp hnum => ?_⟩⟩
    · exact event_congr (acceptKick_unknown hactive hx hkicks hnext hg)
    · exact event_congr (acceptKick_refused hactive hx hkicks hnext hg hp)
    · exact event_congr (acceptKick_accepted hactive hx hkicks hnext hg hp hnum)
  case ready =>
    obtain ⟨m, hm, hrest⟩ := makeReady_frame n false s
    refine ⟨m, event_congr ?_, hrest⟩
    rw [hn]
    exact (if_pos hready).trans hm
  case handoff =>
    refine ⟨fun h => event_congr (handOff_ends hwait hedges hc hn h), fun ea sh leaf hleft hleaf =>
      ⟨fun hdest hmig => ?_, fun pool new used hdest hmig hpool hplace => ?_, fun new hdest => ⟨fun hcopied => ?_, fun hcopied => ?_⟩⟩⟩
    · exact event_congr (handOff_waits hwait hedges hc hleft hleaf hn hdest hmig)
    · exact event_congr (handOff_marks hwait hedges hc hleft hleaf hn hdest hmig hpool hplace)
    · exact event_congr (handOff_copies hwait hedges hc hleft hleaf hn hdest hcopied)
    · exact event_congr (handOff_moves hwait hedges hc hleft hleaf hn hdest hcopied)
  case load =>
    refine ⟨fun hresume => ?_, fun i himage hrebinds => ?_⟩
    · exact ⟨runningNode n _, event_congr (loadNode_start hn hloading hgang hf hresume), rfl, rfl, rfl, rfl, rfl⟩
    · exact ⟨runningNode n _, event_congr (loadNode_resume hn hloading hgang hf himage hrebinds), rfl, rfl, rfl, rfl, rfl⟩
  case place =>
    refine ⟨fun n spots passed hscan => event_congr ?_, fun passed hscan => event_congr ?_⟩
    · rw [placementRound_service hactive hdie hservice]
      dsimp only
      rw [hscan]
    · rw [placementRound_service hactive hdie hservice]
      dsimp only
      rw [hscan]
  case tile =>
    intro j s u a n hactive hnode
    refine ⟨fun o ho hls hfree => ⟨fun h => ?_, fun g d hg hd => ⟨fun hcls => ?_, fun hcls => ?_⟩⟩, fun o ho => ?_⟩
    · exact event_onTile (acceptLaunch_unknown hactive hnode ho hls hfree h)
    · exact event_onTile ((acceptLaunch_known hactive hnode ho hls hfree hg hd).trans (if_pos (by rw [hcls]; rfl)))
    · exact event_onTile ((acceptLaunch_known hactive hnode ho hls hfree hg hd).trans (if_neg (by rw [hcls]; decide)))
    · exact event_onTile (publishEst_acknowledged hactive hnode ho)

end Sys2Proof.Machine
end

section
/-!
PROOF. Mains and their pumps (R303, R340-R349, R353, R402, R403, R418): deliveries, handovers, write-back, the home's answers, a failed home.
-/
namespace Sys2Proof.Machine
open Sys2Proof.Machine.Claims

/-! ## Deliveries and parking (R303, R402, R418) -/

/-- Eight more free bytes after those of a pair. -/
def moreBytes (r : List Byte × State) : List Byte × State := (r.1 ++ leBytes 8 (freshValue r.2).1.toNat, (freshValue r.2).2)

theorem foldl_moreBytes (l : List Nat) (r : List Byte × State) : (l.foldl (fun r _ => moreBytes r) r).1.length = r.1.length + 8 * l.length ∧
    ∃ k, (l.foldl (fun r _ => moreBytes r) r).2 = { r.2 with fresh := k } := by
  induction l generalizing r with
  | nil => exact ⟨rfl, r.2.fresh, rfl⟩
  | cons i l ih =>
    obtain ⟨hlen, k, hk⟩ := ih (moreBytes r)
    refine ⟨?_, k, hk⟩
    rw [List.foldl_cons, hlen]
    simp only [moreBytes, List.length_append, length_leBytes, List.length_cons]
    omega

/-- Free bytes are as many as asked for, and take free values alone. -/
theorem freeBytes_spec (n : Nat) (s : State) : (freeBytes n s).1.length = n ∧ ∃ k, (freeBytes n s).2 = { s with fresh := k } := by
  obtain ⟨hlen, k, hk⟩ := foldl_moreBytes (List.range (ceilDiv n 8)) ([], s)
  refine ⟨?_, k, hk⟩
  change (List.take n (List.foldl (fun r _ => moreBytes r) ([], s) (List.range (ceilDiv n 8))).1).length = n
  rw [List.length_take, hlen, List.length_range]
  simp only [List.length_nil, ceilDiv]
  omega

section Pump
variable {s : State} {m : Main} (hm : mainOf s m.id = some m)
include hm

/-- One source's tile goes to stage 0 on one permit. -/
theorem fetchTile_delivers {vs : List Vec} {s1 : State} {i : TileId} (hfetch : fetchable s m = true) (hnext : fetchNext s m = .ok (vs, s1))
    (htile : stageTile s m 0 = some i) : fetchTile m.id s = sendTo m.id i vs (spendPermit m 0 (putMain (afterSource m) s1)) := by
  unfold fetchTile
  rw [hm]
  refine (if_neg (by simp [hfetch])).trans ?_
  rw [hnext, htile]

/-- A source tile that meets a fault parks the main. -/
theorem parkFetch_parks {cause addr pa : Nat} {i : TileId} {n : Node} (hfetch : fetchable s m = true)
    (hnext : fetchNext s m = .error (.fault cause addr pa)) (htile : stageTile s m 0 = some i) (hnode : nodeOf s m.node = some n) :
    parkFetch m.id s =
    let s1 := putMain { m with parked := some (cause, BitVec.ofNat 64 addr) } s
    let s2 := if cause = 26 then logFetch m i pa s1 else s1
    let t := tileAt s2 i
    eventRecord m.owner
      (faultRecord 2 cause 0 (entryWord n.ref) (queueByte n) m.part (relRow t % 16 * 16 + relCol t % 16) 0 0 addr (dieOf s2 i).tsc.toNat
        (2 ^ 17 + if m.bound then m.handle else 0)) s2 := by
  unfold parkFetch
  rw [hm]
  refine (if_neg (by simp [hfetch])).trans ?_
  rw [hnext, htile, hnode]

/-! ## Handovers (R16, R345, R403) -/

/-- The state in which the delivering pump has reached its row: the handle is being read from the first row on. -/
def handState (m : Main) (d : Nat) (i : TileId) (e : Entry) (s : State) : State :=
  let s0 := onTile i (useSlot (handPort s m d)) s
  if tfind m.rows d = none then (handleEvent s0 e .read).getD s0 else s0

/-- The last row delivers the tile: it goes to every destination, the handle is released, and sluice 63 counts an arrival. -/
def handTile (m : Main) (d : Nat) (i : TileId) (e : Entry) (s : State) : State :=
  let n := outputSize m (d - 1) e
  let f := freeBytes n s
  let bs := ((spaceRead s e.space e.off n).1.zip f.1).zipIdx.map fun q =>
    if poisonHit (spacePoison s e.space) 8 (e.off + q.2) 1 then q.1.2 else q.1.1
  let s4 := sendAll m d (elemsOf bs) f.2
  settleMains (onTile i (onCur (countUp false 63 1 0 false)) ((handleEvent s4 e .release).getD s4))

theorem handOver_row {d r : Nat} {i : TileId} {e : Entry} (hcan : canHandOver s m d = true) (hready : outputReady s m d = some (i, e))
    (hrow : handRow s m d = some r) : handOver m.id d s =
    if (handRows m d e).erase r ≠ [] then putMain { m with rows := tput m.rows d ((handRows m d e).erase r) } (handState m d i e s)
    else handTile m d i e (handState m d i e s) := by
  have hstate : (if (tfind m.rows d).isNone then (handleEvent (onTile i (useSlot (handPort s m d)) s) e .read).getD
      (onTile i (useSlot (handPort s m d)) s) else onTile i (useSlot (handPort s m d)) s) = handState m d i e s := by
    simp only [handState, Option.isNone_iff_eq_none]
  unfold handOver
  rw [hm]
  dsimp only
  rw [hcan, hready, hrow]
  dsimp only
  rw [hstate]
  by_cases hleft : (handRows m d e).erase r = []
  · rw [if_neg (by simp [hleft]), if_neg (by simp [hleft])]
    rfl
  · rw [if_pos (by simpa using hleft), if_pos hleft]

/-! ## Write-back (R19, R303) -/

theorem writeBack_writes {g : StageDecl} {dest : Nat} (hg : m.stages[m.stages.length - 1]? = some g)
    (hruns : stageRuns s m (m.stages.length - 1) = true) (hpermit : permitted s m (m.stages.length - 1) = true)
    (htake : destsTake s m m.stages.length = true) (hspent : spent m m.stages.length = false) (hown : ownAddr s dest = true)
    (hok : addrStatus s dest = 0) (hend : addrStatus s (dest + fld g.oshape 0 16 * fld g.oshape 16 16 * 2 ^ fld g.oshape 32 8 - 1) = 0) :
    writeBack m.id dest s =
    let r := freeBytes (fld g.oshape 0 16 * fld g.oshape 16 16 * 2 ^ fld g.oshape 32 8) (spendPermit m (m.stages.length - 1) s)
    sendAll m m.stages.length (elemsOf r.1) (memStore r.2 dest r.1) := by
  unfold writeBack
  rw [hm]
  dsimp only
  rw [hg]
  exact if_neg (by simp [hruns, hpermit, htake, hspent, hown, hok, hend])

end Pump

/-! ## The home (R340, R342, R343, R349, R353) -/

section Bind
variable {s : State} {n : Node} {d : Vec} (part : Nat) (keep : Option Nat)

/-- A descriptor without a declared main is refused with 2. -/
theorem bindMain_undeclared (h : ((objectOf s n).bind fun o => (o.funcs[n.decl.fn]?).bind fun f => f.mains[fld d 0 16]?) = none) :
    bindMain n part d keep s = some (bindValue 0 2 0 0, s) := by
  have hdecl : ((objectOf s n).bind fun o => (o.funcs[n.decl.fn]?).bind fun f => (f.mains[fld d 0 16]?).map fun g => (o.hash, g)) = none := by
    simp only [Option.bind_eq_none_iff, Option.map_eq_none_iff] at h ⊢
    exact h
  unfold bindMain
  dsimp only
  rw [hdecl]

section Declared
variable {o : CodeObject} {f : Func} {gs : List StageDecl} (ho : objectOf s n = some o) (hf : o.funcs[n.decl.fn]? = some f)
  (hgs : f.mains[fld d 0 16]? = some gs)
include ho hf hgs

theorem declared_main : ((objectOf s n).bind fun o => (o.funcs[n.decl.fn]?).bind fun f => (f.mains[fld d 0 16]?).map fun g => (o.hash, g)) =
    some (o.hash, gs) := by
  simp [ho, hf, hgs]

/-- A descriptor with illegal sources, or other sources than its stages read, is refused with 7. -/
theorem bindMain_illegal (h : (∃ k, k < 4 ∧ sourceIllegal d k = true) ∨ sourcesOf d = [] ∨ maskedSources gs ≠ sourcesOf d) :
    bindMain n part d keep s = some (bindValue 0 7 0 0, s) := by
  unfold bindMain
  dsimp only
  rw [declared_main ho hf hgs]
  exact if_pos (by simpa [or_assoc] using h)

section Legal
variable (hlegal : ¬ ((∃ k, k < 4 ∧ sourceIllegal d k = true) ∨ sourcesOf d = [] ∨ maskedSources gs ≠ sourcesOf d))
include hlegal

theorem bindMain_uneven (h : ∃ k ∈ sourcesOf d, sourceTiles d k ≠ sourceTiles d ((sourcesOf d).headD 0)) :
    bindMain n part d keep s = some (bindValue 0 6 0 0, s) := by
  unfold bindMain
  dsimp only
  rw [declared_main ho hf hgs]
  refine (if_neg (by simpa [or_assoc] using hlegal)).trans (if_pos ?_)
  simpa using h

section Even
variable (heven : ∀ k ∈ sourcesOf d, sourceTiles d k = sourceTiles d ((sourcesOf d).headD 0))
include heven

theorem bindMain_unmapped (hpages : allPages s n.ref.ctx d = some none) : bindMain n part d keep s = some (bindValue 0 3 0 0, s) := by
  unfold bindMain
  dsimp only
  rw [declared_main ho hf hgs]
  refine (if_neg (by simpa [or_assoc] using hlegal)).trans ((if_neg (by simpa using heven)).trans ?_)
  rw [hpages]

variable {pages : List (List Nat)} (hpages : allPages s n.ref.ctx d = some (some pages))
include hpages

theorem bindMain_slotTaken (hslot : slotRuns s (nodeClusters n) (fld d 16 4) = true) :
    bindMain n part d keep s = some (bindValue 0 4 0 0, s) := by
  unfold bindMain
  dsimp only
  rw [declared_main ho hf hgs]
  refine (if_neg (by simpa [or_assoc] using hlegal)).trans ((if_neg (by simpa using heven)).trans ?_)
  rw [hpages]
  exact if_pos hslot

theorem bindMain_full (hslot : slotRuns s (nodeClusters n) (fld d 16 4) = false) (hfull : 4096 ≤ s.dev.mains.length) :
    bindMain n part d keep s = some (bindValue 0 5 0 0, s) := by
  unfold bindMain
  dsimp only
  rw [declared_main ho hf hgs]
  refine (if_neg (by simpa [or_assoc] using hlegal)).trans ((if_neg (by simpa using heven)).trans ?_)
  rw [hpages]
  exact (if_neg (by rw [hslot]; decide)).trans (if_pos hfull)

end Even
end Legal
end Declared
end Bind

section Serve
variable {s : State} {o : LnkOp} (ho : homeOp s.cur = some o)
include ho

/-- A bind is answered with its value once it may take effect. -/
theorem serveBind_answers {n : Node} {v : Nat} {s' : State} (hcode : o.code = 9) (hnode : curNode s = some n) (hls : lsDone s o.serial 3 = true)
    (hbind : bindMain n s.cur.place.part o.arg none s = some (v, s')) :
    serveBind s = homeReads s'.cur.lnk.length (onCur (answerLnk 18 o v) s') := by
  unfold serveBind
  rw [ho, hnode]
  refine (if_pos ⟨hcode, hls⟩).trans ?_
  rw [hbind]

variable (hcode : o.code = 10)
include hcode

theorem serveDetach_detaches {m : Main} (hm : byHandle s (ctxNum s.cur) (fld o.arg 0 16) = some m) :
    serveDetach s = homeReads (detachMain m s).cur.lnk.length (onCur (answerLnk 18 o 0) (detachMain m s)) := by
  unfold serveDetach
  rw [ho]
  refine (if_pos hcode).trans ?_
  rw [hm]

theorem serveDetach_unknown (hm : byHandle s (ctxNum s.cur) (fld o.arg 0 16) = none) :
    serveDetach s = homeReads s.cur.lnk.length (onCur (answerLnk 18 o 1) s) := by
  unfold serveDetach
  rw [ho]
  refine (if_pos hcode).trans ?_
  rw [hm]

end Serve

/-- The one main that a restored node still has to bind is bound with its handle (R353). -/
theorem rebindNode_single {s s' : State} {n : Node} {q : ImageMain} {v : Nat} (hn : nodeOf s n.ref = some n) (hresume : n.resume = true)
    (hparts : n.parts ≠ []) (hrebinds : rebinds s n = [q]) (hbind : bindMain n q.part q.desc (some q.handle) s = some (v, s')) :
    rebindNode n.ref s = s' := by
  unfold rebindNode
  rw [hn]
  refine (if_neg (by simpa [hresume] using hparts)).trans ?_
  rw [hrebinds]
  simp [hbind]

/-! ## A home that fails (R340) -/

/-- The mains of the package and the cisterns that are down. -/
def mainsAndDown (s : State) : List Main × List Nat := (s.dev.mains, s.dev.downC)

section Frame
variable (s : State)

theorem onTile_onCur_mains (i : TileId) (f : Tile → Tile) : mainsAndDown (onTile i (onCur f) s) = mainsAndDown s := by
  simp [mainsAndDown, onTile, onCur]

theorem onNodeTiles_mains (n : Node) (f : Tile → Tile) : mainsAndDown (onNodeTiles n f s) = mainsAndDown s :=
  List.foldlRecOn (motive := fun v => mainsAndDown v = mainsAndDown s) (nodeTiles n) _ rfl
    fun v hv i _ => (onTile_onCur_mains v i f).trans hv

theorem queueCompletion_mains (n : Node) (st : Nat) : mainsAndDown (queueCompletion n st s) = mainsAndDown s := by
  unfold queueCompletion
  split <;> rfl

/-- A node that faults leaves its mains to the home. -/
theorem faultNodeQuiet_mains (n : Node) : mainsAndDown (faultNodeQuiet n s) = mainsAndDown s := by
  have htiles := onNodeTiles_mains s n (leaveNode s.cur.wheel)
  unfold faultNodeQuiet
  dsimp only
  split
  · exact htiles
  · exact (queueCompletion_mains _ n 2).trans htiles

theorem ringPut_mains (timed : Bool) (other : Nat) (r : Ring) (bs : List Byte) : mainsAndDown (ringPut timed other s r bs).2 = mainsAndDown s := by
  unfold ringPut
  split
  · rfl
  · dsimp only
    split
    · rfl
    · split <;> rfl

theorem ringDrain_mains (timed : Bool) (fuel : Nat) (s : State) (r : Ring) : mainsAndDown (ringDrain timed fuel s r).2 = mainsAndDown s := by
  induction fuel generalizing s r with
  | zero => rfl
  | succ fuel ih =>
    unfold ringDrain
    split
    · rfl
    · split
      · exact (ih _ _).trans (ringPut_mains s timed 0 _ _)
      · rfl

theorem eventRecord_mains (c : Nat) (bs : List Byte) : mainsAndDown (eventRecord c bs s) = mainsAndDown s := by
  unfold eventRecord
  split
  · rfl
  · exact (ringPut_mains _ _ _ _ _).trans (ringDrain_mains false 256 s _)

end Frame

/-- The mains of a group whose home is a cistern. -/
def faultMain (c : Nat) (m : Main) : Main := if m.home = c ∧ m.key ≠ 0 then { m with faulted := true } else m

theorem onMains_mains {s : State} {ms : List Main} {cs : List Nat} (f : List Main → List Main) (h : mainsAndDown s = (ms, cs)) :
    mainsAndDown (onMains f s) = (f ms, cs) := by
  obtain ⟨hms, hcs⟩ := Prod.mk.inj h
  exact Prod.ext (congrArg f hms) hcs

/-- Nodes that fault one after the other, those that have faulted already apart. -/
theorem foldl_faultNodeQuiet_mains (rs : List NodeRef) (s : State) : mainsAndDown (rs.foldl (fun s r =>
    match nodeOf s r with
    | none => s
    | some n => if n.state = .faulted then s else faultNodeQuiet n s) s) = mainsAndDown s := by
  refine List.foldlRecOn (motive := fun v => mainsAndDown v = mainsAndDown s) rs _ rfl fun v hv r _ => ?_
  split
  · exact hv
  · split
    · exact hv
    · exact (faultNodeQuiet_mains v _).trans hv

/-- A cistern that fails is down, and faults the mains of its groups. -/
theorem cisternFails_mains (c : Nat) (s : State) : mainsAndDown (cisternFails c s) =
    (s.dev.mains.map (faultMain c), c :: s.dev.downC.filter fun x => x != c) := by
  unfold cisternFails
  refine List.foldlRecOn (motive := fun v => mainsAndDown v = (s.dev.mains.map (faultMain c), c :: s.dev.downC.filter fun x => x != c)) _ _ ?_
    fun v hv x _ => (eventRecord_mains v x _).trans hv
  exact onMains_mains (List.map (faultMain c)) (foldl_faultNodeQuiet_mains _ _)

/-- Settles O53: each event by the lemma about its function. -/
theorem pumpEvents : Obligations.PumpEvents := by
  refine ⟨fun s m hm => ⟨fun hpipe => ?again, ?deliver, ?hand, fun cause addr pa i n hfetch hnext htile hnode => ?park, ?write⟩,
    fun n part d keep s => ⟨fun h => ?undeclared, ?declared⟩, ?home, fun s n q v s' hn hresume hparts hrebinds hbind => ?rebind, fun c s => ?fail⟩
  case again =>
    refine event_congr ?_
    rw [hm]
    exact if_neg (by simpa using hpipe)
  case deliver =>
    intro vs s1 i hpipe hfetch hnext htile
    refine event_congr ?_
    rw [hm]
    exact (if_pos (by simp [hpipe])).trans (fetchTile_delivers hm hfetch hnext htile)
  case hand =>
    intro d i e r hd hcan hready hrow
    have hhand := handOver_row hm hcan hready hrow
    refine ⟨fun hmulti => event_congr ?_, fun hmulti => event_congr ?_⟩
    · rw [hm, Nat.sub_add_cancel hd]
      exact (if_neg (by rw [hmulti]; decide)).trans hhand
    · rw [hm]
      exact (if_pos hmulti).trans hhand
  case park => exact event_congr (parkFetch_parks hm hfetch hnext htile hnode)
  case write =>
    intro g dest nst hg n hruns hpermit htake hspent hown hok hend
    obtain ⟨hlen, k, hk⟩ := freeBytes_spec n (spendPermit m (nst - 1) s)
    refine ⟨_, k, hlen, event_congr ?_⟩
    rw [writeBack_writes hm hg hruns hpermit htake hspent hown hok hend]
    dsimp only
    rw [hk]
  case undeclared => exact bindMain_undeclared part keep h
  case declared =>
    intro o f gs ho hf hgs bad
    refine ⟨bindMain_illegal part keep ho hf hgs, bindMain_uneven part keep ho hf hgs, fun hlegal heven =>
      ⟨bindMain_unmapped part keep ho hf hgs hlegal heven, fun pages hpages => ⟨?_, ?_⟩⟩⟩
    · exact bindMain_slotTaken part keep ho hf hgs hlegal heven hpages
    · exact bindMain_full part keep ho hf hgs hlegal heven hpages
  case home =>
    intro j s u o ho
    refine ⟨fun n v u' hcode hnode hls hbind => event_onTile (serveBind_answers ho hcode hnode hls hbind), fun hcode =>
      ⟨fun m hm => ?_, fun hm => ?_⟩⟩
    · exact event_onTile (serveDetach_detaches ho hcode hm)
    · exact event_onTile (serveDetach_unknown ho hcode hm)
  case rebind => exact event_congr (rebindNode_single hn hresume hparts hrebinds hbind)
  case fail =>
    obtain ⟨hmains, hdown⟩ := Prod.mk.inj (cisternFails_mains c.toNat s)
    exact ⟨_, rfl, by rw [hdown]; exact List.mem_cons_self, hmains⟩

end Sys2Proof.Machine
end

section
/-!
PROOF. Decoding and encoding agree (R29-R39, R44, R45): the fields of a word, then sources, destinations, moves, control operations and
bundles, each in both directions.
-/
namespace Sys2Proof.Machine

/-! ## Fields of a number -/

/-- A field as digits of a number. -/
theorem bitsOf_eq (n lo w : Nat) : bitsOf n lo w = n / 2 ^ lo % 2 ^ w := by rw [bitsOf, Nat.shiftRight_eq_div_pow]

theorem bitsOf_lt (n lo w : Nat) : bitsOf n lo w < 2 ^ w := Nat.mod_lt _ (Nat.two_pow_pos w)

theorem b2n_lt (b : Bool) : b2n b < 2 := by cases b <;> decide

/-- A flag read back from its bit. -/
@[simp] theorem b2n_beq_one (b : Bool) : (b2n b == 1) = b := by cases b <;> rfl

@[simp] theorem classOf_num (c : RegClass) : classOf c.num = some c := by cases c <;> rfl

theorem classNum_lt (c : RegClass) : c.num < 8 := by cases c <;> decide

/-! ## Sources (R37) -/

theorem encodeSrc_lt (x : Src) : encodeSrc x < 2 ^ 14 := by
  cases x with
  | reg r h => have := classNum_lt r.cls; have := r.idx.isLt; have := b2n_lt h; simp only [encodeSrc]; omega
  | port s y h => have := s.isLt; have := y.isLt; have := b2n_lt h; simp only [encodeSrc]; omega
  | imm v => have := v.isLt; simp only [encodeSrc]; omega
  | lit v => show 2 ^ 13 + 0x800 < 2 ^ 14; decide
  | stream f pk h => have := f.isLt; have := b2n_lt pk; have := b2n_lt h; simp only [encodeSrc]; omega
  | recvq q pk h => have := q.isLt; have := b2n_lt pk; have := b2n_lt h; simp only [encodeSrc]; omega
  | cq pk h => have := b2n_lt pk; have := b2n_lt h; simp only [encodeSrc]; omega

/-- A source within its limits decodes from its field. -/
theorem decodeSrc_encodeSrc {x : Src} {lit : Option Word} (hx : x.wf = true) (hlit : ∀ v, x = .lit v → lit = some v) :
    decodeSrc (encodeSrc x) lit = .ok x := by
  cases x with
  | reg r h =>
    have hc := classNum_lt r.cls
    have hi := r.idx.isLt
    have hh := b2n_lt h
    have hsize : r.idx.toNat < r.cls.size := by simpa [Src.wf, Reg.wf] using hx
    have k : bitsOf (encodeSrc (.reg r h)) 12 2 = 0 ∧ bitsOf (encodeSrc (.reg r h)) 9 3 = r.cls.num ∧
        bitsOf (encodeSrc (.reg r h)) 3 6 = r.idx.toNat ∧ bitsOf (encodeSrc (.reg r h)) 2 1 = b2n h ∧ bitsOf (encodeSrc (.reg r h)) 0 2 = 0 := by
      simp only [encodeSrc, bitsOf_eq]; omega
    obtain ⟨hkind, hcls, hidx, hhold, hlow⟩ := k
    simp [decodeSrc, hkind, hcls, hidx, hhold, hlow, hsize]
  | port s y h =>
    have hs := s.isLt
    have hy := y.isLt
    have hh := b2n_lt h
    obtain ⟨hsock, hport⟩ : socketOk s.toNat = true ∧ y.toNat < portCount s.toNat := by simpa [Src.wf] using hx
    have k : bitsOf (encodeSrc (.port s y h)) 12 2 = 1 ∧ bitsOf (encodeSrc (.port s y h)) 7 5 = s.toNat ∧
        bitsOf (encodeSrc (.port s y h)) 4 3 = y.toNat ∧ bitsOf (encodeSrc (.port s y h)) 3 1 = b2n h ∧ bitsOf (encodeSrc (.port s y h)) 0 3 = 0 := by
      simp only [encodeSrc, bitsOf_eq]; omega
    obtain ⟨hkind, hsk, hyk, hhold, hlow⟩ := k
    simp [decodeSrc, hkind, hsk, hyk, hhold, hlow, hsock, hport]
  | imm v =>
    have hv := v.isLt
    have hne : v.toNat ≠ 0x800 := by
      have : v ≠ 0x800 := by simpa [Src.wf] using hx
      exact fun h => this (BitVec.eq_of_toNat_eq h)
    have k : bitsOf (encodeSrc (.imm v)) 12 2 = 2 ∧ bitsOf (encodeSrc (.imm v)) 0 12 = v.toNat := by
      simp only [encodeSrc, bitsOf_eq]; omega
    obtain ⟨hkind, hval⟩ := k
    simp [decodeSrc, hkind, hval, hne]
  | lit v => simp [decodeSrc, encodeSrc, hlit v rfl, bitsOf_eq]
  | stream f pk h =>
    have hf := f.isLt
    have hp := b2n_lt pk
    have hh := b2n_lt h
    have k : bitsOf (encodeSrc (.stream f pk h)) 12 2 = 3 ∧ bitsOf (encodeSrc (.stream f pk h)) 10 2 = 0 ∧
        bitsOf (encodeSrc (.stream f pk h)) 6 4 = f.toNat ∧ bitsOf (encodeSrc (.stream f pk h)) 5 1 = b2n pk ∧
        bitsOf (encodeSrc (.stream f pk h)) 4 1 = b2n h ∧ bitsOf (encodeSrc (.stream f pk h)) 0 4 = 0 := by
      simp only [encodeSrc, bitsOf_eq]; omega
    obtain ⟨hkind, hsub, hfk, hpk, hhold, hlow⟩ := k
    simp [decodeSrc, hkind, hsub, hfk, hpk, hhold, hlow]
  | recvq q pk h =>
    have hq := q.isLt
    have hp := b2n_lt pk
    have hh := b2n_lt h
    have k : bitsOf (encodeSrc (.recvq q pk h)) 12 2 = 3 ∧ bitsOf (encodeSrc (.recvq q pk h)) 10 2 = 1 ∧
        bitsOf (encodeSrc (.recvq q pk h)) 6 4 = q.toNat ∧ bitsOf (encodeSrc (.recvq q pk h)) 5 1 = b2n pk ∧
        bitsOf (encodeSrc (.recvq q pk h)) 4 1 = b2n h ∧ bitsOf (encodeSrc (.recvq q pk h)) 0 4 = 0 := by
      simp only [encodeSrc, bitsOf_eq]; omega
    obtain ⟨hkind, hsub, hqk, hpk, hhold, hlow⟩ := k
    have hq4 : ¬ 4 ≤ q.toNat := by omega
    simp [decodeSrc, hkind, hsub, hqk, hpk, hhold, hlow, hq4]
  | cq pk h =>
    have hp := b2n_lt pk
    have hh := b2n_lt h
    have k : bitsOf (encodeSrc (.cq pk h)) 12 2 = 3 ∧ bitsOf (encodeSrc (.cq pk h)) 10 2 = 2 ∧
        bitsOf (encodeSrc (.cq pk h)) 6 4 = 0 ∧ bitsOf (encodeSrc (.cq pk h)) 5 1 = b2n pk ∧
        bitsOf (encodeSrc (.cq pk h)) 4 1 = b2n h ∧ bitsOf (encodeSrc (.cq pk h)) 0 4 = 0 := by
      simp only [encodeSrc, bitsOf_eq]; omega
    obtain ⟨hkind, hsub, hq0, hpk, hhold, hlow⟩ := k
    simp [decodeSrc, hkind, hsub, hq0, hpk, hhold, hlow]

/-- What a source field decodes to is within its limits. -/
theorem wf_of_decodeSrc {n : Nat} {lit : Option Word} {x : Src} (h : decodeSrc n lit = .ok x) : x.wf = true := by
  unfold decodeSrc at h
  split at h
  · split at h
    · cases h
    · rename_i c _
      split_ifs at h with hsize
      cases h
      have hidx : bitsOf n 3 6 % 2 ^ 6 = bitsOf n 3 6 := Nat.mod_eq_of_lt (bitsOf_lt ..)
      refine decide_eq_true ?_
      rw [BitVec.toNat_ofNat, hidx]
      exact not_le.mp hsize
  · split_ifs at h with hsock hport
    cases h
    have hs : bitsOf n 7 5 < 2 ^ 5 := bitsOf_lt ..
    have hy : bitsOf n 4 3 < 2 ^ 3 := bitsOf_lt ..
    simp only [Src.wf, BitVec.toNat_ofNat, Nat.mod_eq_of_lt hs, Nat.mod_eq_of_lt hy]
    simp at hsock hport
    simp [hsock, hport]
  · split_ifs at h with himm
    · split at h
      · cases h; rfl
      · cases h
    · cases h
      have hv : bitsOf n 0 12 % 2 ^ 12 = bitsOf n 0 12 := Nat.mod_eq_of_lt (bitsOf_lt ..)
      have hne : BitVec.ofNat 12 (bitsOf n 0 12) ≠ 0x800 := fun he => himm (hv ▸ congrArg BitVec.toNat he)
      simpa [Src.wf] using hne
  · split at h
    · cases h
    · split at h
      · cases h; rfl
      · split at h <;> cases h; rfl
      · split at h <;> cases h; rfl
      · cases h

/-! ## Destinations (R38, R45) -/

/-- Every instruction with a socket and a code decodes from them. -/
theorem decodeTrigger_trigger {i : Instr} {q : Nat × Nat} {g : Guard} {x : Src} (hm : i.move = some (g, x)) (h : i.trigger = some q) :
    decodeTrigger g x q.1 q.2 = some i := by
  cases i <;> cases hm <;> cases h
  -- an operation of two sockets, by which of them it names
  all_goals first | rfl | (rename Bool => n; cases n <;> rfl)

/-- Every trigger is a move. -/
theorem move_of_trigger {i : Instr} {q : Nat × Nat} (h : i.trigger = some q) : ∃ m, i.move = some m := by
  cases i <;> cases h <;> exact ⟨_, rfl⟩

/-- A trigger's destination is subject to no limit of its own (R49), and takes any hold (R44). -/
theorem wf_trigger {i : Instr} {q : Nat × Nat} {g : Guard} {x : Src} (hm : i.move = some (g, x)) (h : i.trigger = some q) : i.wf = x.wf := by
  have hrest (a b : Bool) : ((a && (!b || true)) && true && true) = a := by simp
  cases i <;> cases hm <;> cases h <;> exact hrest _ _

theorem encodeDest_trigger {i : Instr} {q : Nat × Nat} (h : i.trigger = some q) : encodeDest i = 2 ^ 12 + 2 ^ 7 * q.1 + q.2 := by
  cases i <;> cases h <;> rfl

/-- The sockets and codes of R41 and R45. -/
theorem trigger_range {i : Instr} {q : Nat × Nat} (h : i.trigger = some q) : 1 ≤ q.1 ∧ q.1 ≤ 19 ∧ 8 ≤ q.2 ∧ q.2 < 64 := by
  cases i <;> cases h
  all_goals first | decide | (rename Bool => n; cases n <;> decide)

/-- A move goes to a register, a stream, an operand port, or it triggers (R38). -/
theorem move_dest {i : Instr} {g : Guard} {x : Src} (h : i.move = some (g, x)) : (∃ r, i = .moveToRegister g x r) ∨
    (∃ f, i = .moveToStream g x f) ∨ (∃ k o, i = .moveToOperand g x k o) ∨ ∃ q, i.trigger = some q := by
  cases i <;> cases h
  case moveToRegister r => exact .inl ⟨r, rfl⟩
  case moveToStream f => exact .inr (.inl ⟨f, rfl⟩)
  case moveToOperand k o => exact .inr (.inr (.inl ⟨k, o, rfl⟩))
  all_goals exact .inr (.inr (.inr ⟨_, rfl⟩))

/-- A move is no control operation. -/
theorem head_of_move {i : Instr} {m : Guard × Src} (h : i.move = some m) : i.head = none := by cases i <;> cases h <;> rfl

/-- What a socket and a code decode to is a trigger of them. -/
theorem trigger_of_decodeTrigger {g : Guard} {x : Src} {s code : Nat} {i : Instr} (h : decodeTrigger g x s code = some i) :
    i.move = some (g, x) ∧ i.trigger = some (s, code) := by
  unfold decodeTrigger at h
  split at h
  case h_20 => cases h
  all_goals
    simp only [decodeIa, decodeImd, decodeVa, decodeVx, decodeSfu, decodeMx, decodeQnt, decodeIv, decodeLw, decodeGm, decodeCp, decodeNet,
      decodeSlu, decodeTt, decodeLnk, decodeSys] at h
    split at h <;> cases h <;> exact ⟨rfl, rfl⟩

/-! ## Moves (R35) -/

section Wf
variable (g : Guard) (x : Src)

/-- The limits of a move into a register (R39, R44). -/
theorem wf_moveToRegister (r : Reg) : (Instr.moveToRegister g x r).wf = (x.wf && !x.hold && r.wf) := by
  have h : (Instr.moveToRegister g x r).wf = ((x.wf && (!x.hold || false)) && r.wf && true) := rfl
  simpa using h

/-- The limits of a move into a stream (R44). -/
theorem wf_moveToStream (f : BitVec 4) : (Instr.moveToStream g x f).wf = (x.wf && !x.hold) := by
  have h : (Instr.moveToStream g x f).wf = ((x.wf && (!x.hold || false)) && true && true) := rfl
  simpa using h

/-- The limits of a move into an operand port (R41). -/
theorem wf_moveToOperand (k : BitVec 5) (o : BitVec 2) : (Instr.moveToOperand g x k o).wf = (x.wf && socketOk k.toNat) := by
  have h : (Instr.moveToOperand g x k o).wf = ((x.wf && (!x.hold || true)) && socketOk k.toNat && true) := rfl
  simpa using h

end Wf

theorem encodeDest_lt {i : Instr} {g : Guard} {x : Src} (h : i.move = some (g, x)) : encodeDest i < 2 ^ 13 := by
  obtain ⟨r, rfl⟩ | ⟨f, rfl⟩ | ⟨k, o, rfl⟩ | ⟨q, hq⟩ := move_dest h
  · have := classNum_lt r.cls; have := r.idx.isLt; simp only [encodeDest]; omega
  · have := f.isLt; simp only [encodeDest]; omega
  · have := k.isLt; have := o.isLt; simp only [encodeDest]; omega
  · obtain ⟨-, hs, -, hc⟩ := trigger_range hq
    rw [encodeDest_trigger hq]; omega

/-- A move within its limits decodes from its destination field, guard and source. -/
theorem decodeDest_encodeDest {i : Instr} {g : Guard} {x : Src} (hm : i.move = some (g, x)) (hi : i.wf = true) :
    decodeDest g x (encodeDest i) = .ok i := by
  obtain ⟨r, rfl⟩ | ⟨f, rfl⟩ | ⟨k, o, rfl⟩ | ⟨q, hq⟩ := move_dest hm
  · have hc := classNum_lt r.cls
    have hidx := r.idx.isLt
    have hsize : r.idx.toNat < r.cls.size := by
      rw [wf_moveToRegister, Bool.and_eq_true] at hi
      exact of_decide_eq_true hi.2
    obtain ⟨hport, hstream, hcls, hreg, hlow⟩ : bitsOf (encodeDest (.moveToRegister g x r)) 12 1 = 0 ∧
        bitsOf (encodeDest (.moveToRegister g x r)) 11 1 = 0 ∧ bitsOf (encodeDest (.moveToRegister g x r)) 8 3 = r.cls.num ∧
        bitsOf (encodeDest (.moveToRegister g x r)) 2 6 = r.idx.toNat ∧ bitsOf (encodeDest (.moveToRegister g x r)) 0 2 = 0 := by
      simp only [encodeDest, bitsOf_eq]; omega
    simp [decodeDest, hport, hstream, hcls, hreg, hlow, hsize]
  · have hf := f.isLt
    obtain ⟨hport, hstream, hfk, hlow⟩ : bitsOf (encodeDest (.moveToStream g x f)) 12 1 = 0 ∧
        bitsOf (encodeDest (.moveToStream g x f)) 11 1 = 1 ∧ bitsOf (encodeDest (.moveToStream g x f)) 7 4 = f.toNat ∧
        bitsOf (encodeDest (.moveToStream g x f)) 0 7 = 0 := by
      simp only [encodeDest, bitsOf_eq]; omega
    simp [decodeDest, hport, hstream, hfk, hlow]
  · have hk := k.isLt
    have ho := o.isLt
    have hsock : socketOk k.toNat = true := by
      rw [wf_moveToOperand, Bool.and_eq_true] at hi
      exact hi.2
    obtain ⟨hport, hsk, hlow⟩ : bitsOf (encodeDest (.moveToOperand g x k o)) 12 1 = 1 ∧
        bitsOf (encodeDest (.moveToOperand g x k o)) 7 5 = k.toNat ∧ bitsOf (encodeDest (.moveToOperand g x k o)) 0 7 = o.toNat := by
      simp only [encodeDest, bitsOf_eq]; omega
    have ho4 : o.toNat < 4 := ho
    simp [decodeDest, hport, hsk, hlow, hsock, ho4]
  · obtain ⟨hs1, hs2, hc1, hc2⟩ := trigger_range hq
    obtain ⟨hport, hsk, hcode⟩ : bitsOf (encodeDest i) 12 1 = 1 ∧ bitsOf (encodeDest i) 7 5 = q.1 ∧ bitsOf (encodeDest i) 0 7 = q.2 := by
      rw [encodeDest_trigger hq]; simp only [bitsOf_eq]; omega
    have hsock : socketOk q.1 = true := by simp [socketOk, hs1, hs2]
    have h4 : ¬ q.2 < 4 := by omega
    have h8 : ¬ q.2 < 8 := by omega
    simp [decodeDest, hport, hsk, hcode, hsock, h4, h8, decodeTrigger_trigger hm hq]

/-- A well-formed move has a source within its limits, and holds it only toward a port (R37, R44). -/
theorem src_of_wf {i : Instr} {g : Guard} {x : Src} (hm : i.move = some (g, x)) (hi : i.wf = true) : x.wf = true ∧ (x.hold && !i.toPort) = false := by
  simp only [Instr.wf, hm, Bool.and_eq_true, Bool.or_eq_true, Bool.not_eq_true'] at hi
  obtain ⟨⟨⟨hx, hhold⟩, -⟩, -⟩ := hi
  refine ⟨hx, ?_⟩
  rcases hhold with h | h <;> simp [h]

/-- Every move has a word. -/
theorem encodeMove_some {i : Instr} {m : Guard × Src} (hm : i.move = some m) : ∃ w, encodeMove i = some w := by
  rw [encodeMove, hm]
  exact ⟨_, rfl⟩

/-- A well-formed move decodes from its word. -/
theorem decodeMove_encodeMove {i : Instr} {g : Guard} {x : Src} {lit : Option Word} (hm : i.move = some (g, x)) (hi : i.wf = true)
    (hlit : ∀ v, x = .lit v → lit = some v) {w : BitVec 32} (hw : encodeMove i = some w) : decodeMove w lit = .ok i := by
  obtain ⟨hx, hhold⟩ := src_of_wf hm hi
  have hsrc := encodeSrc_lt x
  have hdest := encodeDest_lt hm
  have hinv := b2n_lt g.inv
  have hpred := g.pred.isLt
  rw [encodeMove, hm] at hw
  cases hw
  have hsmall : 2 ^ 31 * b2n g.inv + 2 ^ 27 * g.pred.toNat + 2 ^ 13 * encodeSrc x + encodeDest i < 2 ^ 32 := by omega
  unfold decodeMove
  simp only [BitVec.toNat_ofNat, Nat.mod_eq_of_lt hsmall]
  generalize hn : 2 ^ 31 * b2n g.inv + 2 ^ 27 * g.pred.toNat + 2 ^ 13 * encodeSrc x + encodeDest i = n
  obtain ⟨h31, h27, h13, h0⟩ : bitsOf n 31 1 = b2n g.inv ∧ bitsOf n 27 4 = g.pred.toNat ∧ bitsOf n 13 14 = encodeSrc x ∧ bitsOf n 0 13 = encodeDest i := by
    simp only [bitsOf_eq]; omega
  simp [h31, h27, h13, h0, decodeSrc_encodeSrc hx hlit, decodeDest_encodeDest hm hi, hhold]

/-- What a destination field decodes to is a move of the guard and source, well-formed where the hold is legal. -/
theorem wf_of_decodeDest {g : Guard} {x : Src} {n : Nat} {i : Instr} (h : decodeDest g x n = .ok i) (hx : x.wf = true)
    (hhold : (x.hold && !i.toPort) = false) : i.wf = true ∧ i.move = some (g, x) := by
  unfold decodeDest at h
  split at h
  · split at h
    · cases h
    rename_i hsock
    split at h
    · cases h
      have hs : bitsOf n 7 5 % 2 ^ 5 = bitsOf n 7 5 := Nat.mod_eq_of_lt (bitsOf_lt ..)
      refine ⟨?_, rfl⟩
      rw [wf_moveToOperand, hx, BitVec.toNat_ofNat, hs]
      simpa using hsock
    · split at h
      · cases h
      split at h
      · rename_i htrig
        cases h
        obtain ⟨hm, hq⟩ := trigger_of_decodeTrigger htrig
        exact ⟨(wf_trigger hm hq).trans hx, hm⟩
      · cases h
  · split at h
    · split at h
      · cases h
      rename_i c _
      split at h
      · cases h
      rename_i hsize
      split at h <;> cases h
      have hidx : bitsOf n 2 6 % 2 ^ 6 = bitsOf n 2 6 := Nat.mod_eq_of_lt (bitsOf_lt ..)
      have hfree : x.hold = false := by simpa using (Bool.and_true x.hold).symm.trans hhold
      refine ⟨?_, rfl⟩
      rw [wf_moveToRegister, hx, hfree, Reg.wf, BitVec.toNat_ofNat, hidx]
      simpa using hsize
    · split at h <;> cases h
      have hfree : x.hold = false := by simpa using (Bool.and_true x.hold).symm.trans hhold
      refine ⟨?_, rfl⟩
      rw [wf_moveToStream, hx, hfree]
      rfl

/-- What a move word decodes to is a well-formed move. -/
theorem wf_of_decodeMove {w : BitVec 32} {lit : Option Word} {i : Instr} (h : decodeMove w lit = .ok i) : i.wf = true ∧ i.move.isSome = true := by
  unfold decodeMove at h
  dsimp only at h
  split at h
  · cases h
  rename_i x hsrc
  split at h
  · cases h
  rename_i j hdest
  split at h <;> cases h
  rename_i hhold
  obtain ⟨hwf, hm⟩ := wf_of_decodeDest hdest (wf_of_decodeSrc hsrc) (by simpa using hhold)
  exact ⟨hwf, by rw [hm]; rfl⟩

/-! ## Control operations (R30, R33) -/

theorem litOf_num (l : Lit) : litOf l.num = some l := by cases l <;> rfl

theorem litNum_lt (l : Lit) : l.num < 4 := by cases l <;> decide

/-- A control operation is well-formed when it keeps the limits of its operand (R33, R34). -/
theorem wf_of_head {i : Instr} {h : CtlHead} (hi : i.head = some h) : i.wf = i.ctlOk := by cases i <;> cases hi <;> rfl

/-- The op `op` and operand `n` stand for the control operation `i` (R33). -/
structure Operates (i : Instr) (h : CtlHead) (lit : Word) (op n : Nat) : Prop where
  code : encodeOp i = 2 ^ 21 * op + n
  op_lt : op < 2 ^ 5
  operand_lt : n < 2 ^ 21
  decodes : decodeOp h op n lit = .ok i

/-- A well-formed control operation decodes from its op and operand. -/
theorem decodeOp_encodeOp {i : Instr} {h : CtlHead} {lit : Word} (hi : i.head = some h) (hwf : i.wf = true)
    (hlit : ∀ h body st t strides, i = .ctlLoop h body st t strides → lit = strides) : ∃ op n, Operates i h lit op n := by
  have hok : i.ctlOk = true := wf_of_head hi ▸ hwf
  cases i <;> cases hi
  case ctlNop => exact ⟨0, 0, rfl, by decide, by decide, rfl⟩
  case ctlStall m => exact ⟨1, m.toNat, rfl, by decide, m.isLt, by simp [decodeOp]⟩
  case ctlBra d =>
    have hd : d.toNat ≠ 0 := fun h0 => of_decide_eq_true hok (BitVec.eq_of_toNat_eq h0)
    exact ⟨2, d.toNat, rfl, by decide, d.isLt, by simp [decodeOp, hd]⟩
  case ctlBrp p inv d =>
    have hd : d.toNat ≠ 0 := fun h0 => of_decide_eq_true hok (BitVec.eq_of_toNat_eq h0)
    have hp := p.isLt
    have hinv := b2n_lt inv
    have hdl := d.isLt
    obtain ⟨n, hn⟩ : ∃ n, n = 2 ^ 17 * p.toNat + 2 ^ 16 * b2n inv + d.toNat := ⟨_, rfl⟩
    obtain ⟨h17, h16, h0⟩ : bitsOf n 17 4 = p.toNat ∧ bitsOf n 16 1 = b2n inv ∧ bitsOf n 0 16 = d.toNat := by simp only [bitsOf_eq]; omega
    exact ⟨3, n, by simp only [encodeOp]; omega, by decide, by omega, by simp [decodeOp, h17, h16, h0, hd]⟩
  case ctlBri x =>
    have hx := x.isLt
    have h6 : bitsOf x.toNat 6 15 = 0 := by rw [bitsOf_eq]; omega
    exact ⟨4, x.toNat, rfl, by decide, by omega, by simp [decodeOp, h6]⟩
  case ctlCall d => exact ⟨5, d.toNat, rfl, by decide, d.isLt, by simp [decodeOp]⟩
  case ctlRet => exact ⟨6, 0, rfl, by decide, by decide, rfl⟩
  case ctlLoop body st t strides =>
    have hbody := body.isLt
    have hst := st.isLt
    have ht := t.isLt
    obtain ⟨hb, hs⟩ : body.toNat ≠ 0 ∧ ¬ 6 < st.toNat := by
      simp only [Instr.ctlOk, Bool.and_eq_true, decide_eq_true_eq] at hok
      obtain ⟨⟨hb, hs⟩, -⟩ := hok
      exact ⟨fun h0 => hb (BitVec.eq_of_toNat_eq h0), by omega⟩
    obtain ⟨n, hn⟩ : ∃ n, n = 2 ^ 9 * body.toNat + 2 ^ 6 * st.toNat + t.toNat := ⟨_, rfl⟩
    obtain ⟨h9, h6, h0⟩ : bitsOf n 9 12 = body.toNat ∧ bitsOf n 6 3 = st.toNat ∧ bitsOf n 0 6 = t.toNat := by simp only [bitsOf_eq]; omega
    exact ⟨7, n, by simp only [encodeOp]; omega, by decide, by omega, by simp [decodeOp, h9, h6, h0, hb, hs, hlit _ _ _ _ _ rfl]⟩
  case ctlLend b =>
    have hb := b.isLt
    have hne : b.toNat ≠ 0 := fun h0 => of_decide_eq_true hok (BitVec.eq_of_toNat_eq h0)
    obtain ⟨h16, h0⟩ : bitsOf b.toNat 16 5 = 0 ∧ bitsOf b.toNat 0 16 = b.toNat := by simp only [bitsOf_eq]; omega
    exact ⟨8, b.toNat, rfl, by decide, by omega, by simp [decodeOp, h16, h0, hne]⟩
  case ctlLbrk => exact ⟨9, 0, rfl, by decide, by decide, rfl⟩
  case ctlWait idx sem =>
    have hidx := idx.isLt
    have hsem := b2n_lt sem
    have hlim : ¬ (b2n sem = 1 ∧ 15 < idx.toNat) := by
      rintro ⟨h1, h15⟩
      cases sem
      · exact absurd h1 (by decide)
      · have : idx.toNat ≤ 15 := by simpa [Instr.ctlOk] using hok
        omega
    obtain ⟨n, hn⟩ : ∃ n, n = 2 ^ 15 * idx.toNat + 2 ^ 14 * b2n sem := ⟨_, rfl⟩
    obtain ⟨h15, h14, h0⟩ : bitsOf n 15 6 = idx.toNat ∧ bitsOf n 14 1 = b2n sem ∧ bitsOf n 0 14 = 0 := by simp only [bitsOf_eq]; omega
    exact ⟨10, n, by simp only [encodeOp]; omega, by decide, by omega, by simp [decodeOp, h15, h14, h0, hlim]⟩
  case ctlTrap => exact ⟨11, 0, rfl, by decide, by decide, rfl⟩
  case ctlFmt f v =>
    have hf := f.isLt
    have hv := v.isLt
    have hlegal : fmtLegal f.toNat v.toNat = true := hok
    obtain ⟨n, hn⟩ : ∃ n, n = 2 ^ 16 * f.toNat + v.toNat := ⟨_, rfl⟩
    obtain ⟨h16, h0⟩ : bitsOf n 16 5 = f.toNat ∧ bitsOf n 0 16 = v.toNat := by simp only [bitsOf_eq]; omega
    exact ⟨12, n, by simp only [encodeOp]; omega, by decide, by omega, by simp [decodeOp, h16, h0, hlegal]⟩
  case ctlUiret => exact ⟨13, 0, rfl, by decide, by decide, rfl⟩
  case ctlStrokeend => exact ⟨14, 0, rfl, by decide, by decide, rfl⟩
  case ctlHalt => exact ⟨15, 0, rfl, by decide, by decide, rfl⟩
  case ctlSret => exact ⟨16, 0, rfl, by decide, by decide, rfl⟩

/-- Every control operation has a word. -/
theorem encodeCtl_some {i : Instr} {h : CtlHead} (hi : i.head = some h) : ∃ w, encodeCtl i = some w := by
  rw [encodeCtl, hi]
  exact ⟨_, rfl⟩

/-- A well-formed control operation decodes from its word. -/
theorem decodeCtl_encodeCtl {i : Instr} {h : CtlHead} {lit : Word} (hi : i.head = some h) (hwf : i.wf = true)
    (hlit : ∀ h body st t strides, i = .ctlLoop h body st t strides → lit = strides)
    {w : BitVec 32} (hw : encodeCtl i = some w) : bitsOf w.toNat 26 2 = h.lit.num ∧ decodeCtl w lit = .ok i := by
  obtain ⟨op, n, hcode, hop, hn, hdec⟩ := decodeOp_encodeOp hi hwf hlit
  have hx := h.xstall.isLt
  have hq := b2n_lt h.quiet
  have hl := litNum_lt h.lit
  rw [encodeCtl, hi] at hw
  cases hw
  have hsmall : 2 ^ 29 * h.xstall.toNat + 2 ^ 28 * b2n h.quiet + 2 ^ 26 * h.lit.num + encodeOp i < 2 ^ 32 := by omega
  unfold decodeCtl
  simp only [BitVec.toNat_ofNat, Nat.mod_eq_of_lt hsmall]
  generalize hw : 2 ^ 29 * h.xstall.toNat + 2 ^ 28 * b2n h.quiet + 2 ^ 26 * h.lit.num + encodeOp i = w
  obtain ⟨h29, h28, h26, h21, h0⟩ : bitsOf w 29 3 = h.xstall.toNat ∧ bitsOf w 28 1 = b2n h.quiet ∧ bitsOf w 26 2 = h.lit.num ∧
      bitsOf w 21 5 = op ∧ bitsOf w 0 21 = n := by
    simp only [bitsOf_eq]; omega
  exact ⟨h26, by simp [h29, h28, h26, h21, h0, litOf_num, hdec]⟩

/-- A literal that the form `l` can give: none, a sign-extended 32-bit one, or any (R32). -/
def LitFits (l : Lit) (lit : Word) : Prop :=
  match l with
  | .none => lit = 0
  | .w32 => lit = (lit.setWidth 32).signExtend 64
  | .w64 => True

/-- A value that is not 0 in its field is not 0 as a bit vector. -/
theorem ofNat_ne_zero {w n : Nat} (hn : n < 2 ^ w) (h : n ≠ 0) : BitVec.ofNat w n ≠ 0 := fun h0 =>
  h (by simpa [Nat.mod_eq_of_lt hn] using congrArg BitVec.toNat h0)

/-- What an op and an operand decode to is a well-formed control operation with that head. -/
theorem wf_of_decodeOp {h : CtlHead} {op n : Nat} {lit : Word} {i : Instr} (hd : decodeOp h op n lit = .ok i) (hn : n < 2 ^ 21)
    (hlit : LitFits h.lit lit) : i.head = some h ∧ i.wf = true := by
  suffices hok : i.head = some h ∧ i.ctlOk = true from ⟨hok.1, (wf_of_head hok.1).trans hok.2⟩
  have hfield (lo w : Nat) : bitsOf n lo w % 2 ^ w = bitsOf n lo w := Nat.mod_eq_of_lt (bitsOf_lt ..)
  unfold decodeOp at hd
  split at hd
  case h_2 | h_6 => cases hd; exact ⟨rfl, rfl⟩
  case h_18 => cases hd
  all_goals split at hd <;> [cases hd; skip]
  case h_3 hne => cases hd; exact ⟨rfl, decide_eq_true (ofNat_ne_zero hn hne)⟩
  case h_4 hne => cases hd; exact ⟨rfl, decide_eq_true (ofNat_ne_zero (bitsOf_lt ..) hne)⟩
  case h_8 hlim =>
    cases hd
    obtain ⟨hbody, hst⟩ := not_or.mp hlim
    refine ⟨rfl, ?_⟩
    have h1 : BitVec.ofNat 12 (bitsOf n 9 12) ≠ 0 := ofNat_ne_zero (bitsOf_lt ..) hbody
    have h2 : (BitVec.ofNat 3 (bitsOf n 6 3)).toNat ≤ 6 := by rw [BitVec.toNat_ofNat, hfield]; exact not_lt.mp hst
    rw [Instr.ctlOk, decide_eq_true h1, decide_eq_true h2]
    cases hl : h.lit <;> rw [hl] at hlit
    · exact decide_eq_true hlit
    · exact decide_eq_true hlit
    · rfl
  case h_9 hlow =>
    split at hd <;> cases hd
    rename_i hne
    exact ⟨rfl, decide_eq_true (ofNat_ne_zero (bitsOf_lt ..) hne)⟩
  case h_11 hlow =>
    split at hd <;> cases hd
    rename_i hlim
    refine ⟨rfl, ?_⟩
    rw [Instr.ctlOk, BitVec.toNat_ofNat, hfield]
    by_cases h14 : bitsOf n 14 1 = 1
    · simpa [h14] using hlim
    · simp [h14]
  case h_13 hlegal =>
    cases hd
    refine ⟨rfl, ?_⟩
    rw [Instr.ctlOk, BitVec.toNat_ofNat, BitVec.toNat_ofNat, hfield, hfield]
    simpa using hlegal
  all_goals cases hd; exact ⟨rfl, rfl⟩

/-- What a control word decodes to is a well-formed control operation with the word's literal form. -/
theorem wf_of_decodeCtl {w : BitVec 32} {lit : Word} {i : Instr} {l : Lit} (hd : decodeCtl w lit = .ok i) (hl : litOf (bitsOf w.toNat 26 2) = some l)
    (hlit : LitFits l lit) : ∃ h, i.head = some h ∧ h.lit = l ∧ i.wf = true := by
  unfold decodeCtl at hd
  simp only [hl] at hd
  obtain ⟨hi, hwf⟩ := wf_of_decodeOp hd (bitsOf_lt ..) hlit
  exact ⟨_, hi, rfl, hwf⟩

/-! ## Bundles (R29, R32) -/

/-- Digit k of a number made of digits. -/
theorem packNat_digit (w : Nat) (xs : List Nat) (k : Nat) : bitsOf (packNat w xs) (w * k) w = (xs[k]?).getD 0 % 2 ^ w := by
  induction xs generalizing k with
  | nil => simp [packNat, bitsOf_eq]
  | cons x xs ih =>
    have hx : x % 2 ^ w < 2 ^ w := Nat.mod_lt _ (Nat.two_pow_pos w)
    cases k with
    | zero => simp [packNat, bitsOf_eq]
    | succ k =>
      have hk := ih k
      rw [bitsOf_eq] at hk ⊢
      rw [packNat, Nat.mul_succ, Nat.add_comm (w * k), pow_add, ← Nat.div_div_eq_div_mul, Nat.add_mul_div_left _ _ (Nat.two_pow_pos w),
        Nat.div_eq_of_lt hx, Nat.zero_add, hk]
      rfl

theorem packNat_lt (w : Nat) (xs : List Nat) : packNat w xs < 2 ^ (w * xs.length) := by
  induction xs with
  | nil => simp [packNat]
  | cons x xs ih =>
    have hx : x % 2 ^ w < 2 ^ w := Nat.mod_lt _ (Nat.two_pow_pos w)
    have : 2 ^ w * (packNat w xs + 1) ≤ 2 ^ w * 2 ^ (w * xs.length) := Nat.mul_le_mul_left _ ih
    rw [packNat, List.length_cons, Nat.mul_succ, Nat.add_comm (w * xs.length), pow_add]
    rw [Nat.mul_succ] at this
    omega

/-- Word k of a bundle of eight words. -/
theorem bundleWord_pack {ws : List Nat} (hlen : ws.length = 8) (k : Nat) : bundleWord (BitVec.ofNat 256 (packNat 32 ws)) k = BitVec.ofNat 32 ((ws[k]?).getD 0) := by
  have hlt : packNat 32 ws % 2 ^ 256 = packNat 32 ws := Nat.mod_eq_of_lt (by simpa [hlen] using packNat_lt 32 ws)
  apply BitVec.eq_of_toNat_eq
  rw [bundleWord, BitVec.toNat_ofNat, BitVec.toNat_ofNat, BitVec.toNat_ofNat, hlt, packNat_digit, Nat.mod_mod]

/-- The literal form of a bundle stands in its control word. -/
theorem litField_bundleWord (b : BitVec 256) : bitsOf (bundleWord b 0).toNat 26 2 = bitsOf b.toNat 26 2 := by
  simp only [bundleWord, BitVec.toNat_ofNat, bitsOf_eq]; omega

/-- The moves that the slots from k on decode to. -/
theorem decodeSlots_of_words {b : BitVec 256} {lit : Option Word} {ms : List Instr} {k : Nat}
    (h : ∀ j i, ms[j]? = some i → decodeMove (bundleWord b (k + j)) lit = .ok i) : decodeSlots b lit ms.length k = .ok ms := by
  induction ms generalizing k with
  | nil => rfl
  | cons i ms ih =>
    have hi : decodeMove (bundleWord b k) lit = .ok i := h 0 i rfl
    have hrest : decodeSlots b lit ms.length (k + 1) = .ok ms := ih fun j i hj => by
      rw [Nat.add_right_comm k 1 j]; exact h (j + 1) i hj
    simp only [List.length_cons, decodeSlots, hi, hrest]

/-- The slots decode to well-formed moves alone. -/
theorem wf_of_decodeSlots {b : BitVec 256} {lit : Option Word} {n k : Nat} {ms : List Instr} (h : decodeSlots b lit n k = .ok ms) :
    ∀ i ∈ ms, i.wf = true ∧ i.move.isSome = true := by
  induction n generalizing k ms with
  | zero => cases h; simp
  | succ n ih =>
    rw [decodeSlots] at h
    split at h
    · cases h
    rename_i i hi
    split at h
    · cases h
    rename_i is hrest
    cases h
    exact List.forall_mem_cons.mpr ⟨wf_of_decodeMove hi, ih hrest⟩

/-- The low half of a word sign-extended to 64 bits. -/
theorem setWidth_signExtend (v : BitVec 32) : (v.signExtend 64).setWidth 32 = v := by
  ext k hk
  have hk64 : k < 64 := by omega
  simp [BitVec.getElem_signExtend, hk, hk64]

/-- The literal of a bundle is one that its form can give. -/
theorem litFits_bundleLit {b : BitVec 256} {l : Lit} (hl : litOf (bitsOf b.toNat 26 2) = some l) : LitFits l ((bundleLit b).getD 0) := by
  unfold bundleLit
  rw [hl]
  cases l with
  | none => rfl
  | w32 => exact congrArg (BitVec.signExtend 64) (setWidth_signExtend (bundleWord b 7)).symm
  | w64 => trivial

/-- Whatever a bundle decodes to is well-formed. -/
theorem wf_of_decodeBundle {w : BitVec 256} {b : Bundle} (h : decodeBundle w = .ok b) :
    b.ctl.head.isSome = true ∧ b.ctl.wf = true ∧ ∀ i ∈ b.moves, i.wf = true ∧ i.move.isSome = true := by
  unfold decodeBundle at h
  split at h
  · cases h
  rename_i c hc
  split at h
  · cases h
  rename_i ms hms
  cases h
  obtain ⟨l, hl⟩ : ∃ l, litOf (bitsOf (bundleWord w 0).toNat 26 2) = some l := by
    unfold decodeCtl at hc
    dsimp only at hc
    split at hc
    · cases hc
    · exact ⟨_, ‹_›⟩
  obtain ⟨h, hi, -, hwf⟩ := wf_of_decodeCtl hc hl (litFits_bundleLit (litField_bundleWord w ▸ hl))
  exact ⟨by rw [hi]; rfl, hwf, wf_of_decodeSlots hms⟩

/-- The words that a literal takes behind the moves (R32). -/
def litWords (l : Lit) (v : Nat) : List Nat :=
  match l with
  | .none => []
  | .w32 => [v % 2 ^ 32]
  | .w64 => [v % 2 ^ 32, v / 2 ^ 32]

theorem litWords_length (l : Lit) (v : Nat) : (litWords l v).length = 7 - slotCount l := by cases l <;> rfl

/-- The word of a move as a number. -/
def moveNat (i : Instr) : Nat := ((encodeMove i).getD 0).toNat

/-- The eight words of a bundle with every slot filled. -/
def bundleWords (b : Bundle) (l : Lit) (lit : Option Word) : List Nat :=
  ((encodeCtl b.ctl).getD 0).toNat :: (b.moves.map moveNat ++ litWords l (lit.getD 0).toNat)

section Pack
variable {b : Bundle} {h : CtlHead} {lit : Option Word} (hi : b.ctl.head = some h) (hlen : b.moves.length = slotCount h.lit)

include hlen in
theorem bundleWords_length : (bundleWords b h.lit lit).length = 8 := by
  simp only [bundleWords, List.length_cons, List.length_append, List.length_map, litWords_length, hlen]
  cases h.lit <;> rfl

include hi hlen

/-- A bundle with every slot filled is its eight words. -/
theorem encodeBundle_eq : encodeBundle b lit = BitVec.ofNat 256 (packNat 32 (bundleWords b h.lit lit)) := by
  simp only [encodeBundle, hi, Option.map_some, Option.getD_some, List.length_map, hlen, Nat.sub_self, List.replicate_zero, List.append_nil]
  cases h.lit <;> rfl

/-- Word k of the bundle. -/
theorem bundleWord_encodeBundle (k : Nat) : bundleWord (encodeBundle b lit) k = BitVec.ofNat 32 (((bundleWords b h.lit lit)[k]?).getD 0) := by
  rw [encodeBundle_eq hi hlen, bundleWord_pack (bundleWords_length hlen)]

theorem bundleWord_ctl : bundleWord (encodeBundle b lit) 0 = (encodeCtl b.ctl).getD 0 := by
  rw [bundleWord_encodeBundle hi hlen]
  exact BitVec.ofNat_toNat 32 _ |>.trans (BitVec.setWidth_eq _)

theorem bundleWord_move {j : Nat} {i : Instr} (hj : b.moves[j]? = some i) : bundleWord (encodeBundle b lit) (1 + j) = (encodeMove i).getD 0 := by
  have hw : (bundleWords b h.lit lit)[1 + j]? = some (moveNat i) := by
    have hlt : j < b.moves.length := (List.getElem?_eq_some_iff.mp hj).1
    rw [Nat.add_comm, bundleWords, List.getElem?_cons_succ, List.getElem?_append_left (by simpa using hlt), List.getElem?_map, hj]
    rfl
  rw [bundleWord_encodeBundle hi hlen, hw]
  simp [moveNat]

/-- The words behind the moves are the literal's. -/
theorem bundleWord_literal {j : Nat} : bundleWord (encodeBundle b lit) (1 + slotCount h.lit + j) =
    BitVec.ofNat 32 (((litWords h.lit (lit.getD 0).toNat)[j]?).getD 0) := by
  have hw : (bundleWords b h.lit lit)[1 + slotCount h.lit + j]? = (litWords h.lit (lit.getD 0).toNat)[j]? := by
    rw [Nat.add_assoc, Nat.add_comm, bundleWords, List.getElem?_cons_succ, List.getElem?_append_right (by simp [hlen]), List.length_map, hlen,
      Nat.add_sub_cancel_left]
  rw [bundleWord_encodeBundle hi hlen, hw]

/-- The literal reads back from the bundle. -/
theorem bundleLit_encodeBundle (hform : litOf (bitsOf (encodeBundle b lit).toNat 26 2) = some h.lit)
    (hnone : h.lit = .none → lit = none) (h32 : h.lit = .w32 → ∃ v, lit = some ((v : BitVec 32).signExtend 64))
    (h64 : h.lit = .w64 → lit.isSome = true) : bundleLit (encodeBundle b lit) = lit := by
  have hword := fun j => bundleWord_literal (j := j) (lit := lit) hi hlen
  unfold bundleLit
  rw [hform]
  cases hl : h.lit <;> rw [hl] at hword
  case none => exact (hnone hl).symm
  case w32 =>
    obtain ⟨v, rfl⟩ := h32 hl
    have h7 : bundleWord (encodeBundle b (some (v.signExtend 64))) 7 = v := by
      calc bundleWord _ 7 = BitVec.ofNat 32 ((v.signExtend 64).toNat % 2 ^ 32) := hword 0
        _ = BitVec.ofNat 32 ((v.signExtend 64).setWidth 32).toNat := by rw [BitVec.toNat_setWidth]
        _ = v := by rw [setWidth_signExtend, BitVec.ofNat_toNat, BitVec.setWidth_eq]
    rw [h7]
  case w64 =>
    obtain ⟨v, rfl⟩ := Option.isSome_iff_exists.mp (h64 hl)
    have h6 : bundleWord (encodeBundle b (some v)) 6 = BitVec.ofNat 32 (v.toNat % 2 ^ 32) := hword 0
    have h7 : bundleWord (encodeBundle b (some v)) 7 = BitVec.ofNat 32 (v.toNat / 2 ^ 32) := hword 1
    have hv := v.isLt
    refine congrArg some (BitVec.eq_of_toNat_eq ?_)
    rw [h6, h7]
    simp only [BitVec.toNat_ofNat]
    omega

end Pack

/-- A well-formed bundle with all its slots and its literal decodes from its 256 bits. -/
theorem decodeBundle_encodeBundle {b : Bundle} {h : CtlHead} {lit : Option Word} (hi : b.ctl.head = some h) (hwf : b.ctl.wf = true)
    (hlen : b.moves.length = slotCount h.lit) (hmoves : ∀ i ∈ b.moves, i.wf = true ∧ i.move.isSome = true ∧ ∀ v, i.literal = some v → lit = some v)
    (hloop : ∀ h body st t strides, b.ctl = .ctlLoop h body st t strides → strides = lit.getD 0)
    (hnone : h.lit = .none → lit = none) (h32 : h.lit = .w32 → ∃ v, lit = some ((v : BitVec 32).signExtend 64))
    (h64 : h.lit = .w64 → lit.isSome = true) : decodeBundle (encodeBundle b lit) = .ok b := by
  obtain ⟨w, hw⟩ := encodeCtl_some hi
  obtain ⟨hform, hctl⟩ := decodeCtl_encodeCtl hi hwf (fun h body st t strides he => (hloop h body st t strides he).symm) hw
  have hw0 : bundleWord (encodeBundle b lit) 0 = w := by rw [bundleWord_ctl hi hlen, hw]; rfl
  have hlit : bundleLit (encodeBundle b lit) = lit := by
    refine bundleLit_encodeBundle hi hlen ?_ hnone h32 h64
    rw [← litField_bundleWord, hw0, hform, litOf_num]
  have hslots : decodeSlots (encodeBundle b lit) lit (slotCount h.lit) 1 = .ok b.moves := by
    rw [← hlen]
    refine decodeSlots_of_words fun j i hj => ?_
    obtain ⟨hiwf, hmove, hlitv⟩ := hmoves i (List.mem_of_getElem? hj)
    obtain ⟨⟨g, x⟩, hm⟩ := Option.isSome_iff_exists.mp hmove
    obtain ⟨u, hu⟩ := encodeMove_some hm
    rw [bundleWord_move hi hlen hj, hu]
    exact decodeMove_encodeMove hm hiwf (fun v hv => hlitv v (by rw [Instr.literal, hm, hv])) hu
  simp only [decodeBundle, hlit, hw0, hctl, hi, Option.map_some, Option.getD_some, hslots]

/-- Settles O46: the round trips of moves, control operations and bundles, and the limits that decoding keeps. -/
theorem encodeDecode : Obligations.EncodeDecode := by
  refine ⟨fun i g x hm hwf => ?_, fun i h hi hwf => ?_, fun b h lit hi hwf hlen hmoves hloop hnone h32 h64 => ?_, fun w b => wf_of_decodeBundle⟩
  · obtain ⟨w, hw⟩ := encodeMove_some hm
    exact ⟨w, by rw [encode, encodeCtl, head_of_move hm]; exact hw, fun lit hlit => decodeMove_encodeMove hm hwf hlit hw⟩
  · obtain ⟨w, hw⟩ := encodeCtl_some hi
    exact ⟨w, by rw [encode, hw], fun lit hlit => (decodeCtl_encodeCtl hi hwf hlit hw).2⟩
  · exact decodeBundle_encodeBundle hi hwf hlen hmoves hloop hnone h32 h64

end Sys2Proof.Machine
end

section
/-!
PROOF. The words that the spec works out (R30, R33, R35, R37, R38, R45, R49), each decoded.
-/
namespace Sys2Proof.Machine
open Sys2Proof.Machine.Claims

/-- Settles O45: each word decodes by computation. -/
theorem workedWords : Obligations.WorkedWords := by
  refine ⟨fun e he => ?moves, fun e he => ?control, rfl, rfl, rfl⟩
  case moves => fin_cases he <;> rfl
  case control => fin_cases he <;> rfl

end Sys2Proof.Machine
end

section
/-!
PROOF. The moves (R36-R42, R49, R92, R93, R230, R231): what a register, an operand port and a stream hold after a write, what a source
reads, and which moves do nothing or trap.
-/
namespace Sys2Proof.Machine
open Sys2Proof.Machine.Claims

/-! ## A write to a register (R36, R39, R40) -/

/-- A write to this register is discarded (R36). -/
def discards (r : Reg) : Prop := (r.cls = .x ∧ r.idx.toNat = 0) ∨ (r.cls = .p ∧ r.idx.toNat ∈ [0, 14, 15])

/-- What a register of a class keeps of a value (R40): its low-order bits; a predicate of 3 is stored as unknown. -/
def keptBits (c : RegClass) (v : Vec) : Vec :=
  match c with
  | .x | .k => wordVec (v.setWidth 64)
  | .v | .j => v
  | .p => (if v.setWidth 2 = (3 : BitVec 2) then (2 : BitVec 2) else v.setWidth 2).setWidth 1024

theorem getX_putX (t : Tile) (i j : Nat) (w : Word) : getX (putX t i w) j = if j = i ∧ i ≠ 0 then w else getX t j := by
  unfold putX getX
  by_cases hi : i = 0
  · simp [hi]
  · by_cases hj : j = 0 <;> simp [hi, hj, tget_tset, Ne.symm hi]

theorem getP_putP (t : Tile) (i j : Nat) (w : BitVec 2) : getP (putP t i w) j = if j = i ∧ i ≠ 0 then (if w = 3 then 2 else w) else getP t j := by
  unfold putP getP
  by_cases hi : i = 0
  · simp [hi]
  · by_cases hj : j = 0 <;> simp [hi, hj, tget_tset, Ne.symm hi]

theorem writeReg_discards {r : Reg} (h : discards r) (t : Tile) (v : Vec) : writeReg t r v = t := by
  unfold writeReg
  rcases h with ⟨hc, hi⟩ | ⟨hc, hi⟩
  · simp [hc, hi, putX]
  · simp only [hc]
    split
    · rfl
    · next hne =>
      have h0 : r.idx.toNat = 0 := by
        simp only [List.mem_cons, List.not_mem_nil, or_false] at hi
        exact hi.resolve_right hne
      simp [h0, putP]

/-- An x register written leaves every other class. -/
theorem putX_regs (t : Tile) (i : Nat) (w : Word) : ∃ xs, putX t i w = { t with regs := { t.regs with x := xs } } := by
  unfold putX
  split
  · exact ⟨t.regs.x, rfl⟩
  · exact ⟨_, rfl⟩

/-- A predicate written leaves every other class. -/
theorem putP_regs (t : Tile) (i : Nat) (w : BitVec 2) : ∃ ps, putP t i w = { t with regs := { t.regs with p := ps } } := by
  unfold putP
  split
  · exact ⟨t.regs.p, rfl⟩
  · exact ⟨_, rfl⟩

/-- A register of another class reads as before. -/
theorem readReg_writeReg_class {r q : Reg} (h : q.cls ≠ r.cls) (t : Tile) (v : Vec) : readReg (writeReg t r v) q = readReg t q := by
  obtain ⟨c, i⟩ := r
  obtain ⟨d, j⟩ := q
  obtain ⟨xs, hx⟩ := putX_regs t i.toNat (vecWord v)
  obtain ⟨ps, hp⟩ := putP_regs t i.toNat (v.setWidth 2)
  cases c <;> simp only [writeReg, hx, hp]
  case p => split <;> cases d <;> first | rfl | exact absurd rfl h
  all_goals cases d <;> first | rfl | exact absurd rfl h

/-- Every register after a write to one that keeps it. -/
theorem readReg_writeReg {r : Reg} (h : ¬ discards r) (t : Tile) (v : Vec) (q : Reg) :
    readReg (writeReg t r v) q = if q.cls = r.cls ∧ q.idx = r.idx then keptBits r.cls v else readReg t q := by
  by_cases hc : q.cls = r.cls
  · obtain ⟨c, i⟩ := r
    obtain ⟨d, j⟩ := q
    obtain rfl : d = c := hc
    have hij : j = i ↔ j.toNat = i.toNat := BitVec.toNat_inj.symm
    cases d
    case x =>
      have hi : i.toNat ≠ 0 := fun h0 => h (.inl ⟨rfl, h0⟩)
      simp only [readReg, writeReg, getX_putX, hij, hi, true_and, and_true, ne_eq, not_false_eq_true]
      split <;> rfl
    case p =>
      obtain ⟨h0, h14, h15⟩ : i.toNat ≠ 0 ∧ i.toNat ≠ 14 ∧ i.toNat ≠ 15 := by simpa [discards] using h
      simp only [readReg, writeReg, h14, h15, or_self, if_false, getP_putP, hij, h0, true_and, and_true, ne_eq, not_false_eq_true]
      split <;> rfl
    all_goals
      simp only [readReg, writeReg, tget_tset, hij, true_and]
      split <;> rfl
  · rw [readReg_writeReg_class hc, if_neg (fun h => hc h.1)]

/-- A register write changes the registers alone. -/
theorem writeReg_frame (t : Tile) (r : Reg) (v : Vec) : { writeReg t r v with regs := t.regs } = t := by
  obtain ⟨c, i⟩ := r
  obtain ⟨xs, hx⟩ := putX_regs t i.toNat (vecWord v)
  obtain ⟨ps, hp⟩ := putP_regs t i.toNat (v.setWidth 2)
  cases c <;> simp only [writeReg, hx, hp]
  split <;> rfl

/-- A tile is between bundles where its control state is one between bundles. -/
theorem AtRest_of_ctl {t u : Tile} (h : AtRest t) (hc : u.ctl = t.ctl) : AtRest u := ⟨hc ▸ h.traps, hc ▸ h.mode⟩

/-- Settles O9: a register write, which the write of a discarding register leaves out. -/
theorem registerWrites : Obligations.RegisterWrites := by
  intro g x r s v t hf
  have hframe := writeReg_frame t r v
  have hrest : AtRest (writeReg t r v) := AtRest_of_ctl (Fires_rest hf) (by simp)
  refine ⟨writeReg t r v, runMove_ok hf rfl hrest, fun q => ?_, hframe⟩
  by_cases hd : discards r
  · rw [writeReg_discards hd, if_neg]
    rintro ⟨-, -, hx, hp⟩
    exact hd.elim hx hp
  · have hx : ¬ (r.cls = .x ∧ r.idx.toNat = 0) := fun h => hd (.inl h)
    have hp : ¬ (r.cls = .p ∧ r.idx.toNat ∈ [0, 14, 15]) := fun h => hd (.inr h)
    rw [readReg_writeReg hd]
    simp only [hx, hp, not_false_eq_true, and_true]
    rfl

/-! ## Operand ports and streams (R38, R92, R93, R230, R231) -/

/-- The operand ports and the results of the socket after a write to an operand port, and the other sockets. -/
theorem setOperand_spec (t : Tile) (k o : Nat) (v : Vec) (held : Bool) :
    (∀ p, tfind (sockOf (setOperand t k o v held) k).o p =
      if p = o then some { val := v, held := held && !sockFree t k } else tfind (sockOf t k).o p) ∧
    (sockOf (setOperand t k o v held) k).y = (sockOf t k).y ∧ ∀ n, n ≠ k → sockOf (setOperand t k o v held) n = sockOf t n := by
  have hsame : sockOf (setOperand t k o v held) k = { sockOf t k with o := tput (sockOf t k).o o { val := v, held := held && !sockFree t k } } :=
    tget_tset_same ..
  refine ⟨fun p => ?_, by rw [hsame], fun n hn => tget_tset_other _ _ _ hn⟩
  rw [hsame]
  by_cases hp : p = o
  · simp [hp]
  · rw [if_neg hp]
    exact tfind_tput_other _ _ hp

section Stream
variable {t : Tile} {f : Nat} {st : Stream} (hst : tfind t.streams f = some st)
include hst

/-- An element that a move writes joins the queue of a stream that has room, or is counted on a stopped one (R231). -/
theorem writeStream_element (slot : Nat) (v : Vec) (hwrite : st.write = true) (hheld : streamHeld t f = false) (hleft : st.moved < walkLen st)
    (hok : elemOk t st st.moved = true) (hroom : st.stopped = true ∨ st.buf.length < 8) : writeStream t slot f v =
      .ok { t with streams := tput t.streams f { st with
        buf := if st.stopped then st.buf else st.buf ++ [(toVec (v.toNat % 2 ^ (8 * 2 ^ st.esz)), 0)], moved := st.moved + 1 } } := by
  simp only [writeStream, hst, hwrite, hheld, not_le.mpr hleft, hok]
  by_cases hstop : st.stopped = true
  · simp [hstop]
  · have hlt := hroom.resolve_left hstop
    simp [hstop, hlt, sizeOf]

/-- A stream bound for reading, one at its end and an element outside the handle are stream faults (R230, R231). -/
theorem writeStream_fault (slot : Nat) (v : Vec)
    (h : st.write = false ∨ (streamHeld t f = false ∧ (walkLen st ≤ st.moved ∨ elemOk t st st.moved = false))) :
    writeStream t slot f v = .fault (streamFault 0 0 slot f) := by
  simp only [writeStream, hst]
  cases hwrite : st.write with
  | false => rfl
  | true =>
    obtain ⟨hheld, hend⟩ := h.resolve_left (by simp [hwrite])
    by_cases hleft : walkLen st ≤ st.moved
    · simp [hheld, hleft]
    · simp [hheld, hleft, hend.resolve_left hleft]

end Stream

/-- Settles O10: an operand port set, an element written, or the stream fault. -/
theorem portAndStreamWrites : Obligations.PortAndStreamWrites := by
  refine ⟨fun g x k o s v t hf => ?_, fun g x f s v t hf => ⟨fun st hst hwrite hheld hleft hok hroom => ?_, fun hbad => ?_⟩⟩
  · obtain ⟨hports, hresults, hothers⟩ := setOperand_spec t k.toNat o.toNat v x.hold
    exact ⟨_, runMove_ok hf rfl (AtRest_of_ctl (Fires_rest hf) rfl), hports, hresults, hothers, rfl⟩
  · have hfire := congrArg (fun r => Res.bind r fun t => .ok { s with cur := t }) (writeStream_element hst 1 v hwrite hheld hleft hok hroom)
    refine ⟨_, runMove_ok hf hfire (AtRest_of_ctl (Fires_rest hf) rfl), tfind_tput_same .., fun n hn => tfind_tput_other _ _ hn, rfl⟩
  · have hfault : writeStream t 1 f.toNat v = .fault (streamFault 0 0 1 f.toNat) := by
      cases hst : tfind t.streams f.toNat with
      | none => simp [writeStream, hst]
      | some st => rw [hst] at hbad; exact writeStream_fault hst 1 v hbad
    have hfire : fireStream f 1 x.hold v { s with cur := t } = .fault (streamFault 0 0 1 f.toNat) := by
      rw [fireStream, hfault]
      rfl
    exact (runMove_fires hf _).trans (by rw [hfire]; rfl)

/-! ## Guards and legality (R36, R49, R316) -/

/-- A guard holds on true, an inverted one on false (R36). -/
theorem guardFires_iff (t : Tile) (g : Guard) : guardFires t g = true ↔ getP t g.pred.toNat = if g.inv then 0 else 1 := by
  unfold guardFires
  cases g.inv <;> simp

/-- What makes a move no legal encoding: its own limits, or a socket that the die leaves absent (R49, R316). -/
theorem moveIllegal_iff {s : State} {i : Instr} : moveIllegal s i = true ↔ i.wf = false ∨ ∃ k ∈ namedSockets i, engineOf s s.cur.id k = 32 := by
  simp [moveIllegal, namesAbsent]

/-- Settles O11: the two outcomes of a move that does not fire. -/
theorem guardsAndLegality : Obligations.GuardsAndLegality := by
  refine ⟨fun i g x s hm hlegal hguard => ?_, fun i g x s hm hillegal => ?_⟩
  · obtain ⟨f, hexec⟩ := exec_move hm
    have hoff : guardFires s.cur g = false := by rw [← Bool.not_eq_true, guardFires_iff]; exact hguard
    rw [hexec, runMove]
    simp [hlegal, hoff]
  · obtain ⟨f, hexec⟩ := exec_move hm
    rw [hexec, runMove, if_pos (moveIllegal_iff.mpr hillegal)]
    rfl

/-! ## Sources (R37, R231, R270) -/

/-- The head of a stream bound for reading (R231). -/
theorem readStream_head {t : Tile} {f : Nat} {st : Stream} {v : Vec} {rest : List (Vec × Nat)} (hst : tfind t.streams f = some st)
    (hread : st.write = false) (hheld : streamHeld t f = false) (hleft : st.moved < walkLen st) (hbuf : st.buf = (v, 0) :: rest) (slot : Nat)
    (peek : Bool) : readStream t slot f peek =
      .ok (v, if peek then t else { t with streams := tput t.streams f { st with buf := rest, moved := st.moved + 1 } }) := by
  simp only [readStream, hst, hread, hheld, not_le.mpr hleft, hbuf]
  cases peek <;> rfl

/-- A queue that nothing was spilled from stays as it is (R297). -/
theorem refill_unspilled {t : Tile} {q : Nat} (h : spillCount t q = 0) : refill t q = t := by
  have hnone : t.net.spill.find? (fun e => e.1 % 4 == q) = none := by
    rw [List.find?_eq_none]
    exact List.filter_eq_nil_iff.mp (List.length_eq_zero_iff.mp h)
  simp [refill, hnone]

/-- The head of a receive queue taken (R270). -/
theorem readQueue_take {t : Tile} {q : Nat} {v : Vec} {rest : List Vec} (h : tget [] t.net.q q = v :: rest) : ∃ t', readQueue t q false = .ok (v, t') ∧
    (spillCount t q = 0 → tget [] t'.net.q q = rest) ∧ { t' with net := t.net } = t := by
  refine ⟨_, by simp only [readQueue, h]; rfl, fun hspill => ?_, ?_⟩
  · rw [refill_unspilled (by exact hspill)]
    exact tget_tset_same ..
  · obtain ⟨n, hn⟩ := refill_frame { t with net := { t.net with q := tset [] t.net.q q rest } } q
    rw [hn]

/-- Settles O12: each source by the rule of its kind. -/
theorem sourceReads : Obligations.SourceReads := by
  intro t n
  refine ⟨fun _ _ => rfl, fun _ _ => rfl, fun _ _ => rfl, fun _ => rfl, fun _ => rfl, fun f pk h st v rest hst hread hheld hleft hbuf => ?stream,
    fun q h v rest hq => ⟨?peek, readQueue_take hq⟩, fun q pk h hq => ?empty, fun h w rest hcq => ?completions⟩
  case stream => exact ⟨_, readStream_head hst hread hheld hleft hbuf n pk, rfl⟩
  case peek => simp [readSrc, readQueue, hq]
  case empty => simp [readSrc, readQueue, hq]
  case completions => exact ⟨by simp [readSrc, readCq, hcq], by simp [readSrc, readCq, hcq]⟩

/-! ## Room at a socket (R45, R92, R95, R96) -/

/-- A trigger that runs free waits for the data-locked results of its socket. -/
theorem accepts_free {t : Tile} {sock code : Nat} (h : runsFree t sock code = true) (outs : List Nat) :
    accepts t sock code outs = if anyLocked (sockOf t sock) then .freeze else .ok () := by
  simp only [accepts, h, if_true]

/-- A data-locked trigger drains the operations in flight of a socket that runs free. -/
theorem accepts_drain {t : Tile} {sock code : Nat} (h : runsFree t sock code = false) (hfree : sockFree t sock = true)
    (hflight : anyFlight (sockOf t sock) = true) (outs : List Nat) : accepts t sock code outs = .drain := by
  simp [accepts, h, hfree, hflight]

/-- A data-locked trigger with nothing to drain waits for a place on each port that it delivers to. -/
theorem accepts_locked {t : Tile} {sock code : Nat} (h : runsFree t sock code = false)
    (hcalm : sockFree t sock = false ∨ anyFlight (sockOf t sock) = false) (outs : List Nat) :
    accepts t sock code outs = if ∃ y ∈ outs, 4 ≤ (portOf (sockOf t sock) y).fifo.length then .freeze else .ok () := by
  have hdrain : (sockFree t sock && anyFlight (sockOf t sock)) = false := by rcases hcalm with h | h <;> simp [h]
  simp [accepts, h, hdrain]

/-- The always data-locked operations of R45: part, compact and expand of vx; idiv, isqrt, iexp and ilog of iv with their contractors. -/
theorem alwaysLocked_iff (sock code : Nat) : alwaysLocked sock code = true ↔
    (sock = 6 ∧ code ∈ [15, 16, 17]) ∨ (sock = 10 ∧ code ∈ [11, 13, 14, 15, 35, 37, 38, 39]) := by
  unfold alwaysLocked
  split
  · simp [or_assoc]
  · simp [or_assoc]
  · simp_all

/-- Settles O15: the branches of the acceptance test, and R45's table. -/
theorem triggerAcceptance : Obligations.TriggerAcceptance := by
  refine ⟨fun t sock code outs => ⟨fun h => accepts_free h outs, fun h hfree hflight => accepts_drain h hfree hflight outs,
    fun h hcalm => accepts_locked h hcalm outs⟩, fun t sock code => ?_⟩
  rw [runsFree, Bool.and_eq_true, Bool.not_eq_true', ← Bool.not_eq_true, alwaysLocked_iff, not_or]
  rfl

end Sys2Proof.Machine
end

section
/-!
PROOF. Control operations (R31, R33, R47, R49, R104-R113, R124): what nop, stall, fmt and the jumps do, and the faults of every one.
-/
namespace Sys2Proof.Machine
open Sys2Proof.Machine.Claims

/-! ## Straight control and jumps (R31, R33, R72, R105) -/

/-- A two's-complement reading is the library's (R52). -/
theorem sintOf_toNat {w : Nat} (d : BitVec w) (hw : 0 < w) : sintOf w d.toNat = d.toInt := by
  have hd : d.toNat < 2 * 2 ^ (w - 1) := by
    rw [← Nat.pow_succ', Nat.succ_eq_add_one, Nat.sub_add_cancel hw]
    exact d.isLt
  have hpos : 0 < 2 ^ (w - 1) := Nat.two_pow_pos _
  have hsign : bitsOf d.toNat (w - 1) 1 = 1 ↔ 2 ^ (w - 1) ≤ d.toNat := by
    have hdigit : d.toNat / 2 ^ (w - 1) < 2 := Nat.div_lt_of_lt_mul (by rwa [Nat.mul_comm] at hd)
    rw [bitsOf, Nat.shiftRight_eq_div_pow, Nat.pow_one, ← Nat.one_le_div_iff hpos]
    generalize d.toNat / 2 ^ (w - 1) = q at hdigit
    omega
  rw [BitVec.toInt_eq_msb_cond, BitVec.msb_eq_decide, sintOf, Nat.mod_eq_of_lt d.isLt]
  simp only [hsign, decide_eq_true_eq]

/-- A tile that goes on at a bundle after cycles without issue, as the model lays it out. -/
theorem goOn_setPc (n pc : Nat) (t : Tile) : goOn n (setPc pc t) = goesOn pc n t := rfl

/-- The control operation finds the tile at its bundle. -/
theorem atControl_pc (i : Instr) (h : CtlHead) (s : State) : (atControl i h s).cur.pc = s.cur.pc := by
  unfold atControl
  dsimp only
  split <;> rfl

/-- A control operation that changes the focused tile alone and leaves no trap does just that. -/
theorem exec_issues {i : Instr} {h : CtlHead} {s : State} (hi : Issues i h s) {f : Tile → Tile}
    (he : ctlEffect i (unmarked s.cur) h.xstall.toNat (atControl i h s) = onCur f (atControl i h s))
    (ht : ∀ t, (f t).ctl.traps = t.ctl.traps) : exec i s = .next (onCur f (atControl i h s)) := by
  refine (exec_control hi.isControl s).trans (congrArg _ (issue_next hi he ?_))
  exact (ht _).trans (atControl_rest hi.rest).traps

/-- Settles O17: each goes on at the next bundle, fmt with its field queued. -/
theorem straightControl : Obligations.StraightControl := by
  refine ⟨fun h s hi => exec_issues hi ?_ fun _ => rfl, fun h m s hi => exec_issues hi ?_ fun _ => rfl,
    fun h f v s hi => exec_issues hi ?_ fun _ => rfl⟩
  all_goals rw [← atControl_pc]; rfl

/-- Where a jump goes does not depend on the marks of the bundle before. -/
theorem ctlTarget_unmarked (t : Tile) (i : Instr) : ctlTarget (unmarked t) i = ctlTarget t i := by cases i <;> rfl

/-- Where a brp goes (R105). -/
theorem ctlTarget_brp (t : Tile) (h : CtlHead) (p : BitVec 4) (inv : Bool) (d : BitVec 16) : ctlTarget t (.ctlBrp h p inv d) =
    if getP t p.toNat = (if inv then 0 else 1) then some ((t.pc.toNat : Int) + d.toInt) else none := by
  have hg := guardFires_iff t { inv := inv, pred := p }
  rw [← sintOf_toNat d (by decide)]
  simp only [ctlTarget, hg]

/-- Settles O18: every jump goes on at its target, which the tile before the bundle gives. -/
theorem jumpControl : Obligations.JumpControl := by
  refine ⟨fun h d s hi => ?bra, fun h p inv d s hi => ?brp, fun h x s hi => ?bri, fun h d s hi => ?call, fun h s hi => ?ret⟩
  case bra =>
    refine exec_issues hi ?_ fun _ => rfl
    rw [← sintOf_toNat d (by decide)]
    rfl
  case brp =>
    refine exec_issues hi ?_ fun _ => rfl
    have hgo : ctlEffect (.ctlBrp h p inv d) (unmarked s.cur) h.xstall.toNat (atControl (.ctlBrp h p inv d) h s) =
        onCur (fun t => goOn h.xstall.toNat (match ctlTarget (unmarked s.cur) (.ctlBrp h p inv d) with
          | some a => setPc a.toNat t
          | none => setPc (t.pc.toNat + 1) t)) (atControl (.ctlBrp h p inv d) h s) := rfl
    rw [hgo, ctlTarget_unmarked, ctlTarget_brp]
    by_cases hp : getP s.cur p.toNat = if inv then 0 else 1
    · rw [if_pos hp, if_pos hp]; rfl
    · rw [if_neg hp, if_neg hp, ← atControl_pc]; rfl
  case bri => exact exec_issues hi rfl fun _ => rfl
  case call =>
    refine exec_issues hi ?_ fun _ => rfl
    have hgo : ctlEffect (.ctlCall h d) (unmarked s.cur) h.xstall.toNat (atControl (.ctlCall h d) h s) =
        onCur (fun t => goesOn ((s.cur.pc.toNat : Int) + sintOf 21 d.toNat).toNat h.xstall.toNat
          (putX t 62 (BitVec.ofNat 64 (t.pc.toNat + 1)))) (atControl (.ctlCall h d) h s) := rfl
    rw [hgo, sintOf_toNat d (by decide)]
    simp only [onCur, atControl_pc]
  case ret => exact exec_issues hi rfl fun _ => rfl

/-! ## Faults (R47, R49, R104-R113, R124) -/

section Faults
variable {i : Instr} {h : CtlHead} {s : State} (hi : i.head = some h) (hwhole : s.cur.ctl.split = none)
include hi hwhole

/-- The body of a bundle that holds a control operation alone. -/
theorem issuedBody_control : issuedBody { ctl := i, moves := [] } s = bundleBody h.quiet none { ctl := i, moves := [] } (onCur unmarked s) := by
  simp only [issuedBody, hi, Option.getD_some, hwhole, Option.map_none]

/-- A control operation whose body faults takes that fault at its bundle. -/
theorem exec_control_fault {f : FaultInfo} (h : bundleBody h.quiet none { ctl := i, moves := [] } (onCur unmarked s) = .fault f) :
    exec i s = .next (takeException f s.cur.pc.toNat false true (onCur unmarked s)) :=
  (exec_control hi s).trans (congrArg _ (issueBundle_fault ((issuedBody_control hi hwhole).trans h)))

/-- An illegal control word (R49). -/
theorem exec_control_illegal (hwf : i.wf = false) :
    exec i s = .next (takeException (mkFault 1 0 0 0 0) s.cur.pc.toNat false true (onCur unmarked s)) :=
  exec_control_fault hi hwhole (by simp [bundleBody, hwf])

variable (hwf : i.wf = true)
include hwf

/-- A legal control operation that raises a fault other than that of privilege takes it before its quiet check (R50). -/
theorem exec_control_raises {f : FaultInfo} (hf : ctlFault s.cur i = some f) (hcause : f.cause ≠ 2) :
    exec i s = .next (takeException f s.cur.pc.toNat false true (onCur unmarked s)) := by
  have hctl : ctlFault (onCur unmarked s).cur i = some f := (ctlFault_unmarked s.cur i).trans hf
  have hslot : illegalSlot (onCur unmarked s) [] = none := rfl
  have hkeep : (some f).filter (fun f => f.cause != 2) = some f := by simp [Option.filter_some, hcause]
  refine exec_control_fault hi hwhole ?_
  unfold bundleBody
  dsimp only
  rw [if_pos hwf, hslot, hctl]
  dsimp only
  rw [hkeep]

/-- A privilege fault comes behind the quiet violations of its slot (log 7). -/
theorem exec_control_privilege {f : FaultInfo} (hf : ctlFault s.cur i = some f) (hcause : f.cause = 2)
    (hquiet : h.quiet = false ∨ (nothingFlies s.cur = true ∧ s.cur.ctl.fmtPending = [])) :
    exec i s = .next (takeException f s.cur.pc.toNat false true (onCur unmarked s)) := by
  have hctl : ctlFault (onCur unmarked s).cur i = some f := (ctlFault_unmarked s.cur i).trans hf
  have hslot : illegalSlot (onCur unmarked s) [] = none := rfl
  have hfire : firing (onCur unmarked s).cur [] = [] := rfl
  have hpriv : privilegesOf (onCur unmarked s).cur [] = [] := by simp [privilegesOf]
  have hrun : runMoves [f] none [] (onCur unmarked s) = .fault f := by
    simp [runMoves, readAll, finishMoves, phaseOrder, bundleFault, firstFault, hcause]
  have hcheck : ∀ g, (if h.quiet then quietCheck (onCur unmarked s) else .ok ()) ≠ .fault g := by
    intro g
    split
    · next hq =>
      obtain ⟨hflies, hfmt⟩ := hquiet.resolve_left (by simp [hq])
      rw [quietCheck_unmarked, quietCheck_settled hflies hfmt]
      split <;> exact fun h => by cases h
    · exact fun h => by cases h
  have hdrop : (some f).filter (fun f => f.cause != 2) = none := by simp [Option.filter_some, hcause]
  refine exec_control_fault hi hwhole ?_
  unfold bundleBody
  dsimp only
  rw [if_pos hwf, hslot, hctl, hfire, hpriv]
  dsimp only
  rw [hdrop]
  dsimp only
  split
  · next g hg => exact absurd hg (hcheck g)
  · rw [Option.toList_some, List.append_nil, hrun]
    rfl

end Faults

/-- A jump faults on a target that is no legal one (R104), else where it leaves the innermost body (R110). -/
theorem ctlFault_jump {t : Tile} {i : Instr} {h : CtlHead} {n : Int} (hi : i.head = some h) (hn : ctlTarget t i = some n) (hu : i ≠ .ctlUiret h)
    (hs : i ≠ .ctlSret h) : ctlFault t i = if !targetLegal t (isSystem t) n then some (targetFault n)
      else if leavesBody t i n then some (mkFault 4 0 0 0 0) else none := by
  cases i <;> cases hi
  case ctlUiret => exact absurd rfl hu
  case ctlSret => exact absurd rfl hs
  case ctlBra | ctlBrp | ctlBri | ctlCall | ctlRet => simp [ctlFault, hn, targetSystem]
  all_goals cases hn

/-- A bra, brp or bri inside the innermost body with a target outside it leaves the body. -/
theorem leavesBody_outside {t : Tile} {i : Instr} {h : CtlHead} {n : Int} {l : Loop} {ls : List Loop} (hi : i.head = some h)
    (hn : ctlTarget t i = some n) (hu : i ≠ .ctlUiret h) (hs : i ≠ .ctlSret h) (hr : i ≠ .ctlRet h) (hc : ∀ d, i ≠ .ctlCall h d)
    (hl : t.ctl.loops = l :: ls) (hin : l.top ≤ t.pc.toNat ∧ t.pc.toNat ≤ l.last) (hout : n < l.top ∨ l.last < n) : leavesBody t i n = true := by
  have hoff : ¬ ((l.top : Int) ≤ n ∧ n ≤ l.last) := by omega
  cases i <;> cases hi
  case ctlUiret => exact absurd rfl hu
  case ctlSret => exact absurd rfl hs
  case ctlRet => exact absurd rfl hr
  case ctlCall d => exact absurd rfl (hc d)
  case ctlBra | ctlBrp | ctlBri => simp only [leavesBody, hl]; exact decide_eq_true ⟨hin.1, hin.2, hoff⟩
  all_goals cases hn

/-- A lend fits the innermost level when it is its last bundle, as far behind its first as it says (R109). -/
theorem lendFits_iff (t : Tile) (b : Nat) : lendFits t b = true ↔ ∃ l ls, t.ctl.loops = l :: ls ∧ t.pc.toNat = l.last ∧ t.pc.toNat = l.top + b := by
  unfold lendFits
  split
  · next hl => simp [hl]
  · next l ls hl =>
    rw [hl, decide_eq_true_eq]
    refine ⟨fun ⟨h1, h2⟩ => ⟨l, ls, rfl, h1, by omega⟩, fun ⟨m, ms, he, h1, h2⟩ => ?_⟩
    obtain ⟨rfl, rfl⟩ := List.cons.inj he
    exact ⟨h1, by omega⟩

/-- Settles O23: each fault of `ctlFault`, taken at the bundle. -/
theorem controlFaults : Obligations.ControlFaults := by
  intro i h s hi hrest hwhole t faults
  refine ⟨exec_control_illegal hi hwhole, fun hwf => ?_⟩
  have raises {f : FaultInfo} (hf : ctlFault t i = some f) (hcause : f.cause ≠ 2) : faults f := exec_control_raises hi hwhole hwf hf hcause
  refine ⟨fun he hu hquiet => ?privilege, fun he hb => raises ?uiret (by decide), fun he hl => raises ?strokeend (by decide),
    fun he hl hb => raises ?sequence (by decide), fun he hl => raises ?lbrk (by decide), fun b he hl => raises ?lend (by decide),
    fun body stages x strides he hbad => raises ?loop (by decide), fun n hn hu hs hbad => raises (f := targetFault n) ?target (by exact of_decide_eq_true rfl),
    fun n l ls hn hu hs hr hc hok hl hin hout hleave => raises ?leaves (by decide)⟩
  case privilege =>
    refine exec_control_privilege hi hwhole hwf ?_ rfl hquiet
    rcases he with rfl | rfl <;> simp [ctlFault, t, hu]
  case uiret => subst he; simp [ctlFault, hb]
  case strokeend => subst he; simp [ctlFault, hl]
  case sequence => subst he; simp [ctlFault, hl, hb]
  case lbrk => subst he; simp [ctlFault, hl]
  case lend =>
    subst he
    have hno : lendFits t b.toNat = false := by
      rw [← Bool.not_eq_true, lendFits_iff]
      rintro ⟨l, ls, hloops, hfit⟩
      exact hl l ls hloops hfit
    simp [ctlFault, hno]
  case loop =>
    subst he
    have hloop : (decide (2 ^ 32 ≤ (getX t x.toNat).toNat) || decide (6 ≤ t.ctl.loops.length) || !holdsLend t (t.pc.toNat + body.toNat)) = true := by
      simpa only [Bool.or_eq_true, decide_eq_true_eq, Bool.not_eq_true', or_assoc] using hbad
    simp only [ctlFault, hloop, if_true]
    rfl
  case target => rw [ctlFault_jump hi hn hu hs, hbad]; rfl
  case leaves => rw [ctlFault_jump hi hn hu hs, hok, leavesBody_outside hi hn hu hs hr hc hl ⟨hin, hout⟩ hleave]; rfl

end Sys2Proof.Machine
end

section
/-!
PROOF. Empty slots (R35, R42, R49, R97): a bundle with empty slots behind its moves comes to what it comes to without them.
-/
namespace Sys2Proof.Machine
open Sys2Proof.Machine.Claims

/-! ## The empty slot -/

/-- The moves of these slots are empty. -/
def AllEmpty (fs : List (Nat × Instr)) : Prop := ∀ q ∈ fs, q.2 = emptySlot

/-- Writing x0 changes nothing, so the empty slot does nothing with any value. -/
theorem fireOf_emptySlot : ∃ f : Fire, fireOf emptySlot = some f ∧ ∀ slot held v s, f slot held v s = .ok s :=
  ⟨_, rfl, fun _ _ _ _ => rfl⟩

/-- The empty slot is a legal move. -/
theorem moveIllegal_emptySlot (s : State) : moveIllegal s emptySlot = false := rfl

/-! ## What the parts of a bundle make of empty slots -/

/-- The moves behind others stand in the slots behind theirs. -/
theorem slotted_append_empty (ms : List Instr) (k : Nat) :
    ∃ es, slotted (ms ++ List.replicate k emptySlot) = slotted ms ++ es ∧ AllEmpty es := by
  refine ⟨((List.replicate k emptySlot).zipIdx ms.length).map fun q => (q.2 + 1, q.1), ?_, fun q hq => ?_⟩
  · simp [slotted, List.zipIdx_append]
  · obtain ⟨e, he, rfl⟩ := List.mem_map.mp hq
    exact List.eq_of_mem_replicate (List.fst_mem_of_mem_zipIdx he)

theorem firing_append_empty (t : Tile) (ms : List Instr) (k : Nat) :
    ∃ es, firing t (ms ++ List.replicate k emptySlot) = firing t ms ++ es ∧ AllEmpty es := by
  obtain ⟨es, he, hall⟩ := slotted_append_empty ms k
  refine ⟨_, by rw [firing, he, List.filter_append]; rfl, fun q hq => hall q (List.mem_of_mem_filter hq)⟩

/-- An empty slot clashes with nothing (R43). -/
theorem clashSlot_append_empty {es : List (Nat × Instr)} (he : AllEmpty es) (seen : List Nat) (fs : List (Nat × Instr)) :
    clashSlot seen (fs ++ es) = clashSlot seen fs := by
  induction fs generalizing seen with
  | nil =>
    induction es with
    | nil => rfl
    | cons q es ih =>
      obtain ⟨hq, hes⟩ := List.forall_mem_cons.mp he
      obtain ⟨n, i⟩ := q
      obtain rfl : i = emptySlot := hq
      exact ih hes
  | cons q fs ih =>
    simp only [List.cons_append, clashSlot]
    split
    · exact ih seen
    · split
      · rfl
      · exact ih _

theorem illegalSlot_append_empty (s : State) (ms : List Instr) (k : Nat) :
    illegalSlot s (ms ++ List.replicate k emptySlot) = illegalSlot s ms := by
  obtain ⟨es, hs, hes⟩ := slotted_append_empty ms k
  obtain ⟨fs, hf, hfs⟩ := firing_append_empty s.cur ms k
  have hlegal : es.find? (fun q => moveIllegal s q.2) = none := by
    rw [List.find?_eq_none]
    intro q hq
    rw [hes q hq, moveIllegal_emptySlot]
    decide
  rw [illegalSlot, illegalSlot, hs, hf, List.find?_append, hlegal, Option.or_none, clashSlot_append_empty hfs]

theorem privilegesOf_append_empty {es : List (Nat × Instr)} (he : AllEmpty es) (t : Tile) (fs : List (Nat × Instr)) :
    privilegesOf t (fs ++ es) = privilegesOf t fs := by
  have hnone : es.filter (fun q => systemOnly q.2) = [] := by
    rw [List.filter_eq_nil_iff]
    intro q hq
    rw [he q hq]
    decide
  simp [privilegesOf, List.filter_append, hnone]

/-- Reading empty slots adds their values alone. -/
theorem readAll_append_empty {es : List (Nat × Instr)} (he : AllEmpty es) (t : Tile) (fs : List (Nat × Instr)) :
    ∃ gs, readAll t (fs ++ es) = { readAll t fs with got := (readAll t fs).got ++ gs } ∧ ∀ q ∈ gs, q.2.1 = emptySlot := by
  unfold readAll
  rw [List.foldl_append]
  generalize List.foldl _ _ fs = r
  induction es generalizing r with
  | nil => exact ⟨[], by simp, by simp⟩
  | cons q es ih =>
    obtain ⟨hq, hes⟩ := List.forall_mem_cons.mp he
    obtain ⟨n, i⟩ := q
    obtain rfl : i = emptySlot := hq
    obtain ⟨gs, hgs, hall⟩ := ih hes { r with got := r.got ++ [(n, emptySlot, readReg r.tile { cls := .x, idx := 0 }, false)] }
    refine ⟨(n, emptySlot, readReg r.tile { cls := .x, idx := 0 }, false) :: gs, ?_, List.forall_mem_cons.mpr ⟨rfl, hall⟩⟩
    refine hgs.trans ?_
    simp

/-- Performing empty slots changes nothing. -/
theorem foldl_fireOne_empty {gs : List (Nat × Instr × Vec × Bool)} (h : ∀ q ∈ gs, q.2.1 = emptySlot) (r : Fired) : gs.foldl fireOne r = r := by
  induction gs with
  | nil => rfl
  | cons q gs ih =>
    obtain ⟨hq, hgs⟩ := List.forall_mem_cons.mp h
    obtain ⟨f, hf, hok⟩ := fireOf_emptySlot
    have hone : fireOne r q = r := by simp [fireOne, hq, hf, hok]
    rw [List.foldl_cons, hone, ih hgs]

/-- Empty slots come last among the writes of registers. -/
theorem phaseOrder_append_empty {gs : List (Nat × Instr × Vec × Bool)} (h : ∀ q ∈ gs, q.2.1 = emptySlot) (got : List (Nat × Instr × Vec × Bool)) :
    phaseOrder (got ++ gs) = phaseOrder got ++ gs := by
  have hkeep : gs.filter (fun q => toState q.2.1) = gs := List.filter_eq_self.mpr fun q hq => by rw [h q hq]; rfl
  have hdrop (p : Nat × Instr × Vec × Bool → Bool) (hp : ∀ q, q.2.1 = emptySlot → p q = false) : gs.filter p = [] :=
    List.filter_eq_nil_iff.mpr fun q hq => by rw [hp q (h q hq)]; decide
  simp only [phaseOrder, List.filter_append, hkeep]
  rw [hdrop _ fun q hq => by rw [hq]; rfl, hdrop _ fun q hq => by rw [hq]; rfl, hdrop _ fun q hq => by rw [hq]; rfl, hdrop _ fun q hq => by rw [hq]; rfl]
  simp only [List.append_nil, List.append_assoc]

theorem runMoves_append_empty {es : List (Nat × Instr)} (he : AllEmpty es) (priv : List FaultInfo) (got : Option (List (Nat × Instr × Vec × Bool)))
    (fs : List (Nat × Instr)) (s : State) : runMoves priv got (fs ++ es) s = runMoves priv got fs s := by
  obtain ⟨gs, hr, hgs⟩ := readAll_append_empty he s.cur fs
  rw [runMoves, runMoves, hr]
  dsimp only
  cases got with
  | some g => rfl
  | none => simp only [Option.getD_none, finishMoves, phaseOrder_append_empty hgs, List.foldl_append, foldl_fireOne_empty hgs]

/-- The register of the class that a move reads. -/
def portRead (cls : RegClass) (i : Instr) : Option Nat :=
  match i.move with
  | some (_, .reg r _) => if r.cls = cls then some r.idx.toNat else none
  | _ => none

/-- The registers that moves and control operation need a port for (R91). -/
theorem readsOf_eq (cls : RegClass) (c : Instr) (fs : List (Nat × Instr)) : readsOf cls c fs =
    (if cls = .x then (ctlReads c ++ fs.filterMap fun q => portRead cls q.2).filter fun i => i != 0
      else fs.filterMap fun q => portRead cls q.2).eraseDups.length := rfl

/-- An empty slot reads x0, which needs no port. -/
theorem portRead_emptySlot (cls : RegClass) : portRead cls emptySlot = if .x = cls then some 0 else none := rfl

/-- So empty slots need none. -/
theorem readsOf_append_empty {es : List (Nat × Instr)} (he : AllEmpty es) (cls : RegClass) (c : Instr) (fs : List (Nat × Instr)) :
    readsOf cls c (fs ++ es) = readsOf cls c fs := by
  have hread : ∀ q ∈ es, portRead cls q.2 = if .x = cls then some 0 else none := fun q hq => he q hq ▸ portRead_emptySlot cls
  rw [readsOf_eq, readsOf_eq, List.filterMap_append]
  by_cases hx : .x = cls
  · have hzero : (es.filterMap fun q => portRead cls q.2).filter (fun i => i != 0) = [] := by
      rw [List.filter_eq_nil_iff]
      intro i hi
      obtain ⟨q, hq, hqi⟩ := List.mem_filterMap.mp hi
      rw [hread q hq, if_pos hx] at hqi
      obtain rfl : 0 = i := Option.some.inj hqi
      decide
    rw [if_pos hx.symm, if_pos hx.symm, ← List.append_assoc, List.filter_append, hzero, List.append_nil]
  · have hnone : (es.filterMap fun q => portRead cls q.2) = [] := by
      rw [List.filterMap_eq_nil_iff]
      intro q hq
      rw [hread q hq, if_neg hx]
    rw [hnone, List.append_nil]

/-- Empty slots need no register port and no socket (R91, R97). -/
theorem issueParts_append_empty {es : List (Nat × Instr)} (he : AllEmpty es) (s : State) (c : Instr) (fs : List (Nat × Instr)) :
    issueParts s c (fs ++ es) = issueParts s c fs := by
  have hshare : sharers s (fs ++ es) = sharers s fs := by
    have hnone : es.filterMap (fun q => q.2.trigger.map fun k => engineOf s s.cur.id k.1) = [] := by
      rw [List.filterMap_eq_nil_iff]
      intro q hq
      rw [he q hq]
      rfl
    rw [sharers, sharers, List.filterMap_append, hnone, List.append_nil]
  simp only [issueParts, readsOf_append_empty he, hshare]

/-- The body of a bundle does not see empty slots. -/
theorem bundleBody_append_empty (quiet : Bool) (got : Option (List (Nat × Instr × Vec × Bool))) (c : Instr) (ms : List Instr) (k : Nat) (s : State) :
    bundleBody quiet got { ctl := c, moves := ms ++ List.replicate k emptySlot } s = bundleBody quiet got { ctl := c, moves := ms } s := by
  obtain ⟨es, hf, hes⟩ := firing_append_empty s.cur ms k
  unfold bundleBody
  simp only [illegalSlot_append_empty, hf, privilegesOf_append_empty hes, runMoves_append_empty hes]

/-- Nor does a bundle that issues in one part. -/
theorem issueBundle_append_empty (c : Instr) (ms : List Instr) (k : Nat) {s : State}
    (hone : issueParts (onCur unmarked s) c (firing (onCur unmarked s).cur ms) ≤ 1) :
    issueBundle false { ctl := c, moves := ms ++ List.replicate k emptySlot } s = issueBundle false { ctl := c, moves := ms } s := by
  obtain ⟨es, hf, hes⟩ := firing_append_empty (onCur unmarked s).cur ms k
  unfold issueBundle
  dsimp only
  rw [bundleBody_append_empty]
  split
  · rfl
  · rfl
  · rfl
  · have hwhole : ¬ 1 < issueParts (onCur unmarked s) c (firing (onCur unmarked s).cur ms) := Nat.not_lt.mpr hone
    change (if _ && decide (1 < issueParts (onCur unmarked s) c (firing (onCur unmarked s).cur (ms ++ List.replicate k emptySlot))) then _ else _) =
      (if _ && decide (1 < issueParts (onCur unmarked s) c (firing (onCur unmarked s).cur ms)) then _ else _)
    rw [hf, issueParts_append_empty hes, decide_eq_false hwhole, Bool.and_false]
    rfl

end Sys2Proof.Machine
end

section
/-!
PROOF. One move alone (R42, R49, R50, R91, R97): a bundle of a nop and one move is that move.
-/
namespace Sys2Proof.Machine
open Sys2Proof.Machine.Claims

/-- The control slot of a bundle whose work is in its moves. -/
def nopControl : Instr := .ctlNop { xstall := 0, quiet := false, lit := .none }

/-! ## The parts of a bundle (R91, R97) -/

/-- A bundle of at most one move beside a nop issues in one part. -/
theorem issueParts_nop_le (s : State) {fs : List (Nat × Instr)} (h : fs.length ≤ 1) : issueParts s nopControl fs ≤ 1 := by
  have hctl : ctlReads nopControl = [] := rfl
  have hdups (l : List Nat) (hl : l.length ≤ 1) : l.eraseDups.length ≤ 1 := by
    match l, hl with
    | [], _ => simp
    | [k], _ => simp [List.eraseDups_cons]
  have hreads (cls : RegClass) : readsOf cls nopControl fs ≤ 1 := by
    have hlen : (fs.filterMap fun q => portRead cls q.2).length ≤ 1 := (List.length_filterMap_le ..).trans h
    rw [readsOf_eq, hctl, List.nil_append]
    split
    · exact hdups _ ((List.length_filter_le ..).trans hlen)
    · exact hdups _ hlen
  have hshare : sharers s fs ≤ 1 := by
    have hlen : (fs.filterMap fun q => q.2.trigger.map fun k => engineOf s s.cur.id k.1).length ≤ 1 := (List.length_filterMap_le ..).trans h
    unfold sharers
    generalize fs.filterMap _ = es at hlen
    match es, hlen with
    | [], _ => simp
    | [k], _ => simp
  have hx := hreads .x
  have hv := hreads .v
  have hj := hreads .j
  have hk := hreads .k
  unfold issueParts ceilDiv
  omega

/-- At most one of one move fires. -/
theorem firing_one_length (t : Tile) (i : Instr) : (firing t [i]).length ≤ 1 := List.length_filter_le ..

/-! ## What one move comes to (R36, R42) -/

/-- What a legal move comes to in slot 1: what its destination does with its value, or nothing where its guard does not hold. -/
def firedMove (g : Guard) (x : Src) (f : Fire) (s : State) : Res State :=
  if guardFires s.cur g then (readSrc s.cur 1 x).bind fun q => f 1 x.hold q.1 { s with cur := q.2 } else .ok s

/-- A read never waits for a drain. -/
theorem readSrc_ne_drain (t : Tile) (n : Nat) (x : Src) : readSrc t n x ≠ .drain := by
  cases x with
  | port k y _ => unfold readSrc readPort; grind
  | stream f pk _ => unfold readSrc readStream; grind
  | recvq q pk _ => unfold readSrc readQueue; grind
  | cq pk _ => unfold readSrc readCq; grind
  | reg | imm | lit => exact fun h => by cases h

/-- No instruction belongs to two phases. -/
theorem phases_exclusive (i : Instr) : (toOperand i && toState i || csrTrigger i && (toOperand i || toState i)) = false := by cases i <;> rfl

/-- One move alone is in order. -/
theorem phaseOrder_one (q : Nat × Instr × Vec × Bool) : phaseOrder [q] = [q] := by
  have hone := phases_exclusive q.2.1
  simp only [phaseOrder, List.filter_cons, List.filter_nil]
  generalize toOperand q.2.1 = o, toState q.2.1 = t, csrTrigger q.2.1 = c at hone
  cases c
  case false => revert hone; cases o <;> cases t <;> simp
  case true =>
    obtain ⟨-, rfl, rfl⟩ : (o = true → t = false) ∧ o = false ∧ t = false := by simpa using hone
    by_cases hm : q.2.2.1 = 1#1024 <;> simp [hm]

/-- A bundle without faults takes none. -/
theorem bundleFault_nil : bundleFault [] = none := rfl

/-- A bundle with one fault takes it (R50). -/
theorem bundleFault_one (e : FaultInfo) : bundleFault [e] = some e := by
  by_cases he : e.cause = 1 <;> simp [bundleFault, firstFault, he]

section Move
variable {i : Instr} {g : Guard} {x : Src} {f : Fire} {s : State}

/-- A move runs as what its destination does with the value. -/
theorem exec_fireOf (hm : i.move = some (g, x)) (hf : fireOf i = some f) : exec i s = runMove i g x f s := by
  cases i <;> cases hm <;> cases hf <;> rfl

/-- A legal move on a tile between bundles leaves what it comes to. -/
theorem runMove_firedMove (hlegal : moveIllegal s i = false) (hrest : AtRest s.cur) : runMove i g x f s = .next (settle s (firedMove g x f s)) := by
  unfold runMove firedMove
  cases guardFires s.cur g
  · simp [hlegal, settle_ok hrest]
  · simp [hlegal]

/-- Performing one move alone. -/
theorem finishMoves_one (hf : fireOf i = some f) (held : Bool) (v : Vec) (u : State) : finishMoves [] [(1, i, v, held)] u = f 1 held v u := by
  cases hr : f 1 held v u <;> simp [finishMoves, phaseOrder_one, fireOne, hf, hr, bundleFault_one, bundleFault_nil]

variable (hm : i.move = some (g, x))
include hm

/-- The moves that fire of one. -/
theorem firing_one (t : Tile) : firing t [i] = if guardFires t g then [(1, i)] else [] := by
  have hslot : slotted [i] = [(1, i)] := rfl
  rw [firing, hslot, List.filter_cons, hm]
  rfl

variable (hf : fireOf i = some f)
include hf

/-- Reading and performing one move alone. -/
theorem runMoves_one : runMoves [] none [(1, i)] s = (readSrc s.cur 1 x).bind fun q => f 1 x.hold q.1 { s with cur := q.2 } := by
  cases hr : readSrc s.cur 1 x with
  | ok q => simp [runMoves, readAll, hm, hr, finishMoves_one hf, Res.bind]
  | fault e => simp [runMoves, readAll, hm, hr, finishMoves, phaseOrder, bundleFault_one, Res.bind]
  | freeze => simp [runMoves, readAll, hm, hr, bundleFault_nil, Res.bind]
  | drain => exact absurd hr (readSrc_ne_drain s.cur 1 x)

variable (hlegal : moveIllegal s i = false) (hpriv : isSystem s.cur = true ∨ systemOnly i = false)
include hlegal hpriv

/-- A bundle of a nop and one legal move within its privilege is that move, with the end of a bundle. -/
theorem bundleBody_one : bundleBody false none { ctl := nopControl, moves := [i] } s = (firedMove g x f s).bind fun u => .ok (onCur endMoves u) := by
  have hslotted : slotted [i] = [(1, i)] := rfl
  have hillegal : illegalSlot s [i] = none := by
    have hclash : clashSlot [] (firing s.cur [i]) = none := by
      rw [firing_one hm]
      split
      · simp only [clashSlot, List.not_mem_nil, if_false]
        split <;> rfl
      · rfl
    simp [illegalSlot, hclash, hslotted, hlegal, minSlot]
  have hprivs : privilegesOf s.cur (firing s.cur [i]) = [] := by
    unfold privilegesOf
    rcases hpriv with h | h
    · rw [if_pos h]
    · rw [firing_one hm]
      split
      · rfl
      · split <;> simp [h]
  have hbody : bundleBody false none { ctl := nopControl, moves := [i] } s =
      (runMoves [] none (firing s.cur [i]) s).bind fun u => .ok (onCur endMoves u) := by
    unfold bundleBody
    dsimp only
    rw [hillegal, hprivs]
    rfl
  rw [hbody, firing_one hm, firedMove]
  split
  · rw [runMoves_one hm hf]
  · rw [runMoves_nil]

end Move

/-! ## The bundle of a nop and moves (R31, R50, R96, R105) -/

section Nop
variable {ms : List Instr} {s : State}

/-- A bundle that waits for a drain leaves the tile in a drain wait (R96). -/
theorem issueBundle_drain {b : Bundle} (h : issuedBody b s = .drain) :
    (issueBundle false b s).1 = onCur (fun t => { t with run := .drain }) (onCur unmarked s) := by
  simp only [issueBundle, Bool.not_false, Bool.and_true]
  change (match issuedBody b s with | .freeze => _ | .drain => _ | .fault f => _ | .ok s1 => _ : State × CycleKind).1 = _
  rw [h]
  rfl

/-- A nop whose moves leave no trap goes on at the next bundle (R105). -/
theorem issueBundle_nop_ok {u : State} (h : issuedBody { ctl := nopControl, moves := ms } s = .ok u) (htraps : u.cur.ctl.traps = [])
    (hone : issueParts (onCur unmarked s) nopControl (firing (onCur unmarked s).cur ms) ≤ 1) :
    (issueBundle false { ctl := nopControl, moves := ms } s).1 =
      onCur (fun t => goesOn (t.pc.toNat + 1) 0 { t with ctl := { t.ctl with controlOnly := false, split := none } }) u := by
  have hwhole : ¬ 1 < issueParts (onCur unmarked s) nopControl (firing (onCur unmarked s).cur ms) := Nat.not_lt.mpr hone
  have hfirst : trapsFirst (onCur unmarked s).cur nopControl
      (onCur (fun t => { t with ctl := { t.ctl with controlOnly := false, split := none } }) u) = false := by
    simp [trapsFirst, htraps]
  simp only [issueBundle, Bool.not_false, Bool.and_true]
  change (match issuedBody { ctl := nopControl, moves := ms } s with | .freeze => _ | .drain => _ | .fault f => _ | .ok s1 => _ : State × CycleKind).1 = _
  rw [h]
  change (if (_ && decide (1 < issueParts (onCur unmarked s) nopControl (firing (onCur unmarked s).cur ms))) = true then _ else
    if trapsFirst (onCur unmarked s).cur nopControl
      (onCur (fun t => { t with ctl := { t.ctl with controlOnly := false, split := none } }) u) = true then _ else _ : State × CycleKind).1 = _
  rw [decide_eq_false hwhole, Bool.and_false, hfirst]
  exact takeTraps_none htraps

end Nop

end Sys2Proof.Machine
end

section
/-!
PROOF. A step runs the bundle at the PC (R42, R96, R97, R99, R105; log 1): the turn of the focused tile, no step fails, and a bundle of one
operation whose other slots are empty.
-/
namespace Sys2Proof.Machine
open Sys2Proof.Machine.Claims

/-! ## The turn of the focused tile (log 1) -/

section Turn
variable {s : State} (h : MayIssue s)
include h

/-- A tile that is about to issue tries the bundle at its PC. -/
theorem ownCycle_mayIssue : ownCycle s = issueAt s := by
  obtain ⟨hruns, -, hpower, -, htrap, hstop, hint⟩ := h
  have hcut : (s.cur.ctl.quietPoint ≠ 0 && cutHolds s.cur) = false := by rcases hstop with h | h <;> simp [h]
  have hquiet : tryInterrupt s = s := by simp [tryInterrupt, hint]
  simp only [ownCycle, hpower, Nat.lt_irrefl, if_false, hruns, aboutToIssue, htrap, ne_eq, not_true_eq_false]
  rw [if_neg (by simpa using hcut), hquiet, if_pos hruns]

/-- No partner holds it, so its cycle is its own. -/
theorem sequence_mayIssue : sequence s = ((issueAt s).1, (issueAt s).2, (issueAt s).2 == .frozen) := by
  have hown := ownCycle_mayIssue h
  obtain ⟨-, halone, -, hpartner, -, -, -⟩ := h
  simp [sequence, halone, hpartner, hown]

end Turn

/-- At its turn the focused tile issues the bundle that the words at its PC decode to. -/
theorem step_issues {s : State} {b : Bundle} (h : Turn s) (hb : Issuing (ringArrivals s).cur b) : step s =
    .next (let s0 := ringArrivals s
           let r := issueBundle false b (rearmed s0)
           let froze := r.2 == .frozen
           passTurn (endCycle r.2 false (froze && splitCycle s0.cur r.1.cur)
             (onCur (fun t => { t with ctl := { t.ctl with froze := froze } }) r.1))) := by
  obtain ⟨hagenda, hevent, hcommand, hissues⟩ := h
  have hwaits : waits (ringArrivals s).cur = false := by simp [waits, hissues.runs]
  simp only [step, advance, hagenda, hevent, hcommand, cycle, sequence_mayIssue hissues, issueAt_issuing hb, hwaits, Bool.false_and]

/-! ## No step fails -/

/-- An event that ends in a next state, whatever the state. -/
def Proceeds (act : Act) : Prop := ∀ s, ∃ t, act s = .next t

/-- A move ends in a next state. -/
theorem runMove_proceeds (i : Instr) (g : Guard) (x : Src) (f : Fire) : Proceeds (runMove i g x f) := by
  intro s
  unfold runMove
  split_ifs <;> exact ⟨_, rfl⟩

/-- Every instruction ends in a next state: no arm faults or refuses. -/
theorem exec_proceeds (i : Instr) : Proceeds (exec i) := by
  intro s
  cases hm : i.move with
  | some m =>
    obtain ⟨f, hf⟩ := exec_move (g := m.1) (x := m.2) hm
    rw [hf]
    exact runMove_proceeds ..
  | none =>
    cases hh : i.head with
    | some h => exact ⟨_, exec_control hh s⟩
    | none => cases i <;> cases hm <;> cases hh <;> exact ⟨_, rfl⟩

/-- The event that waits, if any, ends in a next state. -/
def WaitProceeds (o : Option Act) : Prop := ∀ act, o = some act → Proceeds act

section Wait
variable {α : Type}

theorem waitProceeds_none : WaitProceeds none := fun _ h => by cases h

theorem waitProceeds_some {act : Act} (h : Proceeds act) : WaitProceeds (some act) := fun _ he => Option.some.inj he ▸ h

theorem waitProceeds_orElse {a b : Option Act} (ha : WaitProceeds a) (hb : WaitProceeds b) : WaitProceeds (a <|> b) := by
  cases a with
  | none => exact hb
  | some act => exact ha

theorem waitProceeds_findSome {f : α → Option Act} (h : ∀ x, WaitProceeds (f x)) (l : List α) : WaitProceeds (l.findSome? f) := by
  intro act ha
  obtain ⟨x, -, hx⟩ := List.exists_of_findSome?_eq_some ha
  exact h x act hx

theorem waitProceeds_map {f : α → Act} (h : ∀ x, Proceeds (f x)) (o : Option α) : WaitProceeds (o.map f) := by
  cases o with
  | none => exact waitProceeds_none
  | some x => exact waitProceeds_some (h x)

theorem waitProceeds_ite {c : Prop} [Decidable c] {a b : Option Act} (ha : WaitProceeds a) (hb : WaitProceeds b) : WaitProceeds (if c then a else b) := by
  split
  · exact ha
  · exact hb

/-- An event that waits under a condition, before those that follow. -/
theorem waitProceeds_event {c : Prop} [Decidable c] {act : Act} {b : Option Act} (h : Proceeds act) (hb : WaitProceeds b) :
    WaitProceeds (if c then some act else b) := waitProceeds_ite (waitProceeds_some h) hb

theorem proceeds_ite {c : Prop} [Decidable c] {a b : Act} (ha : Proceeds a) (hb : Proceeds b) : Proceeds (if c then a else b) := by
  split
  · exact ha
  · exact hb

end Wait

theorem gmEvent_proceeds (s : State) (t : TileId) (r : GmReq) : Proceeds (gmEvent s t r) := by
  unfold gmEvent
  split <;> exact fun _ => ⟨_, rfl⟩

theorem gmPending_proceeds (s : State) (r : GmReq) : WaitProceeds (gmPending s r) := by
  have hgm : WaitProceeds (some (gmEvent s s.cur.id r)) := waitProceeds_some (gmEvent_proceeds s s.cur.id r)
  unfold gmPending
  refine waitProceeds_ite ?fence (waitProceeds_ite ?answer (waitProceeds_ite hgm waitProceeds_none))
  case fence => exact waitProceeds_ite (waitProceeds_some fun _ => ⟨_, rfl⟩) (waitProceeds_ite hgm waitProceeds_none)
  case answer => exact waitProceeds_ite (waitProceeds_some (proceeds_ite (fun _ => ⟨_, rfl⟩) fun _ => ⟨_, rfl⟩)) waitProceeds_none

theorem lwPending_proceeds (s : State) (sock : Nat) : WaitProceeds (lwPending s sock) := by
  unfold lwPending
  split
  · exact waitProceeds_ite (waitProceeds_some fun _ => ⟨_, rfl⟩) waitProceeds_none
  · exact waitProceeds_none

theorem streamPending_proceeds (s : State) (q : Nat × Stream) : WaitProceeds (streamPending s q) := by
  unfold streamPending
  exact waitProceeds_ite (waitProceeds_some (proceeds_ite (fun _ => ⟨_, rfl⟩) fun _ => ⟨_, rfl⟩)) waitProceeds_none

theorem copyPending_proceeds (s : State) (c : Copy) : WaitProceeds (copyPending s c) := by
  unfold copyPending
  dsimp only
  refine waitProceeds_event (fun _ => ⟨_, rfl⟩) (waitProceeds_ite waitProceeds_none ?_)
  exact waitProceeds_event (fun _ => ⟨_, rfl⟩) (waitProceeds_event (fun _ => ⟨_, rfl⟩) waitProceeds_none)

theorem arrivePending_proceeds (s : State) (a : Arrive) : WaitProceeds (arrivePending s a) := by
  unfold arrivePending
  exact waitProceeds_ite waitProceeds_none (waitProceeds_some (proceeds_ite (fun _ => ⟨_, rfl⟩) fun _ => ⟨_, rfl⟩))

theorem lnkPending_proceeds (s : State) : WaitProceeds (lnkPending s) := by
  unfold lnkPending
  dsimp only
  split
  · next act hact =>
    split at hact
    · refine waitProceeds_some (waitProceeds_ite ?_ ?_ act hact)
      · exact waitProceeds_ite (waitProceeds_some fun _ => ⟨_, rfl⟩) waitProceeds_none
      · exact waitProceeds_ite (waitProceeds_some fun _ => ⟨_, rfl⟩) waitProceeds_none
    · cases hact
  · refine waitProceeds_ite waitProceeds_none (waitProceeds_ite (waitProceeds_some fun _ => ⟨_, rfl⟩) ?_)
    split
    · exact waitProceeds_ite (waitProceeds_some fun _ => ⟨_, rfl⟩) waitProceeds_none
    · exact waitProceeds_none

theorem checkedPending_proceeds (s : State) : WaitProceeds (checkedPending s) := by
  unfold checkedPending
  exact waitProceeds_ite (waitProceeds_some fun _ => ⟨_, rfl⟩) (waitProceeds_ite (waitProceeds_some fun _ => ⟨_, rfl⟩) waitProceeds_none)

theorem tilePending_proceeds (s : State) : WaitProceeds (tilePending s) := by
  unfold tilePending
  dsimp only
  refine waitProceeds_orElse (waitProceeds_findSome (gmPending_proceeds s) _) ?_
  refine waitProceeds_orElse (lwPending_proceeds s 11) ?_
  refine waitProceeds_orElse (lwPending_proceeds s 12) ?_
  refine waitProceeds_orElse (waitProceeds_findSome (streamPending_proceeds s) _) ?_
  refine waitProceeds_orElse (waitProceeds_ite (waitProceeds_some fun _ => ⟨_, rfl⟩) waitProceeds_none) ?_
  refine waitProceeds_orElse (waitProceeds_ite (waitProceeds_some fun _ => ⟨_, rfl⟩) waitProceeds_none) ?_
  refine waitProceeds_orElse (waitProceeds_findSome (arrivePending_proceeds s) _) ?_
  refine waitProceeds_orElse (waitProceeds_map (fun _ _ => ⟨_, rfl⟩) _) ?_
  refine waitProceeds_orElse (waitProceeds_findSome (copyPending_proceeds s) _) ?_
  exact waitProceeds_orElse (lnkPending_proceeds s) (checkedPending_proceeds s)

theorem mainPending_proceeds (s : State) (m : Main) : WaitProceeds (mainPending s m) := by
  unfold mainPending
  refine waitProceeds_ite (waitProceeds_some fun _ => ⟨_, rfl⟩) (waitProceeds_orElse ?_ (waitProceeds_findSome (fun d => ?_) _))
  · refine waitProceeds_ite ?_ waitProceeds_none
    split
    · exact waitProceeds_some fun _ => ⟨_, rfl⟩
    · exact waitProceeds_some fun _ => ⟨_, rfl⟩
    · exact waitProceeds_none
  · exact waitProceeds_ite (waitProceeds_some (proceeds_ite (fun _ => ⟨_, rfl⟩) fun _ => ⟨_, rfl⟩)) waitProceeds_none

theorem nodePending_proceeds (s : State) (n : Node) : WaitProceeds (nodePending s n) := by
  unfold nodePending
  iterate 7 refine waitProceeds_event (fun _ => ⟨_, rfl⟩) ?_
  exact waitProceeds_none

theorem gangPending_proceeds (s : State) (g : Gang) : WaitProceeds (gangPending s g) := by
  unfold gangPending
  dsimp only
  refine waitProceeds_ite waitProceeds_none (waitProceeds_event (fun _ => ⟨_, rfl⟩) (waitProceeds_ite waitProceeds_none ?_))
  exact waitProceeds_event (fun _ => ⟨_, rfl⟩) (waitProceeds_event (fun _ => ⟨_, rfl⟩) waitProceeds_none)

theorem creditPending_proceeds (q : Nat × Link) : WaitProceeds (creditPending q) := by
  unfold creditPending
  exact waitProceeds_ite waitProceeds_none (waitProceeds_map (fun _ _ => ⟨_, rfl⟩) _)

theorem devicePending_proceeds (s : State) : WaitProceeds (devicePending s) := by
  unfold devicePending
  refine waitProceeds_orElse (waitProceeds_map (fun _ _ => ⟨_, rfl⟩) _) ?_
  refine waitProceeds_orElse (waitProceeds_findSome creditPending_proceeds _) ?_
  refine waitProceeds_orElse (waitProceeds_findSome (mainPending_proceeds s) _) ?_
  refine waitProceeds_ite waitProceeds_none ?_
  refine waitProceeds_orElse (waitProceeds_map (fun _ _ => ⟨_, rfl⟩) _) ?_
  refine waitProceeds_orElse (waitProceeds_map (fun _ _ => ⟨_, rfl⟩) _) ?_
  exact waitProceeds_orElse (waitProceeds_findSome (gangPending_proceeds s) _) (waitProceeds_findSome (nodePending_proceeds s) _)

/-- Whatever event waits ends in a next state. -/
theorem pending_proceeds (s : State) : WaitProceeds (pending s) := by
  unfold pending
  refine waitProceeds_orElse (tilePending_proceeds s) ?_
  have hpeers := waitProceeds_findSome (f := fun t : Tile => tilePending (focus t.id s)) fun t => tilePending_proceeds (focus t.id s)
  refine waitProceeds_orElse (hpeers _) ?_
  exact devicePending_proceeds s

/-- A step ends in a next state: the agenda's item, the event or command that waits, or a cycle. -/
theorem step_proceeds (s : State) : ∃ t, step s = .next t := by
  unfold step advance
  split
  case h_1 i rest _ => exact exec_proceeds i _
  case h_8 =>
    split
    · next act hact => exact pending_proceeds s act hact s
    · split <;> exact ⟨_, rfl⟩
  all_goals exact ⟨_, rfl⟩

/-! ## A bundle of one operation (R42, R105) -/

/-- A control operation alone, every other slot empty, is exec of it. -/
theorem exec_control_slots {i : Instr} {h : CtlHead} (hi : i.head = some h) (k : Nat) (s : State) :
    exec i s = .next (issueBundle false { ctl := i, moves := List.replicate k emptySlot } s).1 := by
  have hdrop := issueBundle_append_empty (s := s) i [] k (le_of_eq (issueParts_nil ..))
  rw [List.nil_append] at hdrop
  rw [exec_control hi, hdrop]

/-- The end of the moves raises no trap. -/
theorem endMoves_traps (t : Tile) : (endMoves t).ctl.traps = t.ctl.traps := by
  unfold endMoves
  split <;> rfl

/-- A tile without a mark of a quiet point has none to lose. -/
theorem onCur_unmarked {s : State} (h : s.cur.ctl.quietPoint = 0) : onCur unmarked s = s := by
  have htile : unmarked s.cur = s.cur := by rw [unmarked, ← h]
  exact congrArg (fun t => { s with cur := t }) htile

section OneMove
variable {i : Instr} {g : Guard} {x : Src} {f : Fire} {s : State}

/-- Empty slots behind one move change nothing. -/
theorem issueBundle_one_slots (k : Nat) : issueBundle false { ctl := nopControl, moves := i :: List.replicate k emptySlot } s =
    issueBundle false { ctl := nopControl, moves := [i] } s :=
  issueBundle_append_empty nopControl [i] k (issueParts_nop_le _ (firing_one_length ..))

variable (hm : i.move = some (g, x)) (hf : fireOf i = some f) (hquiet : s.cur.ctl.quietPoint = 0) (hlegal : moveIllegal s i = false)
variable (hwhole : s.cur.ctl.split = none) (hpriv : isSystem s.cur = true ∨ systemOnly i = false)
include hm hf hquiet hlegal hwhole hpriv

/-- The body of a bundle of one move. -/
theorem issuedBody_one : issuedBody { ctl := nopControl, moves := [i] } s = (firedMove g x f s).bind fun u => .ok (onCur endMoves u) := by
  have hbody : issuedBody { ctl := nopControl, moves := [i] } s = bundleBody false none { ctl := nopControl, moves := [i] } (onCur unmarked s) := by
    simp only [issuedBody, hwhole]
    rfl
  rw [hbody, onCur_unmarked hquiet, bundleBody_one hm hf hlegal hpriv]

/-- A move that leaves no trap, alone in a bundle, after which the tile goes on at the next bundle. -/
theorem issueBundle_one_ok {u : State} (h : firedMove g x f s = .ok u) (htraps : u.cur.ctl.traps = []) :
    (issueBundle false { ctl := nopControl, moves := [i] } s).1 =
      onCur (fun t => goesOn (t.pc.toNat + 1) 0 { t with ctl := { t.ctl with controlOnly := false, split := none } }) (onCur endMoves u) := by
  refine issueBundle_nop_ok ?_ ((endMoves_traps u.cur).trans htraps) (issueParts_nop_le _ (firing_one_length ..))
  rw [issuedBody_one hm hf hquiet hlegal hwhole hpriv, h]
  rfl

/-- A move that faults, freezes or waits, alone in a bundle, leaves what its bundle leaves. -/
theorem issueBundle_one_stops (h : ∀ u, firedMove g x f s ≠ .ok u) :
    (issueBundle false { ctl := nopControl, moves := [i] } s).1 = settle s (firedMove g x f s) := by
  have hbody := issuedBody_one hm hf hquiet hlegal hwhole hpriv
  cases hr : firedMove g x f s with rw [hr] at hbody
  | ok u => exact absurd hr (h u)
  | fault e => rw [issueBundle_fault hbody, onCur_unmarked hquiet]; rfl
  | freeze => rw [issueBundle_freeze hbody, onCur_unmarked hquiet]; rfl
  | drain => rw [issueBundle_drain hbody, onCur_unmarked hquiet]; rfl

end OneMove

/-- Settles O47: the turn of the focused tile, the end of every step, and the bundle of one operation. -/
theorem stepRunsBundle : Obligations.StepRunsBundle := by
  refine ⟨fun s b h hb => step_issues h hb, step_proceeds, fun i h k s hi => exec_control_slots hi k s, ?_⟩
  intro i g x f k s hm hf hrest hquiet hwhole hlegal hpriv
  have hexec : exec i s = .next (settle s (firedMove g x f s)) := (exec_fireOf hm hf).trans (runMove_firedMove hlegal hrest)
  have hslots := issueBundle_one_slots (s := s) (i := i) k
  refine ⟨fun u hu htraps => ⟨?_, ?_⟩, fun hstops => ?_⟩
  · have hfired : firedMove g x f s = .ok u := hu
    rw [hexec, hfired, settle_noTraps htraps]
  · exact (congrArg Prod.fst hslots).trans (issueBundle_one_ok hm hf hquiet hlegal hwhole hpriv hu htraps)
  · have hend := issueBundle_one_stops hm hf hquiet hlegal hwhole hpriv hstops
    exact hexec.trans (congrArg _ (hend.symm.trans (congrArg Prod.fst hslots).symm))

end Sys2Proof.Machine
end

section
/-!
PROOF. The cross-lane operations of vx with one result (R146, R148, R149): each is a computing trigger of the row that the table gives.
-/
namespace Sys2Proof.Machine
open Sys2Proof.Machine.Claims

/-- Each operation of the table runs as the computing trigger of its row. -/
theorem exec_vxRow {i : Instr} {row : Row} {g : Guard} {x : Src} {sock code : Nat} (hrow : vxRow i = some row)
    (hmove : i.move = some (g, x)) (hnames : i.trigger = some (sock, code)) (s : State) :
    exec i s = runMove i g x (firePure sock code row.lat row.ports row.value) s := by
  unfold vxRow at hrow
  split at hrow
  case h_8 => cases hrow
  all_goals
    cases hrow
    cases hmove
    cases hnames
    rfl

/-- Settles O5: the trigger of the row delivers the row's value to y0. -/
theorem crossLaneResults : Obligations.CrossLaneResults := by
  intro i row hrow g x sock code s v t0 ops t htrig
  rw [exec_vxRow hrow htrig.fires.isMove htrig.names, runMove_pure htrig]

end Sys2Proof.Machine
end

section
/-!
PROOF. The return from an exception (R73, R99, R116): the registers that sret restores, and the captured pipelines in flight again.
-/
namespace Sys2Proof.Machine
open Sys2Proof.Machine.Claims

/-! ## Sockets and ports written back -/

theorem sockOf_putSock (t : Tile) (n : Nat) (s : Socket) (k : Nat) : sockOf (putSock t n s) k = if k = n then s else sockOf t k :=
  tget_tset ..

theorem portOf_putPort (s : Socket) (n : Nat) (p : Port) (y : Nat) : portOf (putPort s n p) y = if y = n then p else portOf s y :=
  tget_tset ..

/-! ## Captured results in flight again (R99) -/

/-- A port with more operations in flight, behind those it has. -/
def Port.addFlight (p : Port) (ops : List Free) : Port := { p with flight := p.flight ++ ops }

theorem Port.addFlight_nil (p : Port) : p.addFlight [] = p := by simp [addFlight]

theorem Port.addFlight_append (p : Port) (a b : List Free) : (p.addFlight a).addFlight b = p.addFlight (a ++ b) := by simp [addFlight]

/-- One captured result put back in flight toward its port. -/
def rearmOne (t : Tile) (c : Captured) : Tile :=
  putSock t c.sock (putPort (sockOf t c.sock) c.port ((portOf (sockOf t c.sock) c.port).addFlight [c.op]))

/-- The captured results of a port, in the order of their capture. -/
def capturedOf (cs : List Captured) (k y : Nat) : List Free := (cs.filter fun c => c.sock = k ∧ c.port = y).map Captured.op

theorem capturedOf_cons (c : Captured) (cs : List Captured) (k y : Nat) : capturedOf (c :: cs) k y = capturedOf [c] k y ++ capturedOf cs k y := by
  rw [capturedOf, capturedOf, capturedOf, ← List.map_append, ← List.filter_append]
  rfl

/-- One captured result joins its port, and no other. -/
theorem portOf_rearmOne (t : Tile) (c : Captured) (k y : Nat) :
    portOf (sockOf (rearmOne t c) k) y = (portOf (sockOf t k) y).addFlight (capturedOf [c] k y) := by
  rw [rearmOne, sockOf_putSock]
  by_cases hk : k = c.sock
  · subst hk
    rw [if_pos rfl, portOf_putPort]
    by_cases hy : y = c.port
    · subst hy
      simp [capturedOf]
    · simp [capturedOf, hy, Ne.symm hy, Port.addFlight_nil]
  · simp [capturedOf, hk, Ne.symm hk, Port.addFlight_nil]

theorem sockOf_rearmOne_o (t : Tile) (c : Captured) (k : Nat) : (sockOf (rearmOne t c) k).o = (sockOf t k).o := by
  rw [rearmOne, sockOf_putSock]
  split
  · next hk => rw [hk]; rfl
  · rfl

theorem portOf_foldl_rearmOne (cs : List Captured) (t : Tile) (k y : Nat) :
    portOf (sockOf (cs.foldl rearmOne t) k) y = (portOf (sockOf t k) y).addFlight (capturedOf cs k y) := by
  induction cs generalizing t with
  | nil => exact (Port.addFlight_nil _).symm
  | cons c cs ih => rw [List.foldl_cons, ih, portOf_rearmOne, Port.addFlight_append, ← capturedOf_cons]

theorem sockOf_foldl_rearmOne_o (cs : List Captured) (t : Tile) (k : Nat) : (sockOf (cs.foldl rearmOne t) k).o = (sockOf t k).o := by
  induction cs generalizing t with
  | nil => rfl
  | cons c cs ih => rw [List.foldl_cons, ih, sockOf_rearmOne_o]

/-- Each port once re-armed: what was captured of it is in flight behind what is in flight there. -/
theorem portOf_rearm (t : Tile) (k y : Nat) : portOf (sockOf (rearm t) k) y = (portOf (sockOf t k) y).addFlight (capturedOf t.ctl.captured k y) :=
  portOf_foldl_rearmOne ..

theorem sockOf_rearm_o (t : Tile) (k : Nat) : (sockOf (rearm t) k).o = (sockOf t k).o := sockOf_foldl_rearmOne_o ..

/-- Re-arming changes the sockets, what the fault captured and the FMT writes that wait (R73). -/
theorem rearm_frame (t : Tile) : ∃ ks, rearm t = { t with
    socks := ks
    ctl := { t.ctl with captured := [], fmtPending := t.ctl.fmtPending ++ t.ctl.capturedFmt, capturedFmt := [], rearms := false } } := by
  obtain ⟨ks, h⟩ := foldl_rearm_socks t.ctl.captured t
  exact ⟨ks, by rw [rearm, h]⟩

/-! ## The registers that sret restores (R116) -/

/-- priv is ppriv, and every other bit of STATUS reads as before. -/
theorem bit_status_returnException (t : Tile) (k : Nat) :
    bit (returnException t).csr.status k = if k = 0 then bit t.csr.status 1 else bit t.csr.status k :=
  bit_putStatus t (by decide) _ k

/-- Settles O27: sret by its STATUS bits, re-arming by what each port then holds. -/
theorem exceptionReturn : Obligations.ExceptionReturn := by
  refine ⟨fun t => ?returns, fun t => ?rearms⟩
  case returns =>
    have hothers (k : Nat) (hk : 1 ≤ k) : bit (returnException t).csr.status k = bit t.csr.status k :=
      (bit_status_returnException t k).trans (if_neg (Nat.one_le_iff_ne_zero.mp hk))
    exact ⟨rfl, rfl, bit_status_returnException t 0, hothers, rfl, rfl, rfl, rfl⟩
  case rearms =>
    have hflight (k y : Nat) := congrArg Port.flight (portOf_rearm t k y)
    have hfifo (k y : Nat) := congrArg Port.fifo (portOf_rearm t k y)
    have hoperands := sockOf_rearm_o t
    obtain ⟨ks, hframe⟩ := rearm_frame t
    rw [hframe] at hflight hfifo hoperands ⊢
    exact ⟨rfl, rfl, rfl, rfl, hflight, fun k y => ⟨hfifo k y, hoperands k⟩, rfl⟩

end Sys2Proof.Machine
end

section
/-!
PROOF. Ports (R92, R93, R98, R101): what a read of a result port and the taking of an operand come to, and what they leave unchanged.
-/
namespace Sys2Proof.Machine

/-! ## One result port written -/

/-- The tile with one result port of a socket written. -/
def writePort (t : Tile) (k y : Nat) (p : Port) : Tile := putSock t k (putPort (sockOf t k) y p)

/-- A port whose value counts as read (R92). -/
def markRead (p : Port) : Port := { p with unread := false }

theorem portOf_writePort_same (t : Tile) (k y : Nat) (p : Port) : portOf (sockOf (writePort t k y p) k) y = p := by
  simp [writePort, sockOf_putSock, portOf_putPort]

theorem portOf_writePort_other (t : Tile) (k : Nat) {y m : Nat} (p : Port) (h : m ≠ y) :
    portOf (sockOf (writePort t k y p) k) m = portOf (sockOf t k) m := by
  simp [writePort, sockOf_putSock, portOf_putPort, h]

theorem sockOf_writePort_other (t : Tile) {k m : Nat} (y : Nat) (p : Port) (h : m ≠ k) : sockOf (writePort t k y p) m = sockOf t m := by
  rw [writePort, sockOf_putSock, if_neg h]

/-- The operand ports of the socket stay. -/
theorem sockOf_writePort_o (t : Tile) (k y : Nat) (p : Port) : (sockOf (writePort t k y p) k).o = (sockOf t k).o := by
  rw [writePort, sockOf_putSock, if_pos rfl, putPort]

/-! ## Reading a result port (R92, R98) -/

section Read
variable {t : Tile} {k y : Nat} (n : Nat)

/-- A data-locked result that is ready is taken. -/
theorem readPort_ready {r : Result} {rest : List Result} (h : (portOf (sockOf t k) y).fifo = r :: rest) (hr : r.due = .ready) :
    readPort t n k y = .ok (r.val, writePort t k y { portOf (sockOf t k) y with fifo := rest }) := by
  simp only [readPort, h, if_pos hr]
  rfl

/-- One on its way freezes the bundle. -/
theorem readPort_pending {r : Result} {rest : List Result} (h : (portOf (sockOf t k) y).fifo = r :: rest) (hr : r.due ≠ .ready) :
    readPort t n k y = .freeze := by
  simp only [readPort, h, if_neg hr]

variable (hempty : (portOf (sockOf t k) y).fifo = [])
include hempty

/-- An empty data-locked port is a fault. -/
theorem readPort_empty (hlocked : sockFree t k = false) : readPort t n k y = .fault (mkFault 7 k 0 n y) := by
  simp [readPort, hempty, hlocked]

variable (hfree : sockFree t k = true)
include hfree

/-- With STC.en a read comes too early while an operation is in flight toward the port. -/
theorem readPort_early (hen : bit t.csr.stc 0 = true) (hflight : (portOf (sockOf t k) y).flight ≠ []) :
    readPort t n k y = .fault (mkFault 8 k 0 n 0) := by
  simp [readPort, hempty, hfree, hen, hflight]

/-- Any other read of a free-running port gives its value, which then counts as read. -/
theorem readPort_value (hcalm : bit t.csr.stc 0 = false ∨ (portOf (sockOf t k) y).flight = []) :
    readPort t n k y = .ok ((portOf (sockOf t k) y).val, writePort t k y (markRead (portOf (sockOf t k) y))) := by
  have htime : (bit t.csr.stc 0 && !(portOf (sockOf t k) y).flight.isEmpty) = false := by rcases hcalm with h | h <;> simp [h]
  simp [readPort, hempty, hfree, htime, writePort, markRead]

end Read

/-- Settles O13: each outcome of the read, with the port that it writes. -/
theorem resultPortReads : Obligations.ResultPortReads := by
  refine fun t n k y => ⟨fun r rest hfifo => ⟨fun hr => ?taken, fun hr => readPort_pending n hfifo hr⟩, fun hempty =>
    ⟨readPort_empty n hempty, readPort_early n hempty, fun hfree hcalm => ?value⟩⟩
  case taken =>
    exact ⟨_, readPort_ready n hfifo hr, by rw [portOf_writePort_same], fun m hm => portOf_writePort_other t k _ hm,
      fun m hm => sockOf_writePort_other t y _ hm, sockOf_writePort_o t k y _, rfl⟩
  case value =>
    have hport := portOf_writePort_same t k y (markRead (portOf (sockOf t k) y))
    have hagain := readPort_value (t := writePort t k y (markRead (portOf (sockOf t k) y))) (k := k) (y := y) n
      (by rw [hport]; exact hempty) hfree (by rw [hport]; exact hcalm)
    rw [hport] at hagain
    exact ⟨_, readPort_value n hempty hfree hcalm, by rw [hport]; rfl, by rw [hport]; rfl, ⟨_, hagain⟩, rfl⟩

/-! ## Taking an operand (R92, R93, R101) -/

section Take
variable {t : Tile} {sock p : Nat} (code n : Nat) (held : Bool)

/-- The tile once the operand at a port is consumed. -/
def consumeOperand (t : Tile) (sock p : Nat) : Tile := putSock t sock { sockOf t sock with o := tdel (sockOf t sock).o p }

/-- A consumed operand is absent; the other operands, the results and the other sockets stay. -/
theorem consumeOperand_spec (t : Tile) (sock p : Nat) : tfind (sockOf (consumeOperand t sock p) sock).o p = none ∧
    (∀ q, q ≠ p → tfind (sockOf (consumeOperand t sock p) sock).o q = tfind (sockOf t sock).o q) ∧
    (sockOf (consumeOperand t sock p) sock).y = (sockOf t sock).y ∧ ∀ m, m ≠ sock → sockOf (consumeOperand t sock p) m = sockOf t m := by
  have hsame : sockOf (consumeOperand t sock p) sock = { sockOf t sock with o := tdel (sockOf t sock).o p } := by
    rw [consumeOperand, sockOf_putSock, if_pos rfl]
  refine ⟨?_, fun q hq => ?_, ?_, fun m hm => ?_⟩
  · rw [hsame]; exact tfind_tdel_same ..
  · rw [hsame]; exact tfind_tdel_other _ hq
  · rw [hsame]
  · rw [consumeOperand, sockOf_putSock, if_neg hm]

/-- An operand that is there is read, and consumed unless it is held or the operation runs free. -/
theorem takeOperands_present {v : Operand} (h : tfind (sockOf t sock).o p = some v) : takeOperands t sock code n held [p] =
    .ok ([v.val], if runsFree t sock code ∨ held ∨ v.held then t else consumeOperand t sock p) := by
  simp only [takeOperands, h, Res.bind, consumeOperand, Bool.or_eq_true, or_assoc]

/-- One that is absent faults, or reads zero where the operation runs free. -/
theorem takeOperands_absent (h : tfind (sockOf t sock).o p = none) : takeOperands t sock code n held [p] =
    if runsFree t sock code then .ok ([0], t) else .fault (mkFault 6 sock code n p) := by
  simp only [takeOperands, h, Res.bind]

end Take

/-- Settles O14: an operand that stays leaves the tile, one that is consumed leaves its socket alone changed. -/
theorem operandTaking : Obligations.OperandTaking := by
  refine fun t sock code n held p => ⟨fun v hv => ⟨_, takeOperands_present code n held hv, ?_⟩, takeOperands_absent code n held⟩
  by_cases hstays : runsFree t sock code ∨ held ∨ v.held
  · rw [if_pos hstays, if_pos hstays]
    exact ⟨hv, fun _ _ => rfl, rfl, fun _ _ => rfl, rfl⟩
  · obtain ⟨hgone, hkept, hresults, hothers⟩ := consumeOperand_spec t sock p
    rw [if_neg hstays, if_neg hstays]
    exact ⟨hgone, hkept, hresults, hothers, rfl⟩

end Sys2Proof.Machine
end

section
/-!
PROOF. Taking an exception (R99, R116, R307, R311): the registers of the entry, and the double fault, which stops the tile.
-/
namespace Sys2Proof.Machine

/-! ## Entry (R99, R116) -/

/-- STATUS after an entry: priv is 1, ppriv the privilege before. -/
def enteredStatus (t : Tile) : Word := (putStatus (putStatus t 1 (isSystem t)) 0 true).csr.status

/-- The other bits of STATUS read as before. -/
theorem bit_enteredStatus (t : Tile) (k : Nat) :
    bit (enteredStatus t) k = if k = 0 then true else if k = 1 then bit t.csr.status 0 else bit t.csr.status k := by
  rw [enteredStatus, bit_putStatus _ (by decide), bit_putStatus _ (by decide)]
  rfl

/-- The word that an entry writes to EPC. -/
def epcWord (pc : Nat) (w : Bool) : Word := BitVec.ofNat 64 (pc % 8192 + if w then 65536 else 0)

/-- A tile with EPC and CAUSE written. -/
def saveCause (epc cause : Word) (t : Tile) : Tile := { t with csr := { t.csr with epc := epc, cause := cause } }

/-- The tile that an entry leaves, from the words that it writes to EPC and CAUSE. -/
def entered (epc cause : Word) (t : Tile) : Tile :=
  { t with pc := 0, run := .go, csr := { t.csr with epc := epc, cause := cause, status := enteredStatus t },
           ctl := { t.ctl with controlOnly := false, split := none, rearms := false } }

/-- A tile with STATUS written. -/
def withStatus (status : Word) (t : Tile) : Tile := { t with csr := { t.csr with status := status } }

/-- The two STATUS bits of an entry, written behind EPC and CAUSE. -/
theorem putStatus_saveCause (epc cause : Word) (t : Tile) :
    putStatus (putStatus (saveCause epc cause t) 1 (isSystem (saveCause epc cause t))) 0 true = withStatus (enteredStatus t) (saveCause epc cause t) := rfl

/-- The steps of an entry, for any words that EPC and CAUSE get. -/
theorem entered_eq (epc cause : Word) (t : Tile) : entered epc cause t =
    let u := putStatus (putStatus (saveCause epc cause t) 1 (isSystem (saveCause epc cause t))) 0 true
    { u with pc := 0, run := .go, ctl := { u.ctl with controlOnly := false, split := none, rearms := false } } := by
  rw [putStatus_saveCause]
  rfl

/-- An entry writes EPC, CAUSE, STATUS and the PC, and clears the marks of the bundle it leaves. -/
theorem enterSystem_eq (f : FaultInfo) (pc : Nat) (w : Bool) (t : Tile) : enterSystem f pc w t = entered (epcWord pc w) (causeWord f) t := by
  rw [entered_eq]
  rfl

/-- The machine that an exception is taken in: a fault inside a bundle has captured the free-running pipelines (R99). -/
def beforeEntry (inBundle : Bool) (s : State) : State := if inBundle then onCur capture s else s

/-- The capture leaves the CSRs. -/
theorem beforeEntry_csr (b : Bool) (s : State) : (beforeEntry b s).cur.csr = s.cur.csr := by cases b <;> rfl

/-- At user privilege the tile enters the system, and the disposition follows. -/
theorem takeException_user {s : State} (f : FaultInfo) (pc : Nat) (w b : Bool) (h : isSystem s.cur = false) :
    takeException f pc w b s = dispose f (onCur (enterSystem f pc w) (beforeEntry b s)) := by
  have huser : isSystem (beforeEntry b s).cur = false := by rw [isSystem, beforeEntry_csr]; exact h
  exact if_neg (by rw [Bool.not_eq_true]; exact huser)

/-- At system privilege it is a double fault. -/
theorem takeException_system {s : State} (f : FaultInfo) (pc : Nat) (w b : Bool) (h : isSystem s.cur = true) :
    takeException f pc w b s = doubleFault f (beforeEntry b s) := by
  have hsystem : isSystem (beforeEntry b s).cur = true := by rw [isSystem, beforeEntry_csr]; exact h
  exact if_pos hsystem

/-! ## A double fault (R307, R308) -/

/-- The focused tile is stopped and has these CSRs. -/
structure StoppedWith (c : Csr) (s : State) : Prop where
  csr : s.cur.csr = c
  run : s.cur.run = .stopped

/-- What leaves the focused tile leaves it stopped. -/
theorem StoppedWith.of_cur {c : Csr} {s u : State} (h : StoppedWith c s) (hu : u.cur = s.cur) : StoppedWith c u :=
  ⟨hu ▸ h.csr, hu ▸ h.run⟩

theorem ringPut_cur (timed : Bool) (other : Nat) (s : State) (r : Ring) (bs : List Byte) : (ringPut timed other s r bs).2.cur = s.cur := by
  unfold ringPut
  split
  · rfl
  · dsimp only
    split
    · rfl
    · split <;> rfl

theorem ringDrain_cur (timed : Bool) (fuel : Nat) (s : State) (r : Ring) : (ringDrain timed fuel s r).2.cur = s.cur := by
  induction fuel generalizing s r with
  | zero => rfl
  | succ fuel ih =>
    unfold ringDrain
    split
    · rfl
    · split
      · exact (ih _ _).trans (ringPut_cur timed 0 s _ _)
      · rfl

/-- A record is written for the host, not for the tile. -/
theorem eventRecord_cur (c : Nat) (bs : List Byte) (s : State) : (eventRecord c bs s).cur = s.cur := by
  unfold eventRecord
  split
  · rfl
  · exact (ringPut_cur _ _ _ _ _).trans (ringDrain_cur false 256 s _)

theorem queueCompletion_cur (n : Node) (st : Nat) (s : State) : (queueCompletion n st s).cur = s.cur := by
  unfold queueCompletion
  split <;> rfl

theorem leaveNode_id (now : Nat) (t : Tile) : (leaveNode now t).id = t.id := by
  unfold leaveNode
  split <;> rfl

/-- A stopped tile of a faulted node stays stopped. -/
theorem leaveNode_stopped (now : Nat) {t : Tile} (h : t.run = .stopped) : leaveNode now t = stopTile .stopped t := by
  simp [leaveNode, h]

section Stopped
variable {c : Csr} {s : State} (h : StoppedWith c s)
include h

theorem onNodeTiles_stoppedWith (n : Node) (now : Nat) : StoppedWith c (onNodeTiles n (leaveNode now) s) := by
  refine List.foldlRecOn (motive := StoppedWith c) (nodeTiles n) _ h fun u hu i _ => ?_
  have hcur := onTile_cur i (leaveNode now) u (leaveNode_id now)
  split at hcur
  · rw [leaveNode_stopped now hu.run] at hcur
    exact ⟨by rw [hcur]; exact hu.csr, by rw [hcur]; rfl⟩
  · exact hu.of_cur hcur

/-- The fault of a node, its own or another, leaves the stopped tile stopped with its CSRs. -/
theorem faultNodeQuiet_stoppedWith (n : Node) : StoppedWith c (faultNodeQuiet n s) := by
  refine (onNodeTiles_stoppedWith h n s.cur.wheel).of_cur ?_
  unfold faultNodeQuiet
  dsimp only
  split
  · rfl
  · exact queueCompletion_cur n 2 _

/-- So does the fault of a node with all that it takes with it. -/
theorem faultNode_stoppedWith (n : Node) (cause : Nat) (addr : Word) {own : State → State} (hown : ∀ u, (own u).cur = u.cur) :
    StoppedWith c (faultNode n cause addr own s) := by
  have hown := (faultNodeQuiet_stoppedWith h n).of_cur (hown _)
  unfold faultNode
  dsimp only
  refine StoppedWith.of_cur (s := List.foldl _ _ _) ?_ rfl
  refine List.foldlRecOn (motive := StoppedWith c) (attachedNodes s n.ref) _ hown fun u hu r _ => ?_
  split
  · exact hu
  · split
    · exact hu
    · exact (faultNodeQuiet_stoppedWith hu _).of_cur (eventRecord_cur ..)

end Stopped

theorem holdFault_stoppedWith (f : FaultInfo) (double : Bool) (s : State) : StoppedWith s.cur.csr (holdFault f double s) := ⟨rfl, rfl⟩

/-- The node of the focused tile faulted: the tile stops, and its CSRs stay. -/
theorem faultCurNode_stoppedWith (cause : Nat) (addr : Word) (s : State) : StoppedWith s.cur.csr (faultCurNode cause addr s) := by
  have hstop : StoppedWith s.cur.csr (onCur (stopTile .stopped) s) := ⟨rfl, rfl⟩
  unfold faultCurNode
  dsimp only
  split
  · exact hstop
  · exact faultNode_stoppedWith hstop _ cause addr fun u => eventRecord_cur _ _ u

theorem doubleFault_stoppedWith (f : FaultInfo) (s : State) : StoppedWith s.cur.csr (doubleFault f s) := by
  unfold doubleFault
  split
  · exact holdFault_stoppedWith f true s
  · exact faultCurNode_stoppedWith f.cause f.addr (onCur (stopTile .stopped) s)

/-- Settles O25: the registers of the entry, and the double fault by what it leaves of the stopped tile. -/
theorem exceptionEntry : Obligations.ExceptionEntry := by
  refine ⟨fun f pc w t => ?entry, fun f pc w b s h => takeException_user f pc w b h, fun f pc w b s h => ?double, fun f pc w b s h => ?stopped⟩
  case entry =>
    have hstatus := bit_enteredStatus t
    have hothers (k : Nat) (hk : 2 ≤ k) : bit (enteredStatus t) k = bit t.csr.status k := by rw [hstatus, if_neg (by omega), if_neg (by omega)]
    have hword : BitVec.ofNat 64 (pc % 8192 + if w then 65536 else 0) = epcWord pc w := rfl
    rw [enterSystem_eq, hword]
    generalize epcWord pc w = epc, causeWord f = cause
    exact ⟨rfl, rfl, rfl, rfl, hstatus 0, hstatus 1, hothers, rfl, rfl, rfl, rfl⟩
  case double =>
    rw [takeException_system f pc w b h, doubleFault, beforeEntry_csr]
    rfl
  case stopped =>
    have hstop := doubleFault_stoppedWith f (beforeEntry b s)
    rw [beforeEntry_csr, ← takeException_system f pc w b h] at hstop
    exact ⟨hstop.csr, hstop.run⟩

end Sys2Proof.Machine
end

section
/-!
PROOF. The operations of sys beside the CSRs (R86, R126-R128): tsc and est, the trap of an ecall, couple and decouple.
-/
namespace Sys2Proof.Machine
open Sys2Proof.Machine.Claims

section Fire
variable {i : Instr} {g : Guard} {x : Src} {f : Fire} {s : State} {v : Vec} {t : Tile}

/-- Reading the source of a move leaves the PC. -/
theorem Fires_pc (h : Fires i g x s v t) : t.pc = s.cur.pc := by
  have hframe : { t with socks := s.cur.socks, streams := s.cur.streams, net := s.cur.net } = s.cur := readSrc_frame h.read
  have hpc := congrArg Tile.pc hframe
  exact hpc

/-- A firing move whose destination raises a fault takes it inside its bundle. -/
theorem runMove_fault (h : Fires i g x s v t) {e : FaultInfo} (hf : f 1 x.hold v (withTile s t) = .fault e) :
    runMove i g x f s = .next (takeException e s.cur.pc.toNat false true s) := by
  rw [runMove_fires h, hf]
  rfl

/-- A firing move whose destination leaves a tile with the control state before ends there. -/
theorem runMove_goes (h : Fires i g x s v t) {u : Tile} (hf : f 1 x.hold v (withTile s t) = .ok (withTile s u)) (hu : u.ctl = t.ctl) :
    runMove i g x f s = .next (withTile s u) :=
  runMove_ok h hf (AtRest_of_ctl (Fires_rest h) hu)

end Fire

/-! ## An answer that comes later (R92, R126, R128) -/

/-- What an operation that another agent answers leaves: it waits in the tile's list under the tile's serial number, and a place is kept for
its result. -/
theorem queueSys_spec (code : Nat) (arg : Vec) (t : Tile) :
    (queueSys code arg t).lnk = t.lnk ++ [{ code := code + 100, arg := arg, serial := t.serial }] ∧ (queueSys code arg t).serial = t.serial + 1 ∧
    (portOf (sockOf (queueSys code arg t) 19) 0).fifo = (portOf (sockOf t 19) 0).fifo ++ [{ due := .waits t.serial, val := 0, narrowed := none }] ∧
    { queueSys code arg t with lnk := t.lnk, serial := t.serial, socks := t.socks } = t := by
  refine ⟨rfl, rfl, ?_, rfl⟩
  exact congrArg Port.fifo (portOf_writePort_same { t with serial := t.serial + 1, lnk := t.lnk ++ [{ code := code + 100, arg := arg, serial := t.serial }] } 19 0 _)

/-! ## tsc and est (R126) -/

/-- tsc sends TSC. -/
theorem fireSysTsc_sends (s : State) {t : Tile} (h : Room t 19 12 [0]) (n : Nat) (held : Bool) (v : Vec) :
    fireSysTsc n held v (withTile s t) = .ok (withTile s (deliver t 19 12 0 2 (wordVec (tscOf (withTile s t))) none)) := by
  rw [fireSysTsc, h]
  rfl

/-- The tile once EST is written and on its way to the headworks. -/
def sendEst (t : Tile) (v : Word) : Tile := queueSys 13 (wordVec (csrPut t 7 v).csr.est) (csrPut t 7 v)

/-- EST takes the low 40 bits of the value (R86), waits for its answer, and nothing else changes. -/
theorem sendEst_spec (t : Tile) (v : Word) : (sendEst t v).csr.est = (t.csr.est &&& ~~~0xFFFFFFFFFF) ||| (v &&& 0xFFFFFFFFFF) ∧
    (sendEst t v).lnk = t.lnk ++ [{ code := 113, arg := wordVec (sendEst t v).csr.est, serial := t.serial }] ∧
    (sendEst t v).serial = t.serial + 1 ∧
    (portOf (sockOf (sendEst t v) 19) 0).fifo = (portOf (sockOf t 19) 0).fifo ++ [{ due := .waits t.serial, val := 0, narrowed := none }] ∧
    { sendEst t v with csr := { (sendEst t v).csr with est := t.csr.est }, lnk := t.lnk, serial := t.serial, socks := t.socks } = t := by
  have hput : csrPut t 7 v = { t with csr := { t.csr with est := (t.csr.est &&& ~~~0xFFFFFFFFFF) ||| (v &&& 0xFFFFFFFFFF) } } := rfl
  rw [sendEst, hput]
  generalize (t.csr.est &&& ~~~0xFFFFFFFFFF) ||| (v &&& 0xFFFFFFFFFF) = est
  obtain ⟨hlnk, hserial, hfifo, -⟩ := queueSys_spec 13 (wordVec est) { t with csr := { t.csr with est := est } }
  exact ⟨rfl, hlnk, hserial, hfifo, rfl⟩

/-- est sends EST to the headworks once it is written. -/
theorem fireSysEst_queues (s : State) {t : Tile} (h : Room t 19 13 [0]) (n : Nat) (held : Bool) (v : Vec) :
    fireSysEst n held v (withTile s t) = .ok (withTile s (sendEst t (vecWord v))) := by
  rw [fireSysEst, h]
  rfl

/-! ## ecall (R127) -/

/-- A bundle whose moves raise one trap and write no SOCKMODE value takes that trap at its end, with EPC.pc the next bundle. -/
theorem settle_oneTrap {s u : State} {e : FaultInfo} (h : AtRest u.cur) :
    settle s (.ok (onCur (fun t => { t with ctl := { t.ctl with traps := t.ctl.traps ++ [e] } }) u)) =
      takeException e (u.cur.pc.toNat + 1) false false u := by
  have hend : onCur endMoves (onCur (fun t => { t with ctl := { t.ctl with traps := t.ctl.traps ++ [e] } }) u) =
      onCur (fun t => { t with ctl := { t.ctl with traps := [e] } }) u := by
    simp [onCur, endMoves, h.mode, h.traps]
  have htaken : onCur (fun t => { t with ctl := { t.ctl with traps := [] } }) u = u := congrArg (withTile u) (noTraps _ h.traps)
  simp only [settle, hend]
  exact congrArg (takeException e (u.cur.pc.toNat + 1) false false) htaken

/-! ## couple and decouple (R128) -/

/-- The answer that couple or decouple gives at once; none where it waits for the partner. -/
def pairAnswer (couple : Bool) (s : State) : Option Nat :=
  if couple then (if s.dev.variantH then some 1 else if partnerInNode s then none else some 2)
  else if bit s.cur.csr.status 7 then none else some 0

/-- couple and decouple run with their code and that answer. -/
theorem exec_pair (couple : Bool) (g : Guard) (x : Src) (s : State) :
    exec (if couple then .sysCouple g x else .sysDecouple g x) s = runMove (if couple then .sysCouple g x else .sysDecouple g x) g x
      (firePair (if couple then 15 else 16) (pairAnswer couple)) s := by
  cases couple with
  | false => rfl
  | true =>
    have hanswer : (fun s : State => if s.dev.variantH then some 1 else if !partnerInNode s then some 2 else none) = pairAnswer true := by
      funext s
      cases h : partnerInNode s <;> simp [pairAnswer, h]
    exact congrArg (fun now => runMove (.sysCouple g x) g x (firePair 15 now) s) hanswer

section Pair
variable {code : Nat} {now : State → Option Nat} {s : State} {t : Tile} {v : Vec} (n : Nat) (held : Bool)

/-- An operand other than 0 is an illegal encoding. -/
theorem firePair_illegal (hv : v ≠ 0) : firePair code now n held v s = .fault (mkFault 1 19 code n 0) := if_pos hv

/-- User privilege is a fault. -/
theorem firePair_privilege (hv : v = 0) (hu : isSystem t = false) : firePair code now n held v (withTile s t) = .fault (mkFault 2 19 code n 0) := by
  simp [firePair, hv, hu]

variable (hv : v = 0) (hs : isSystem t = true) (hroom : Room t 19 code [0])
include hv hs hroom

/-- With room, an answer there is at once is sent. -/
theorem firePair_answers {r : Nat} (h : now (withTile s t) = some r) :
    firePair code now n held v (withTile s t) = .ok (withTile s (deliver t 19 code 0 2 (toVec r) none)) := by
  unfold Room at hroom
  simp [firePair, hv, hs, hroom, h, Res.bind]

/-- Without one the operation waits for the partner. -/
theorem firePair_waits (h : now (withTile s t) = none) :
    firePair code now n held v (withTile s t) = .ok (withTile s (queueSys code 0 t)) := by
  unfold Room at hroom
  simp [firePair, hv, hs, hroom, h, Res.bind, onCur]

end Pair

/-- Settles O44: each operation by what its trigger does. -/
theorem systemOperations : Obligations.SystemOperations := by
  refine ⟨fun g x s v t hf hroom => ?tsc, fun g x s v t hf hroom => ?est, fun g x s v t hf => ?ecall, fun couple i g x s v t hi hf => ?pair⟩
  case tsc =>
    have hexec : exec (.sysTsc g x) s = runMove (.sysTsc g x) g x fireSysTsc s := rfl
    exact hexec.trans (runMove_goes hf (fireSysTsc_sends s hroom 1 x.hold v) rfl)
  case est =>
    have hexec : exec (.sysEst g x) s = runMove (.sysEst g x) g x fireSysEst s := rfl
    exact ⟨sendEst t (vecWord v), hexec.trans (runMove_goes hf (fireSysEst_queues s hroom 1 x.hold v) rfl), sendEst_spec t (vecWord v)⟩
  case ecall =>
    have hexec : exec (.sysEcall g x) s = runMove (.sysEcall g x) g x fireSysEcall s := rfl
    refine hexec.trans ((runMove_fires hf fireSysEcall).trans (congrArg _ ?_))
    rw [← Fires_pc hf]
    exact settle_oneTrap (u := withTile s t) (Fires_rest hf)
  case pair =>
    subst hi
    intro code now
    have hnow : pairAnswer couple (withTile s t) = now := rfl
    have hexec := exec_pair couple g x s
    refine ⟨fun hv => hexec.trans (runMove_fault hf (firePair_illegal 1 x.hold hv)),
      fun hv hu => hexec.trans (runMove_fault hf (firePair_privilege 1 x.hold hv hu)), fun hs hv hroom => ⟨fun r hr => ?_, fun hr => ?_⟩⟩
    · exact hexec.trans (runMove_goes hf (firePair_answers 1 x.hold hv hs hroom (hnow.trans hr)) rfl)
    · obtain ⟨hlnk, -, hfifo, hframe⟩ := queueSys_spec code 0 t
      exact ⟨_, hexec.trans (runMove_goes hf (firePair_waits 1 x.hold hv hs hroom (hnow.trans hr)) rfl), hlnk, hfifo, hframe⟩

end Sys2Proof.Machine
end

section
/-!
PROOF. The integer operations of ia0, ia1 and imd (R101-R103): each is a computing trigger of its entry in the tables.
-/
namespace Sys2Proof.Machine
open Sys2Proof.Machine.Claims

/-! ## The word functions of ia (R101, R102) -/

/-- An operand as a word is the low half of the operand, the absent one 0. -/
theorem wordAt_map_vecWord (ops : List Vec) (k : Nat) : wordAt (ops.map vecWord) k = vecWord (opAt ops k) := by
  unfold wordAt opAt
  rw [List.getElem?_map]
  cases ops[k]? with
  | none => exact (BitVec.setWidth_zero ..).symm
  | some v => rfl

section Words
variable (a b : Word)

/-- The shift amount is the trigger value's bits 5:0. -/
theorem low6_eq_toNat_and : low6 b = (b &&& 63).toNat := (Nat.and_two_pow_sub_one_eq_mod b.toNat 6).symm

theorem shiftLeft_low6 : a <<< low6 b = a <<< (b &&& 63) := by rw [low6_eq_toNat_and, BitVec.shiftLeft_eq']

theorem ushiftRight_low6 : a >>> low6 b = a >>> (b &&& 63) := by rw [low6_eq_toNat_and, BitVec.ushiftRight_eq']

/-- A shift left by a number is a product with a power of two. -/
theorem shiftLeft_eq_mul_pow (k : Nat) : a <<< k = a * 2 ^ k := by
  apply BitVec.eq_of_toNat_eq
  simp [BitVec.toNat_mul, BitVec.toNat_pow, Nat.shiftLeft_eq, Nat.mul_mod]

variable {a b} {x y : Word} (hxy : a = b → x = y)
include hxy

/-- A choice by a strict comparison is one by the weak comparison where equal operands choose alike. -/
theorem ite_slt_eq_ite_le : (if a.slt b then x else y) = if a.toInt ≤ b.toInt then x else y := by
  by_cases hab : a = b
  · simp [hxy hab]
  · have hne : a.toInt ≠ b.toInt := fun h => hab (BitVec.toInt_inj.mp h)
    simp only [BitVec.slt_iff_toInt_lt, Int.le_iff_lt_or_eq, hne, or_false]

theorem ite_ult_eq_ite_le : (if a.ult b then x else y) = if a.toNat ≤ b.toNat then x else y := by
  by_cases hab : a = b
  · simp [hxy hab]
  · have hne : a.toNat ≠ b.toNat := fun h => hab (BitVec.toNat_inj.mp h)
    simp only [BitVec.ult_iff_lt, BitVec.lt_def, Nat.le_iff_lt_or_eq, hne, or_false]

end Words

/-- A comparison's word by the condition that it decides. -/
theorem wordBool_eq_ite {c : Bool} {p : Prop} [Decidable p] (h : c = true ↔ p) : wordBool c = if p then 1 else 0 := by
  unfold wordBool
  simp only [h]

theorem wordBool_bne (a b : Word) : wordBool (a != b) = if a = b then 0 else 1 := by
  rw [wordBool_eq_ite bne_iff_ne, ite_not]

/-- bins inserts the field of its mask, the mask being a multiple of the field's place (R102). -/
theorem binsOf_eq (a c b : Word) : binsOf a c b =
    let m : Word := BitVec.ofNat 64 ((2 ^ min (bitsOf b.toNat 8 7) 64 - 1) * 2 ^ (b.toNat % 64))
    (a &&& ~~~m) ||| ((c <<< (b.toNat % 64)) &&& m) := by
  rw [← Nat.shiftLeft_eq]
  rfl

/-! ## The tables as computing triggers (R102, R103) -/

section Rows
variable {i : Instr} {row : Row} {sock code : Nat}

/-- An operation of ia whose word is `r` of the operands 0 and 1 and the trigger value triggers the computation of the row of `r`. -/
theorem fireOf_of_iaVal {n : Bool} {op lat : Nat} {ports : List Nat} {f : List Word → Word → Word} {r : Word → Word → Word → Word}
    (hf : fireOf i = some (fireIa n op lat ports f)) (ht : i.trigger = some (if n then 2 else 1, op)) (hrow : iaVal lat ports r = some row)
    (hnames : i.trigger = some (sock, code)) (h : ∀ ops b, f ops b = r (wordAt ops 0) (wordAt ops 1) b) :
    fireOf i = some (firePure sock code row.lat row.ports row.value) := by
  obtain ⟨rfl, rfl⟩ := Prod.mk.inj (Option.some.inj (ht.symm.trans hnames))
  obtain rfl := Option.some.inj hrow
  rw [hf]
  simp only [fireIa, h, wordAt_map_vecWord]

/-- Each operation of ia triggers the computation of its row. -/
theorem fireOf_iaRow (hrow : iaRow i = some row) (hnames : i.trigger = some (sock, code)) :
    fireOf i = some (firePure sock code row.lat row.ports row.value) := by
  unfold iaRow at hrow
  cases i
  case iaAdd | iaSub | iaAnd | iaOr | iaXor | iaAndn | iaSra | iaSel | iaPass | iaSext | iaZext | iaClz | iaPopc | iaBext =>
    exact fireOf_of_iaVal rfl rfl hrow hnames fun _ _ => rfl
  case iaShl => exact fireOf_of_iaVal rfl rfl hrow hnames fun _ _ => shiftLeft_low6 ..
  case iaShr => exact fireOf_of_iaVal rfl rfl hrow hnames fun _ _ => ushiftRight_low6 ..
  case iaMin => exact fireOf_of_iaVal rfl rfl hrow hnames fun _ _ => ite_slt_eq_ite_le id
  case iaMax => exact fireOf_of_iaVal rfl rfl hrow hnames fun _ _ => ite_slt_eq_ite_le Eq.symm
  case iaMinu => exact fireOf_of_iaVal rfl rfl hrow hnames fun _ _ => ite_ult_eq_ite_le id
  case iaMaxu => exact fireOf_of_iaVal rfl rfl hrow hnames fun _ _ => ite_ult_eq_ite_le Eq.symm
  case iaCeq => exact fireOf_of_iaVal rfl rfl hrow hnames fun _ _ => wordBool_eq_ite beq_iff_eq
  case iaCne => exact fireOf_of_iaVal rfl rfl hrow hnames fun _ _ => wordBool_bne ..
  case iaClt => exact fireOf_of_iaVal rfl rfl hrow hnames fun _ _ => wordBool_eq_ite BitVec.slt_iff_toInt_lt
  case iaCltu => exact fireOf_of_iaVal rfl rfl hrow hnames fun _ _ => wordBool_eq_ite BitVec.ult_iff_lt
  case iaCle => exact fireOf_of_iaVal rfl rfl hrow hnames fun _ _ => wordBool_eq_ite BitVec.sle_iff_toInt_le
  case iaCleu => exact fireOf_of_iaVal rfl rfl hrow hnames fun _ _ => wordBool_eq_ite BitVec.ule_iff_le
  case iaAddsc => exact fireOf_of_iaVal rfl rfl hrow hnames fun ops b => congrArg (wordAt ops 0 + ·) (shiftLeft_eq_mul_pow b _)
  case iaBins => exact fireOf_of_iaVal rfl rfl hrow hnames fun _ _ => binsOf_eq ..
  all_goals cases hrow

/-- Each multiplication of imd triggers the computation of its row. -/
theorem fireOf_imdMulRow (hrow : imdMulRow i = some row) (hnames : i.trigger = some (sock, code)) :
    fireOf i = some (firePure sock code row.lat row.ports row.value) := by
  cases i
  case imdMul | imdMulh | imdMulhu => cases hrow; cases hnames; rfl
  all_goals cases hrow

end Rows

/-- A trigger whose destination is the computing trigger of a row delivers the row's value to y0. -/
theorem exec_computes {i : Instr} {row : Row} {g : Guard} {x : Src} {sock code : Nat} {s : State} {v : Vec} {t0 t : Tile} {ops : List Vec}
    (hf : fireOf i = some (firePure sock code row.lat row.ports row.value)) (h : Triggers i g x sock code row.ports [0] s v t0 ops t) :
    exec i s = .next (withTile s (deliver t sock code 0 row.lat (row.value t0 ops v) none)) :=
  (exec_fireOf h.fires.isMove hf).trans (runMove_pure h)

/-- Settles O1: each operation is the computing trigger of its row. -/
theorem integerResults : Obligations.IntegerResults :=
  fun _ _ hrow _ _ _ _ _ _ _ _ _ h => exec_computes (fireOf_iaRow hrow h.names) h

/-! ## Divisions and remainders (R103) -/

/-- The quotient of a divide form, signed toward zero or unsigned, where b is not 0. -/
def divQuotient (sgn : Bool) (a b : Word) : Int := if sgn then a.toInt.tdiv b.toInt else a.toNat / b.toNat

/-- The remainder of a divide form, where b is not 0. -/
def divRemainder (sgn : Bool) (a b : Word) : Int := if sgn then a.toInt.tmod b.toInt else a.toNat % b.toNat

/-- What a divide form delivers, with its cases of b = 0. -/
def divValue (sgn rem : Bool) (a b : Word) : Word :=
  if b = 0 then (if rem then a else BitVec.allOnes 64) else BitVec.ofInt 64 (if rem then divRemainder sgn a b else divQuotient sgn a b)

/-- The latency of a divide form from its quotient. -/
def divCycles (sgn : Bool) (a b : Word) : Nat := if b = 0 then 8 else 8 + ceilDiv (bitLen (divQuotient sgn a b).natAbs) 2

section Divide
variable {a b : Word}

/-- The model's latency of a magnitude that is the quotient's. -/
theorem divLatency_eq_divCycles {sgn : Bool} {q : Nat} (h : b ≠ 0 → q = (divQuotient sgn a b).natAbs) : divLatency b q = divCycles sgn a b := by
  unfold divLatency divCycles
  split
  · rfl
  · next hb => rw [h hb]; rfl

theorem sdiv64_zero (hb : b = 0) : sdiv64 a b = (-1, a.toInt) := if_pos hb

theorem sdiv64_pos (hb : b ≠ 0) : sdiv64 a b = (divQuotient true a b, divRemainder true a b) := if_neg hb

theorem udiv64_zero (hb : b = 0) : udiv64 a b = (2 ^ 64 - 1, a.toNat) := if_pos hb

theorem udiv64_pos (hb : b ≠ 0) : udiv64 a b = (a.toNat / b.toNat, a.toNat % b.toNat) := if_neg hb

theorem divValue_zero (hb : b = 0) (sgn rem : Bool) : divValue sgn rem a b = if rem then a else BitVec.allOnes 64 := if_pos hb

theorem divValue_pos (hb : b ≠ 0) (sgn rem : Bool) :
    divValue sgn rem a b = BitVec.ofInt 64 (if rem then divRemainder sgn a b else divQuotient sgn a b) := if_neg hb

end Divide

/-- The unsigned quotient is the library's. -/
theorem divQuotient_unsigned (a b : Word) : divQuotient false a b = ((a.toNat / b.toNat : Nat) : Int) := (Int.natCast_ediv ..).symm

theorem divRemainder_unsigned (a b : Word) : divRemainder false a b = ((a.toNat % b.toNat : Nat) : Int) := (Int.natCast_emod ..).symm

/-- The signed pair of the model: the latency's magnitude and the two values. -/
theorem sdiv64_spec (a b : Word) : divLatency b (sdiv64 a b).1.natAbs = divCycles true a b ∧
    BitVec.ofInt 64 (sdiv64 a b).1 = divValue true false a b ∧ BitVec.ofInt 64 (sdiv64 a b).2 = divValue true true a b := by
  refine ⟨divLatency_eq_divCycles fun hb => by rw [sdiv64_pos hb], ?_⟩
  by_cases hb : b = 0
  · rw [sdiv64_zero hb, divValue_zero hb, divValue_zero hb]
    exact ⟨rfl, BitVec.ofInt_toInt⟩
  · rw [sdiv64_pos hb, divValue_pos hb, divValue_pos hb]
    exact ⟨rfl, rfl⟩

/-- The unsigned pair of the model. -/
theorem udiv64_spec (a b : Word) : divLatency b (udiv64 a b).1 = divCycles false a b ∧
    BitVec.ofNat 64 (udiv64 a b).1 = divValue false false a b ∧ BitVec.ofNat 64 (udiv64 a b).2 = divValue false true a b := by
  refine ⟨divLatency_eq_divCycles fun hb => by rw [udiv64_pos hb, divQuotient_unsigned, Int.natAbs_natCast], ?_⟩
  by_cases hb : b = 0
  · rw [udiv64_zero hb, divValue_zero hb, divValue_zero hb]
    exact ⟨rfl, BitVec.ofNat_toNat 64 a |>.trans (BitVec.setWidth_eq a)⟩
  · rw [udiv64_pos hb, divValue_pos hb, divValue_pos hb, divQuotient_unsigned, divRemainder_unsigned]
    exact ⟨(BitVec.ofInt_natCast ..).symm, (BitVec.ofInt_natCast ..).symm⟩

/-- What a divide form comes to: its value, for y0, after the latency that its quotient asks for. -/
def divide (sgn rem : Bool) (ops : List Vec) (b : Vec) : Nat × List (Nat × Vec × Option Vec) :=
  (divCycles sgn (vecWord (opAt ops 0)) (vecWord b), [(0, wordVec (divValue sgn rem (vecWord (opAt ops 0)) (vecWord b)), none)])

/-- The destination of a divide form. -/
def fireDivide (sock code : Nat) (sgn rem : Bool) : Fire := fireVariable sock code [0] [0] fun _ _ ops b => .ok (divide sgn rem ops b)

theorem fireDiv_eq_fireDivide {code : Nat} {f : Word → Word → Nat × Word} {sgn rem : Bool} (hlat : ∀ a b, divLatency b (f a b).1 = divCycles sgn a b)
    (hval : ∀ a b, (f a b).2 = divValue sgn rem a b) : fireDiv code f = fireDivide 3 code sgn rem := by
  simp only [fireDiv, fireDivide, divide, hlat, hval]

/-- A divide form that triggers delivers its value. -/
theorem runMove_divide {i : Instr} {g : Guard} {x : Src} {sock code : Nat} {s : State} {v : Vec} {t0 t : Tile} {ops : List Vec}
    (h : Triggers i g x sock code [0] [0] s v t0 ops t) (sgn rem : Bool) : runMove i g x (fireDivide sock code sgn rem) s =
      .next (withTile s (deliver t sock code 0 (divCycles sgn (vecWord (opAt ops 0)) (vecWord v))
        (wordVec (divValue sgn rem (vecWord (opAt ops 0)) (vecWord v))) none)) :=
  runMove_variable (c := fun _ _ ops b => .ok (divide sgn rem ops b)) h rfl

/-- Each divide form of imd is that of its row. -/
theorem fireOf_imdDivRow {i : Instr} {sock code : Nat} {sgn rem : Bool} (hrow : imdDivRow i = some (sgn, rem))
    (hnames : i.trigger = some (sock, code)) : fireOf i = some (fireDivide sock code sgn rem) := by
  cases i
  case imdDiv =>
    cases hrow; cases hnames
    exact congrArg some (fireDiv_eq_fireDivide (fun a b => (sdiv64_spec a b).1) fun a b => (sdiv64_spec a b).2.1)
  case imdRem =>
    cases hrow; cases hnames
    exact congrArg some (fireDiv_eq_fireDivide (fun a b => (sdiv64_spec a b).1) fun a b => (sdiv64_spec a b).2.2)
  case imdDivu =>
    cases hrow; cases hnames
    exact congrArg some (fireDiv_eq_fireDivide (fun a b => (udiv64_spec a b).1) fun a b => (udiv64_spec a b).2.1)
  case imdRemu =>
    cases hrow; cases hnames
    exact congrArg some (fireDiv_eq_fireDivide (fun a b => (udiv64_spec a b).1) fun a b => (udiv64_spec a b).2.2)
  all_goals cases hrow

/-- Settles O2: a multiplication is the computing trigger of its row, a divide form one of variable latency. -/
theorem multiplyDivideResults : Obligations.MultiplyDivideResults := by
  refine ⟨fun i row hrow g x sock code s v t0 ops t h => exec_computes (fireOf_imdMulRow hrow h.names) h,
    fun i sgn rem hrow g x sock code s v t0 ops t h => ?_⟩
  exact (exec_fireOf h.fires.isMove (fireOf_imdDivRow hrow h.names)).trans (runMove_divide h sgn rem)

end Sys2Proof.Machine
end

section
/-!
PROOF. Control operations that wait, trap or return (R111-R113, R116, R117, R124): what wait, strokeend, halt, trap, uiret and sret leave.
-/
namespace Sys2Proof.Machine
open Sys2Proof.Machine.Claims

/-! ## What a control operation finds (R24, R327) -/

section AtControl
variable (i : Instr) (h : CtlHead) (s : State)

@[simp] theorem atControl_regs : (atControl i h s).cur.regs = s.cur.regs := by unfold atControl; dsimp only; split <;> rfl
@[simp] theorem atControl_socks : (atControl i h s).cur.socks = s.cur.socks := by unfold atControl; dsimp only; split <;> rfl
@[simp] theorem atControl_status : (atControl i h s).cur.csr.status = s.cur.csr.status := by unfold atControl; dsimp only; split <;> rfl
@[simp] theorem atControl_uiepc : (atControl i h s).cur.csr.uiepc = s.cur.csr.uiepc := by unfold atControl; dsimp only; split <;> rfl
@[simp] theorem atControl_loops : (atControl i h s).cur.ctl.loops = s.cur.ctl.loops := by unfold atControl; dsimp only; split <;> rfl

theorem getX_atControl (k : Nat) : getX (atControl i h s).cur k = getX s.cur k := by unfold getX; rw [atControl_regs]
theorem getP_atControl (k : Nat) : getP (atControl i h s).cur k = getP s.cur k := by unfold getP; rw [atControl_regs]

end AtControl

/-- The cycles without issue that a bundle asks for (R31). -/
theorem stallRun_xstall (h : CtlHead) : stallRun h.xstall.toNat = if h.xstall = 0 then .go else .stall h.xstall.toNat := by
  unfold stallRun
  simp only [← BitVec.toNat_inj]
  rfl

/-! ## wait, strokeend and halt (R111, R113, R117) -/

theorem consume_ctl (sem : Bool) (i : Nat) (s : State) : (consume sem i s).cur.ctl = s.cur.ctl := by
  cases sem <;> simp [consume, learn, raiseTsc_cur, putSem, putSluice]

/-- A wait by its two outcomes. -/
theorem waitAt_eq (sem : Bool) (idx n : Nat) (s : State) : waitAt sem idx n s =
    if satisfied (onCur completeAll s).cur sem idx then onCur (goesOn (s.cur.pc.toNat + 1) n) (consume sem idx (onCur completeAll s))
    else onCur (fun t => { t with run := .waiting sem idx n }) (onCur completeAll s) := by
  unfold waitAt
  dsimp only
  rw [onCur_eq_withTile (fun t => goOn n (setPc (t.pc.toNat + 1) t)), consume_pc]
  rfl

/-- A wait raises no trap. -/
theorem waitAt_ctl (sem : Bool) (idx n : Nat) (s : State) : (waitAt sem idx n s).cur.ctl = s.cur.ctl := by
  rw [waitAt_eq]
  split
  · exact consume_ctl sem idx (onCur completeAll s)
  · rfl

/-- halt and sret issue at system privilege alone (R47). -/
theorem isSystem_of_noFault {t : Tile} {i : Instr} {h : CtlHead} (hi : i = .ctlHalt h ∨ i = .ctlSret h) (hf : ctlFault t i = none) :
    isSystem t = true := by
  cases hu : isSystem t with
  | true => rfl
  | false => rcases hi with rfl | rfl <;> simp [ctlFault, hu] at hf

/-- The tile halted behind its bundle. -/
def haltBehind (n : Nat) (t : Tile) : Tile := { putStatus (setPc (t.pc.toNat + 1) t) 6 true with run := .halted n }

/-- Settles O21: each by its effect on the tile that it finds. -/
theorem waitingControl : Obligations.WaitingControl := by
  refine ⟨fun h idx sem s hi => ?wait, fun h s hi => ?strokeend, fun h s hi => ?halt⟩
  case wait =>
    have heffect := waitAt_eq sem idx.toNat h.xstall.toNat (atControl (.ctlWait h idx sem) h s)
    have htraps := (congrArg Ctl.traps (waitAt_ctl sem idx.toNat h.xstall.toNat (atControl (.ctlWait h idx sem) h s))).trans
      (atControl_rest hi.rest).traps
    rw [atControl_pc] at heffect
    exact ((exec_control hi.isControl s).trans (congrArg _ (issue_next hi rfl htraps))).trans (congrArg _ heffect)
  case strokeend => exact exec_issues hi rfl fun _ => rfl
  case halt =>
    refine ⟨isSystem_of_noFault (.inl rfl) hi.noFault, _, exec_issues (f := haltBehind h.xstall.toNat) hi rfl fun _ => rfl, ?_, ?_, rfl, ?_, ?_, rfl⟩
    · exact congrArg (· ||| 64) (atControl_status ..)
    · rw [← atControl_pc]; rfl
    · exact atControl_regs ..
    · exact atControl_socks ..

/-! ## trap (R112) -/

/-- The one trap of a bundle is taken, and the list is empty again. -/
theorem takeTraps_one {s : State} (h : s.cur.ctl.traps = []) (f : FaultInfo) (pc : Nat) (w : Bool) :
    takeTraps pc w (onCur (fun t => { t with ctl := { t.ctl with traps := [f] } }) s) = takeException f pc w false s := by
  have hs : onCur (fun t => { t with ctl := { t.ctl with traps := [] } }) s = s := congrArg (withTile s) (noTraps _ h)
  exact congrArg (takeException f pc w false) hs

/-- A trap lists the breakpoint behind its bundle. -/
theorem ctlEffect_trap {s : State} (hr : s.cur.ctl.traps = []) (h : CtlHead) (b4 : Tile) (n : Nat) : ctlEffect (.ctlTrap h) b4 n s =
    onCur (fun t => { t with ctl := { t.ctl with traps := [mkFault 32 0 0 0 0] } }) (onCur (goesOn (s.cur.pc.toNat + 1) n) s) := by
  have hgo : ctlEffect (.ctlTrap h) b4 n s = onCur (fun t => goOn n (setPc (t.pc.toNat + 1)
    { t with ctl := { t.ctl with traps := mkFault 32 0 0 0 0 :: t.ctl.traps } })) s := rfl
  rw [hgo, onCur_eq_withTile, hr]
  rfl

/-! ## uiret (R122, R124) -/

/-- One register of x56-x63 exchanged with its place in the bank. -/
def swapOne (t : Tile) (i : Nat) : Tile :=
  putX { t with regs := { t.regs with bank := tset 0 t.regs.bank i (getX t (56 + i)) } } (56 + i) (tget 0 t.regs.bank i)

theorem putX_bank (t : Tile) (i : Nat) (w : Word) : (putX t i w).regs.bank = t.regs.bank := by unfold putX; split <;> rfl
theorem putX_preds (t : Tile) (i : Nat) (w : Word) : (putX t i w).regs.p = t.regs.p := by unfold putX; split <;> rfl

theorem getX_swapOne (t : Tile) (i j : Nat) : getX (swapOne t i) j = if j = 56 + i then tget 0 t.regs.bank i else getX t j := by
  rw [swapOne, getX_putX]
  simp
  rfl

theorem bank_swapOne (t : Tile) (i k : Nat) : tget 0 (swapOne t i).regs.bank k = if k = i then getX t (56 + i) else tget 0 t.regs.bank k := by
  rw [swapOne, putX_bank, tget_tset]

/-- The first n registers exchanged, the others as before. -/
theorem foldl_swapOne_spec (t : Tile) (n : Nat) :
    (∀ j, getX ((List.range n).foldl swapOne t) j = if 56 ≤ j ∧ j < 56 + n then tget 0 t.regs.bank (j - 56) else getX t j) ∧
    (∀ k, tget 0 ((List.range n).foldl swapOne t).regs.bank k = if k < n then getX t (56 + k) else tget 0 t.regs.bank k) ∧
    ((List.range n).foldl swapOne t).regs.p = t.regs.p := by
  induction n with
  | zero => exact ⟨fun j => (if_neg (by omega)).symm, fun k => (if_neg (Nat.not_lt_zero k)).symm, rfl⟩
  | succ n ih =>
    obtain ⟨hx, hbank, hp⟩ := ih
    rw [List.range_succ, List.foldl_append, List.foldl_cons, List.foldl_nil]
    refine ⟨fun j => ?_, fun k => ?_, (putX_preds ..).trans hp⟩
    · rw [getX_swapOne, hx, hbank]
      grind
    · rw [bank_swapOne, hx, hbank]
      grind

/-- x56-x63 and the bank exchanged; the other x registers and the predicates stay. -/
theorem swapBank_spec (t : Tile) :
    (∀ k, k < 8 → getX (swapBank t) (56 + k) = tget 0 t.regs.bank k ∧ tget 0 (swapBank t).regs.bank k = getX t (56 + k)) ∧
    (∀ k, k < 56 → getX (swapBank t) k = getX t k) ∧ (swapBank t).regs.p = t.regs.p := by
  obtain ⟨hx, hbank, hp⟩ := foldl_swapOne_spec t 8
  have hswap : swapBank t = (List.range 8).foldl swapOne t := rfl
  rw [hswap]
  refine ⟨fun k hk => ⟨?_, ?_⟩, fun k hk => ?_, hp⟩
  · rw [hx, if_pos (by omega), Nat.add_sub_cancel_left]
  · rw [hbank, if_pos hk]
  · rw [hx, if_neg (by omega)]

/-- A tile behind uiret, from the registers that the exchange leaves (R124). -/
def behindHandler (r : Regs) (n : Nat) (t : Tile) : Tile :=
  { t with regs := r, pc := BitVec.ofNat 13 (fld t.csr.uiepc 0 13), run := stallRun n, csr := { t.csr with status := t.csr.status &&& ~~~32 },
           ctl := { t.ctl with controlOnly := bit t.csr.uiepc 16 } }

theorem goOn_returnInterrupt (n : Nat) (t : Tile) : goOn n (returnInterrupt t) = behindHandler (swapBank t).regs n t := by
  obtain ⟨r, h⟩ := swapBank_regs t
  rw [returnInterrupt, h]
  rfl

/-- uiret issues in a handler alone (R124). -/
theorem inHandler_of_noFault {t : Tile} {h : CtlHead} (hf : ctlFault t (.ctlUiret h) = none) : bit t.csr.status 5 = true := by
  cases hb : bit t.csr.status 5 with
  | true => rfl
  | false => simp [ctlFault, hb] at hf

/-- Settles O22: each by its effect on the tile that it finds. -/
theorem trapControl : Obligations.TrapControl := by
  refine ⟨fun h s hi => ?trap, fun h s hi => ⟨inHandler_of_noFault hi.noFault, ?uiret⟩,
    fun h s hi => ⟨isSystem_of_noFault (.inr rfl) hi.noFault, ?sret⟩⟩
  case trap =>
    have hrest := (atControl_rest (i := .ctlTrap h) (h := h) hi.rest).traps
    refine (exec_control hi.isControl s).trans (congrArg _ ((issue_ok hi).trans ?_))
    rw [ctlEffect_trap hrest, atControl_pc]
    have hrun : (atControl (.ctlTrap h) h s |> onCur (goesOn (s.cur.pc.toNat + 1) h.xstall.toNat)).cur.run = stallRun h.xstall.toNat := rfl
    rw [stallRun_xstall] at hrun
    by_cases hx : h.xstall = 0
    · rw [if_pos hx] at hrun ⊢
      exact (if_pos hrun).trans (takeTraps_one (by exact hrest) _ _ _)
    · rw [if_neg hx] at hrun ⊢
      exact if_neg fun hgo => Run.noConfusion (hrun.symm.trans hgo)
  case uiret =>
    obtain ⟨hswap, hlow, hp⟩ := swapBank_spec (atControl (.ctlUiret h) h s).cur
    have heffect : ctlEffect (.ctlUiret h) (unmarked s.cur) h.xstall.toNat (atControl (.ctlUiret h) h s) =
        onCur (behindHandler (swapBank (atControl (.ctlUiret h) h s).cur).regs h.xstall.toNat) (atControl (.ctlUiret h) h s) :=
      congrArg (withTile _) (goOn_returnInterrupt ..)
    generalize swapBank (atControl (.ctlUiret h) h s).cur = u at hswap hlow hp heffect
    refine ⟨_, exec_issues hi heffect fun _ => rfl, ?_, stallRun_xstall h, ?_, ?_, fun k hk => ?_, fun k hk => ?_, ?_, atControl_socks ..⟩
    · exact congrArg (fun w => BitVec.ofNat 13 (fld w 0 13)) (atControl_uiepc ..)
    · exact congrArg (· &&& ~~~32) (atControl_status ..)
    · exact congrArg (fun w => bit w 16) (atControl_uiepc ..)
    · obtain ⟨hx, hbank⟩ := hswap k hk
      exact ⟨hx.trans (by rw [atControl_regs]), hbank.trans (getX_atControl ..)⟩
    · exact (hlow k hk).trans (getX_atControl ..)
    · exact hp.trans (by rw [atControl_regs])
  case sret =>
    rw [← stallRun_xstall]
    exact exec_issues (f := fun t => goOn h.xstall.toNat (returnException t)) hi rfl fun _ => rfl

end Sys2Proof.Machine
end

section
/-!
PROOF. The loop sequencer (R106-R110): the level that a loop bundle enters, what a lend makes of it, and what leaving it restores.
-/
namespace Sys2Proof.Machine
open Sys2Proof.Machine.Claims

/-! ## The stage window p8-p13 and the pass marks p14, p15 (R108, R109) -/

/-- The predicates beside the window. -/
theorem notMem_window {k : Nat} : k ∉ [8, 9, 10, 11, 12, 13] ↔ k < 8 ∨ 8 + 6 ≤ k := by
  simp
  omega

/-- The window as its six predicates. -/
theorem windowOf_getElem? (t : Tile) {i : Nat} (hi : i < 6) : (windowOf t)[i]? = some (getP t (8 + i)) := by
  simp [windowOf, hi]

theorem windowOf_atControl (i : Instr) (h : CtlHead) (s : State) : windowOf (atControl i h s).cur = windowOf s.cur := by
  unfold windowOf
  simp only [getP_atControl]

theorem putWindow_append (ws : List (BitVec 2)) (w : BitVec 2) (t : Tile) : putWindow (ws ++ [w]) t = putP (putWindow ws t) (8 + ws.length) w := by
  unfold putWindow
  rw [List.length_append, List.length_singleton, List.range_succ, List.zip_append List.length_range, List.foldl_append]
  rfl

/-- A window written changes predicates alone. -/
theorem putWindow_regs (ws : List (BitVec 2)) (t : Tile) : ∃ ps, putWindow ws t = { t with regs := { t.regs with p := ps } } := by
  induction ws using List.reverseRecOn with
  | nil => exact ⟨t.regs.p, rfl⟩
  | append_singleton ws w ih =>
    obtain ⟨ps, h⟩ := ih
    obtain ⟨qs, hq⟩ := putP_regs (putWindow ws t) (8 + ws.length) w
    exact ⟨qs, by rw [putWindow_append, hq, h]⟩

/-- A predicate of the window that is written. -/
theorem getP_putWindow_in {ws : List (BitVec 2)} {i : Nat} {v : BitVec 2} (h : ws[i]? = some v) (t : Tile) :
    getP (putWindow ws t) (8 + i) = if v = 3 then 2 else v := by
  induction ws using List.reverseRecOn with
  | nil => cases h
  | append_singleton ws w ih =>
    rw [putWindow_append, getP_putP]
    rcases lt_trichotomy i ws.length with hi | hi | hi
    · rw [if_neg (by omega)]
      exact ih (by rwa [List.getElem?_append_left hi] at h)
    · subst hi
      obtain rfl : w = v := by simpa using h
      exact if_pos ⟨rfl, by omega⟩
    · rw [List.getElem?_eq_none (by simp; omega)] at h
      cases h

/-- A predicate beside the part of the window that is written. -/
theorem getP_putWindow_out {ws : List (BitVec 2)} {k : Nat} (h : k < 8 ∨ 8 + ws.length ≤ k) (t : Tile) :
    getP (putWindow ws t) k = getP t k := by
  induction ws using List.reverseRecOn with
  | nil => rfl
  | append_singleton ws w ih =>
    rw [List.length_append, List.length_singleton] at h
    rw [putWindow_append, getP_putP, if_neg (by omega)]
    exact ih (by omega)

/-- A truth value is stored as it is. -/
theorem getP_putP_pred (t : Tile) {i : Nat} (hi : i ≠ 0) (b : Bool) (j : Nat) : getP (putP t i (pred b)) j = if j = i then pred b else getP t j := by
  have hb : (if pred b = 3 then 2 else pred b) = pred b := by cases b <;> rfl
  rw [getP_putP, hb]
  simp [hi]

theorem pred_decide (p : Prop) [Decidable p] : pred (decide p) = if p then 1 else 0 := by simp [pred]

/-- The pass marks change predicates alone. -/
theorem putEnds_regs (t : Tile) : ∃ ps, putEnds t = { t with regs := { t.regs with p := ps } } := by
  unfold putEnds
  split
  · exact ⟨_, rfl⟩
  · exact ⟨_, rfl⟩

theorem getP_putEnds_other {k : Nat} (hk : k ∉ [14, 15]) (t : Tile) : getP (putEnds t) k = getP t k := by
  obtain ⟨h14, h15⟩ : k ≠ 14 ∧ k ≠ 15 := by simpa using hk
  unfold putEnds
  split <;> simp [getP_putP, h14, h15]

/-- Without a level both marks are false. -/
theorem getP_putEnds_nil {t : Tile} (h : t.ctl.loops = []) : getP (putEnds t) 14 = 0 ∧ getP (putEnds t) 15 = 0 := by
  unfold putEnds
  rw [h]
  simp [getP_putP]

/-- The marks of the innermost level's pass: the first, the last. -/
theorem getP_putEnds_cons {t : Tile} {l : Loop} {ls : List Loop} (h : t.ctl.loops = l :: ls) :
    getP (putEnds t) 14 = (if l.pass = 0 then 1 else 0) ∧ getP (putEnds t) 15 = if l.pass + 1 = l.passes then 1 else 0 := by
  unfold putEnds
  rw [h, ← pred_decide, ← pred_decide]
  simp only [getP_putP_pred _ (by decide : (14 : Nat) ≠ 0), getP_putP_pred _ (by decide : (15 : Nat) ≠ 0)]
  exact ⟨rfl, rfl⟩

/-- A tile with these levels. -/
def withLoops (ls : List Loop) (t : Tile) : Tile := { t with ctl := { t.ctl with loops := ls } }

/-! ## Entry (R106-R109) -/

/-- The level that a loop bundle at `t` enters. -/
def enteredLevel (h : CtlHead) (body stages trips : Nat) (strides : Word) (t : Tile) : Loop :=
  { top := t.pc.toNat + 1, last := t.pc.toNat + body, trips := trips, stages := stages, pass := 0, strides := strideWord h strides,
    window := if stages = 0 then [] else windowOf t }

/-- The window of the first pass, where the level has stages. -/
def firstWindow (stages : Nat) (t : Tile) : Tile := if stages = 0 then t else putWindow [1, 0, 0, 0, 0, 0] t

theorem firstWindow_regs (stages : Nat) (t : Tile) : ∃ ps, firstWindow stages t = { t with regs := { t.regs with p := ps } } := by
  unfold firstWindow
  split
  · exact ⟨t.regs.p, rfl⟩
  · exact putWindow_regs ..

section Enter
variable (h : CtlHead) (body stages : Nat) {trips : Nat} (strides : Word) (t : Tile)

theorem enterLoop_zero (ht : trips = 0) : enterLoop h body stages trips strides t = setPc (t.pc.toNat + body + 1) t := if_pos ht

theorem enterLoop_pos (ht : trips ≠ 0) : enterLoop h body stages trips strides t =
    setPc (t.pc.toNat + 1) (putEnds (withLoops (enteredLevel h body stages trips strides t :: t.ctl.loops) (firstWindow stages t))) := by
  obtain ⟨ps, hw⟩ := firstWindow_regs stages t
  refine (if_neg ht).trans ?_
  show setPc _ (putEnds (withLoops (_ :: (firstWindow stages t).ctl.loops) (firstWindow stages t))) = _
  rw [hw]
  rfl

/-- Entering changes the PC, the levels and predicates. -/
theorem enterLoop_frame (ht : trips ≠ 0) : ∃ ps, enterLoop h body stages trips strides t =
    { t with pc := BitVec.ofNat 13 (t.pc.toNat + 1), ctl := { t.ctl with loops := enteredLevel h body stages trips strides t :: t.ctl.loops },
             regs := { t.regs with p := ps } } := by
  obtain ⟨ps, hends⟩ := putEnds_regs (withLoops (enteredLevel h body stages trips strides t :: t.ctl.loops) (firstWindow stages t))
  obtain ⟨qs, hw⟩ := firstWindow_regs stages t
  refine ⟨ps, ?_⟩
  rw [enterLoop_pos h body stages strides t ht, hends, hw]
  rfl

/-- The marks say that the pass is the first, and whether it is the last. -/
theorem getP_enterLoop_ends (ht : trips ≠ 0) : getP (enterLoop h body stages trips strides t) 14 = 1 ∧
    getP (enterLoop h body stages trips strides t) 15 = if (if stages = 0 then trips else trips + stages - 1) = 1 then 1 else 0 := by
  rw [enterLoop_pos h body stages strides t ht]
  obtain ⟨h14, h15⟩ := getP_putEnds_cons
    (t := withLoops (enteredLevel h body stages trips strides t :: t.ctl.loops) (firstWindow stages t)) rfl
  exact ⟨h14, h15.trans (if_congr eq_comm rfl rfl)⟩

theorem getP_enterLoop_other (ht : trips ≠ 0) {k : Nat} (hk : k ∉ [14, 15]) :
    getP (enterLoop h body stages trips strides t) k = getP (firstWindow stages t) k := by
  rw [enterLoop_pos h body stages strides t ht]
  exact getP_putEnds_other hk _

end Enter

/-- The first pass has its first stage on and the others off. -/
theorem getP_firstWindow_staged {stages : Nat} (hs : stages ≠ 0) (t : Tile) :
    getP (firstWindow stages t) 8 = 1 ∧ ∀ k ∈ [9, 10, 11, 12, 13], getP (firstWindow stages t) k = 0 := by
  rw [firstWindow, if_neg hs]
  refine ⟨getP_putWindow_in (i := 0) (v := 1) rfl t, fun k hk => ?_⟩
  obtain ⟨i, rfl, hi⟩ : ∃ i, k = 8 + i ∧ ([1, 0, 0, 0, 0, 0] : List (BitVec 2))[i]? = some 0 := by
    fin_cases hk
    exacts [⟨1, rfl, rfl⟩, ⟨2, rfl, rfl⟩, ⟨3, rfl, rfl⟩, ⟨4, rfl, rfl⟩, ⟨5, rfl, rfl⟩]
  exact getP_putWindow_in hi t

/-- Outside the window of a level with stages nothing is written. -/
theorem getP_firstWindow_other {stages k : Nat} (h : stages = 0 ∨ k ∉ [8, 9, 10, 11, 12, 13]) (t : Tile) :
    getP (firstWindow stages t) k = getP t k := by
  unfold firstWindow
  split
  · rfl
  · next hs => exact getP_putWindow_out (notMem_window.mp (h.resolve_left hs)) t

/-- Settles O19: a loop without trips is a jump behind its body, any other enters its level. -/
theorem loopEntry : Obligations.LoopEntry := by
  intro h body stages x strides s hi i trips passes
  have hstages : stages = 0 ↔ stages.toNat = 0 := BitVec.toNat_inj.symm
  have hexec : exec i s = .next (onCur (fun t => goOn h.xstall.toNat (enterLoop h body.toNat stages.toNat trips strides t))
      (atControl i h s)) := by
    refine exec_issues hi rfl fun t => ?_
    by_cases ht : trips = 0
    · rw [enterLoop_zero _ _ _ _ _ ht]
      rfl
    · obtain ⟨ps, hframe⟩ := enterLoop_frame h body.toNat stages.toNat strides t ht
      rw [hframe]
      rfl
  refine ⟨fun ht => hexec.trans ?zero, fun ht =>
    ⟨goOn h.xstall.toNat (enterLoop h body.toNat stages.toNat trips strides (atControl i h s).cur), hexec, ?enters⟩⟩
  case zero =>
    rw [onCur_eq_withTile, enterLoop_zero _ _ _ _ _ ht, atControl_pc]
    rfl
  case enters =>
    obtain ⟨ps, hframe⟩ := enterLoop_frame h body.toNat stages.toNat strides (atControl i h s).cur ht
    obtain ⟨h14, h15⟩ := getP_enterLoop_ends h body.toNat stages.toNat strides (atControl i h s).cur ht
    have hothers {k : Nat} (hk : k ∉ [14, 15]) := getP_enterLoop_other h body.toNat stages.toNat strides (atControl i h s).cur ht hk
    refine ⟨?pc, stallRun_xstall h, ?loops, h14, h15.trans (by simp only [passes, hstages]),
      fun hs => ?staged, fun k hk hw => ?others, ?frame⟩
    case pc => exact (congrArg Tile.pc hframe).trans (by rw [atControl_pc])
    case loops =>
      refine (congrArg (fun t => t.ctl.loops) hframe).trans ?_
      simp only [enteredLevel, atControl_pc, atControl_loops, windowOf_atControl, hstages]
      rfl
    case staged =>
      obtain ⟨h8, hrest⟩ := getP_firstWindow_staged (mt hstages.mpr hs) (atControl i h s).cur
      exact ⟨(hothers (by decide)).trans h8, fun k hk => (hothers (by fin_cases hk <;> decide)).trans (hrest k hk)⟩
    case others =>
      exact (hothers hk).trans ((getP_firstWindow_other (hw.imp_left hstages.mp) _).trans (getP_atControl ..))
    case frame =>
      rw [hframe, ← atControl_regs i h s]
      rfl

/-! ## Strides (R107) -/

/-- Strides change x registers alone. -/
theorem applyStrides_regs (w : Word) (t : Tile) : ∃ xs, applyStrides w t = { t with regs := { t.regs with x := xs } } := by
  unfold applyStrides
  refine List.foldlRecOn (motive := fun u : Tile => ∃ xs, u = { t with regs := { t.regs with x := xs } }) _ _ ⟨t.regs.x, rfl⟩ fun u hu q _ => ?_
  obtain ⟨xs, rfl⟩ := hu
  exact putX_regs ..

/-- What strides make of the registers depends on the registers alone. -/
theorem applyStrides_congr (w : Word) {t u : Tile} (h : t.regs = u.regs) : (applyStrides w t).regs = (applyStrides w u).regs := by
  unfold applyStrides
  generalize strideList w = qs
  induction qs generalizing t u with
  | nil => exact h
  | cons q qs ih => exact ih (by simp only [putX, getX, h]; split <;> simp only [h])

theorem getP_applyStrides (w : Word) (t : Tile) (k : Nat) : getP (applyStrides w t) k = getP t k := by
  obtain ⟨xs, h⟩ := applyStrides_regs w t
  rw [h]
  rfl

/-! ## The next pass (R108, R109) -/

/-- A level in its next pass. -/
def nextPass (l : Loop) : Loop := { l with pass := l.pass + 1 }

/-- The window of a level's pass, shifted by one stage where the level has stages. -/
def shiftWindow (l : Loop) (t : Tile) : Tile :=
  if l.stages = 0 then t else putWindow (pred (decide (l.pass < l.trips)) :: (windowOf t).take 5) t

theorem shiftWindow_regs (l : Loop) (t : Tile) : ∃ ps, shiftWindow l t = { t with regs := { t.regs with p := ps } } := by
  unfold shiftWindow
  split
  · exact ⟨t.regs.p, rfl⟩
  · exact putWindow_regs ..

/-- p8 tells whether the next trip has begun, and each other stage is what the one before was. -/
theorem getP_shiftWindow_staged {l : Loop} (hs : l.stages ≠ 0) (t : Tile) :
    getP (shiftWindow l t) 8 = (if l.pass < l.trips then 1 else 0) ∧
    ∀ k ∈ [8, 9, 10, 11, 12], getP (shiftWindow l t) (k + 1) = if getP t k = 3 then 2 else getP t k := by
  rw [shiftWindow, if_neg hs]
  refine ⟨?_, fun k hk => ?_⟩
  · refine (getP_putWindow_in (i := 0) rfl t).trans ?_
    by_cases hb : l.pass < l.trips <;> simp [hb, pred]
  · obtain ⟨i, rfl, hi⟩ : ∃ i, k = 8 + i ∧ i < 5 := ⟨k - 8, by simp at hk; omega⟩
    exact getP_putWindow_in (i := i + 1) (by simp [hi, windowOf_getElem? t (by omega : i < 6)]) t

/-- Outside the window of a level with stages nothing is written. -/
theorem getP_shiftWindow_other {l : Loop} {k : Nat} (h : l.stages = 0 ∨ k ∉ [8, 9, 10, 11, 12, 13]) (t : Tile) :
    getP (shiftWindow l t) k = getP t k := by
  unfold shiftWindow
  split
  · rfl
  · next hs => exact getP_putWindow_out (notMem_window.mp (h.resolve_left hs)) t

/-! ## Leaving a level (R109, R110) -/

section Leave
variable {t : Tile} {l : Loop} {ls : List Loop} (hl : t.ctl.loops = l :: ls)
include hl

theorem leaveLoop_cons : leaveLoop t = putEnds (withLoops ls (putWindow l.window t)) := by
  obtain ⟨ps, hw⟩ := putWindow_regs l.window t
  unfold leaveLoop
  rw [hl]
  dsimp only
  rw [hw]
  rfl

/-- Leaving changes the levels and predicates. -/
theorem leaveLoop_frame : ∃ ps, leaveLoop t = { t with ctl := { t.ctl with loops := ls }, regs := { t.regs with p := ps } } := by
  obtain ⟨ps, hends⟩ := putEnds_regs (withLoops ls (putWindow l.window t))
  obtain ⟨qs, hw⟩ := putWindow_regs l.window t
  refine ⟨ps, ?_⟩
  rw [leaveLoop_cons hl, hends, hw]
  rfl

/-- The saved window is back, and the marks are the enclosing level's. -/
theorem loopLeft_leaveLoop {before : Tile} (hlow : ∀ k, k < 8 → getP t k = getP before k)
    (hall : l.stages = 0 → ∀ k, getP t k = getP before k) : LoopLeft l ls before (leaveLoop t) := by
  rw [leaveLoop_cons hl]
  have hbeside {k : Nat} (hk : k ∉ [14, 15]) : getP (putEnds (withLoops ls (putWindow l.window t))) k = getP (putWindow l.window t) k :=
    getP_putEnds_other hk _
  refine ⟨fun k v hk hv => ?window, ?ends, fun k hk => ?others, fun hs hempty k hk => ?unstaged⟩
  case window => exact (hbeside (by simp; omega)).trans (getP_putWindow_in hv t)
  case ends =>
    cases ls with
    | nil => exact getP_putEnds_nil rfl
    | cons m ms => exact getP_putEnds_cons rfl
  case others => exact (hbeside (by simp; omega)).trans ((getP_putWindow_out (.inl hk) t).trans (hlow k hk))
  case unstaged =>
    rw [hbeside hk, hempty]
    exact hall hs k

end Leave

/-- Where a level is left depends on its window and stages and on what the predicates read as. -/
theorem loopLeft_congr {l m : Loop} {ls : List Loop} {before t u : Tile} (h : LoopLeft l ls before t) (hw : m.window = l.window)
    (hs : m.stages = l.stages) (hu : u.regs = t.regs) : LoopLeft m ls before u := by
  have hp (k : Nat) : getP u k = getP t k := by simp only [getP, hu]
  obtain ⟨window, ends, others, unstaged⟩ := h
  refine ⟨fun k v => ?_, ?_, fun k => ?_, fun h0 he k => ?_⟩
  · rw [hp, hw]; exact window k v
  · cases ls <;> (simp only [hp]; exact ends)
  · rw [hp]; exact others k
  · rw [hp]; exact unstaged (hs ▸ h0) (hw ▸ he) k

/-! ## lend and lbrk (R107-R110) -/

/-- The tile whose next pass a lend decides on: strides applied, the pass advanced, the window shifted. -/
def advanceLevel (l : Loop) (ls : List Loop) (t : Tile) : Tile :=
  withLoops (nextPass l :: ls) (shiftWindow (nextPass l) (applyStrides l.strides t))

theorem getP_advanceLevel (l : Loop) (ls : List Loop) (t : Tile) (k : Nat) :
    getP (advanceLevel l ls t) k = getP (shiftWindow (nextPass l) (applyStrides l.strides t)) k := rfl

theorem getP_advanceLevel_other {l : Loop} {k : Nat} (h : l.stages = 0 ∨ k ∉ [8, 9, 10, 11, 12, 13]) (ls : List Loop) (t : Tile) :
    getP (advanceLevel l ls t) k = getP t k :=
  (getP_shiftWindow_other (l := nextPass l) h _).trans (getP_applyStrides ..)

/-- The lend changes x registers by its strides, the levels and predicates. -/
theorem advanceLevel_frame (l : Loop) (ls : List Loop) (t : Tile) : ∃ ps, advanceLevel l ls t =
    { t with ctl := { t.ctl with loops := nextPass l :: ls }, regs := { t.regs with x := (applyStrides l.strides t).regs.x, p := ps } } := by
  obtain ⟨ps, hw⟩ := shiftWindow_regs (nextPass l) (applyStrides l.strides t)
  obtain ⟨xs, hx⟩ := applyStrides_regs l.strides t
  refine ⟨ps, ?_⟩
  rw [advanceLevel, hw, hx]
  rfl

section Lend
variable {t : Tile} {l : Loop} {ls : List Loop} (hl : t.ctl.loops = l :: ls)
include hl

/-- While passes are left the lend goes back to the first bundle of the body. -/
theorem lendLoop_again (h : l.pass + 1 < l.passes) : lendLoop t = setPc l.top (putEnds (advanceLevel l ls t)) := by
  unfold lendLoop
  rw [hl]
  exact if_pos h

/-- Else it leaves the level. -/
theorem lendLoop_ends (h : ¬ l.pass + 1 < l.passes) : lendLoop t = setPc (t.pc.toNat + 1) (leaveLoop (advanceLevel l ls t)) := by
  obtain ⟨ps, hframe⟩ := advanceLevel_frame l ls t
  have hpc : (advanceLevel l ls t).pc = t.pc := by rw [hframe]
  rw [← hpc]
  unfold lendLoop
  rw [hl]
  exact if_neg h

/-- What the lend changes: the PC, x registers by the strides, the levels and predicates. -/
theorem lendLoop_frame : ∃ ps, lendLoop t =
    { t with pc := BitVec.ofNat 13 (if l.pass + 1 < l.passes then l.top else t.pc.toNat + 1)
             ctl := { t.ctl with loops := if l.pass + 1 < l.passes then nextPass l :: ls else ls }
             regs := { t.regs with x := (applyStrides l.strides t).regs.x, p := ps } } := by
  obtain ⟨qs, hadvance⟩ := advanceLevel_frame l ls t
  by_cases h : l.pass + 1 < l.passes
  · obtain ⟨ps, hends⟩ := putEnds_regs (advanceLevel l ls t)
    refine ⟨ps, ?_⟩
    rw [lendLoop_again hl h, hends, hadvance, if_pos h, if_pos h]
    rfl
  · obtain ⟨ps, hleave⟩ := leaveLoop_frame (t := advanceLevel l ls t) rfl
    refine ⟨ps, ?_⟩
    rw [lendLoop_ends hl h, hleave, hadvance, if_neg h, if_neg h]
    rfl

end Lend

/-- lbrk leaves the level, behind its end bundle. -/
theorem breakLoop_cons {t : Tile} {l : Loop} {ls : List Loop} (hl : t.ctl.loops = l :: ls) : breakLoop t = setPc (l.last + 1) (leaveLoop t) := by
  unfold breakLoop
  rw [hl]

/-- The effect of lend and lbrk raises no trap. -/
theorem lendLoop_traps (t : Tile) : (lendLoop t).ctl.traps = t.ctl.traps := by
  cases hl : t.ctl.loops with
  | nil => simp only [lendLoop, hl]
  | cons l ls =>
    obtain ⟨ps, hframe⟩ := lendLoop_frame hl
    rw [hframe]

theorem breakLoop_traps (t : Tile) : (breakLoop t).ctl.traps = t.ctl.traps := by
  cases hl : t.ctl.loops with
  | nil => simp only [breakLoop, hl]
  | cons l ls =>
    obtain ⟨ps, hframe⟩ := leaveLoop_frame hl
    rw [breakLoop_cons hl, hframe]
    rfl

/-- What a lend leaves of the predicates while passes are left. -/
theorem getP_lendLoop_again {t : Tile} {l : Loop} {ls : List Loop} (hl : t.ctl.loops = l :: ls) (h : l.pass + 1 < l.passes) :
    (l.stages ≠ 0 → getP (lendLoop t) 8 = (if l.pass + 1 < l.trips then 1 else 0) ∧
      ∀ k ∈ [8, 9, 10, 11, 12], getP (lendLoop t) (k + 1) = if getP t k = 3 then 2 else getP t k) ∧
    (getP (lendLoop t) 14 = 0 ∧ getP (lendLoop t) 15 = if l.pass + 2 = l.passes then 1 else 0) ∧
    ∀ k, k ∉ [14, 15] → (l.stages = 0 ∨ k ∉ [8, 9, 10, 11, 12, 13]) → getP (lendLoop t) k = getP t k := by
  rw [lendLoop_again hl h]
  have hbeside {k : Nat} (hk : k ∉ [14, 15]) : getP (setPc l.top (putEnds (advanceLevel l ls t))) k = getP (advanceLevel l ls t) k :=
    getP_putEnds_other hk _
  refine ⟨fun hs => ?window, getP_putEnds_cons (t := advanceLevel l ls t) rfl, fun k hk hw => (hbeside hk).trans (getP_advanceLevel_other hw ls t)⟩
  case window =>
    obtain ⟨h8, hshift⟩ := getP_shiftWindow_staged (l := nextPass l) hs (applyStrides l.strides t)
    refine ⟨(hbeside (by decide)).trans h8, fun k hk => ?_⟩
    rw [hbeside (by simp at hk ⊢; omega), getP_advanceLevel, hshift k hk, getP_applyStrides]

/-- What a lend that leaves its level leaves of the predicates. -/
theorem loopLeft_lendLoop {t before : Tile} {l : Loop} {ls : List Loop} (hl : t.ctl.loops = l :: ls) (h : ¬ l.pass + 1 < l.passes)
    (hbefore : ∀ k, getP t k = getP before k) : LoopLeft l ls before (lendLoop t) := by
  have hlow (k : Nat) (hk : k < 8) : getP (advanceLevel l ls t) k = getP before k :=
    (getP_advanceLevel_other (.inr (by simp; omega)) ls t).trans (hbefore k)
  have hall (hs : l.stages = 0) (k : Nat) : getP (advanceLevel l ls t) k = getP before k :=
    (getP_advanceLevel_other (.inl hs) ls t).trans (hbefore k)
  have hloops : (advanceLevel l ls t).ctl.loops = nextPass l :: ls := rfl
  have hleft := loopLeft_leaveLoop hloops hlow hall
  rw [lendLoop_ends hl h]
  exact loopLeft_congr hleft rfl rfl (setPc_regs ..)

/-- Settles O20: the lend by its two outcomes, the lbrk by the level that it leaves. -/
theorem loopEnds : Obligations.LoopEnds := by
  constructor
  case left =>
    intro h b s l ls hi hl i again
    have hexec : exec i s = .next (onCur (fun t => goOn h.xstall.toNat (lendLoop t)) (atControl i h s)) := exec_issues hi rfl lendLoop_traps
    have hloops := (atControl_loops i h s).trans hl
    have hbefore := getP_atControl i h s
    have hpasses : (again = true) = (l.pass + 1 < l.passes) := decide_eq_true_eq
    obtain ⟨ps, hframe⟩ := lendLoop_frame hloops
    refine ⟨goOn h.xstall.toNat (lendLoop (atControl i h s).cur), hexec, ?pc, stallRun_xstall h, ?loops, ?x, fun ha => ?window,
      fun ha => ?ends, fun ha => ?others, fun ha _ => ?left, ?frame⟩
    case pc => exact (congrArg Tile.pc hframe).trans (by simp only [hpasses, atControl_pc])
    case loops =>
      refine (congrArg (fun t => t.ctl.loops) hframe).trans ?_
      simp only [hpasses]
      rfl
    case x => exact (congrArg (fun t => t.regs.x) hframe).trans (congrArg Regs.x (applyStrides_congr l.strides (atControl_regs i h s)))
    case window =>
      obtain ⟨hwindow, -, -⟩ := getP_lendLoop_again hloops (hpasses.mp ha)
      simp only [hbefore] at hwindow
      exact hwindow
    case ends =>
      obtain ⟨-, hends, -⟩ := getP_lendLoop_again hloops (hpasses.mp ha)
      exact hends
    case others =>
      obtain ⟨-, -, hothers⟩ := getP_lendLoop_again hloops (hpasses.mp ha)
      exact fun k hk hw => (hothers k hk hw).trans (hbefore k)
    case left =>
      have hends : ¬ l.pass + 1 < l.passes := by rw [← hpasses, ha]; decide
      exact loopLeft_congr (loopLeft_lendLoop hloops hends hbefore) rfl rfl (goOn_regs ..)
    case frame =>
      rw [hframe, ← atControl_regs i h s, ← atControl_loops i h s]
      rfl
  case right =>
    intro h s l ls hi hl i
    have hexec : exec i s = .next (onCur (fun t => goOn h.xstall.toNat (breakLoop t)) (atControl i h s)) := exec_issues hi rfl breakLoop_traps
    have hloops := (atControl_loops i h s).trans hl
    have hbreak := breakLoop_cons hloops
    obtain ⟨ps, hframe⟩ := leaveLoop_frame hloops
    refine ⟨goOn h.xstall.toNat (breakLoop (atControl i h s).cur), hexec, ?pc, stallRun_xstall h, ?loops, fun _ => ?left, ?frame⟩
    case pc => exact congrArg Tile.pc hbreak
    case loops => exact (congrArg (fun t => t.ctl.loops) hbreak).trans (congrArg (fun t => t.ctl.loops) hframe)
    case left =>
      have hleft := loopLeft_leaveLoop hloops (fun k _ => getP_atControl i h s k) fun _ => getP_atControl i h s
      rw [hbreak]
      exact loopLeft_congr hleft rfl rfl rfl
    case frame =>
      rw [hbreak, hframe, ← atControl_regs i h s, ← atControl_loops i h s]
      rfl

end Sys2Proof.Machine
end

section
/-!
PROOF. The lane-by-lane operations of va (R135-R137, R139, R140, R143, R144): each is a computing trigger of its entry in the table.
-/
namespace Sys2Proof.Machine
open Sys2Proof.Machine.Claims

/-! ## Lanes (R131) -/

theorem lane_lt (w l : Nat) (v : Vec) : lane w l v < 2 ^ w := bitsOf_lt ..

theorem floatBits_eq (q : Nat) : floatBits q = 32 ∨ floatBits q = 16 := by
  unfold floatBits
  split <;> simp

theorem floatBits_pos (q : Nat) : 0 < floatBits q := by rcases floatBits_eq q with h | h <;> rw [h] <;> decide

/-- The top bit of a w-bit pattern is its quotient by half the range. -/
theorem bitsOf_top {w x : Nat} (hw : 0 < w) (hx : x < 2 ^ w) : bitsOf x (w - 1) 1 = x / 2 ^ (w - 1) := by
  obtain ⟨w, rfl⟩ := Nat.exists_eq_add_of_lt hw
  rw [bitsOf_eq, Nat.mod_eq_of_lt]
  exact Nat.div_lt_of_lt_mul (by simpa [Nat.pow_succ] using hx)

/-- The four modes of fsgn (R137): the sign of x, its opposite, the product of both signs, none; the rest of y. -/
theorem fsgnLane_eq {w x y : Nat} (hw : 0 < w) (hx : x < 2 ^ w) (hy : y < 2 ^ w) (m : Nat) : fsgnLane w m x y =
    y % 2 ^ (w - 1) + 2 ^ (w - 1) * (if m = 0 then x / 2 ^ (w - 1) else if m = 1 then 1 - x / 2 ^ (w - 1) else
      if m = 2 then (x / 2 ^ (w - 1) + y / 2 ^ (w - 1)) % 2 else 0) := by
  simp only [fsgnLane, bitsOf_top hw hx, bitsOf_top hw hy]
  rw [Nat.mul_comm]
  match m with
  | 0 | 1 | 2 | _ + 3 => rfl

/-- A shift is a product or a quotient with a power of two (R143). -/
theorem fireVaIshl_eq (n : Bool) : fireVaIshl n = fireVaInt n 26 2 fun w a b => a * 2 ^ (b % w) := by
  simp only [fireVaIshl, Nat.shiftLeft_eq]

theorem fireVaIshr_eq (n : Bool) : fireVaIshr n = fireVaInt n 27 2 fun w a b => a / 2 ^ (b % w) := by
  simp only [fireVaIshr, Nat.shiftRight_eq_div_pow]

/-! ## The table as computing triggers -/

/-- Each operation of the table triggers the computation of its row. -/
theorem fireOf_vaRow {i : Instr} {row : Row} {sock code : Nat} (hrow : vaRow i = some row) (hnames : i.trigger = some (sock, code)) :
    fireOf i = some (firePure sock code row.lat row.ports row.value) := by
  cases i
  case vaFadd | vaFsub | vaFmul | vaFma | vaFmin | vaFmax | vaFround | vaFclass | vaIadd | vaIsub | vaImul | vaIand | vaIor | vaIxor |
      vaIsra | vaImin | vaImax | vaBlend | vaSplat =>
    cases hrow; cases hnames; rfl
  case vaIshl => cases hrow; cases hnames; exact congrArg some (fireVaIshl_eq _)
  case vaIshr => cases hrow; cases hnames; exact congrArg some (fireVaIshr_eq _)
  case vaFsgn n =>
    cases hrow; cases hnames
    change some (fireVaFsgn n) = _
    simp only [fireVaFsgn, fsgnLane_eq (floatBits_pos _) (lane_lt ..) (lane_lt ..)]
    rfl
  all_goals cases hrow

/-- Settles O3: each operation is the computing trigger of its row. -/
theorem vectorResults : Obligations.VectorResults :=
  fun _ _ hrow _ _ _ _ _ _ _ _ _ h => exec_computes (fireOf_vaRow hrow h.names) h

end Sys2Proof.Machine
end

section
/-!
PROOF. The operations with a control operand that may hold a reserved value (R134, R138, R141, R142, R147, R166): each is a checked trigger of
its entry in the table.
-/
namespace Sys2Proof.Machine
open Sys2Proof.Machine.Claims

section Fault
variable {i : Instr} {g : Guard} {x : Src} {s : State} {v : Vec} {t0 t : Tile} {sock code lat : Nat} {ports outs : List Nat} {ops : List Vec}
  (hfires : Fires i g x s v t0) (htakes : Takes t0 sock code x ports ops t)
include hfires htakes

/-- A computing trigger whose operands raise a fault takes it, with or without room. -/
theorem runMove_compute_fault {c : Tile → Nat → List Vec → Vec → Res (List (Nat × Vec × Option Vec))} {e : FaultInfo}
    (hc : c t0 1 ops v = .fault e) :
    runMove i g x (fireCompute sock code lat ports outs c) s = .next (takeException e s.cur.pc.toNat false true s) := by
  refine runMove_fault hfires ?_
  unfold Takes at htakes
  simp only [fireCompute, fireVariable, htakes, hc, Res.bind]

/-- A reserved control operand is an illegal encoding (R134). -/
theorem runMove_checked_reserved {f : Tile → List Vec → Vec → Option Vec} (hf : f t0 ops v = none) :
    runMove i g x (fireChecked sock code lat ports f) s = .next (takeException (mkFault 1 sock code 1 0) s.cur.pc.toNat false true s) := by
  unfold fireChecked
  exact runMove_compute_fault hfires htakes (by simp only [hf])

end Fault

/-! ## Conditions (R138) -/

theorem laneCount_floatBits_pos (q : Nat) : 0 < laneCount (floatBits q) := by
  rcases floatBits_eq q with h | h <;> rw [h] <;> decide

theorem laneCount_viWidth_pos (t : Tile) : 0 < laneCount (viWidth t) := by
  have hfield : fmtOf t 1 < 4 := bitsOf_lt ..
  unfold viWidth
  interval_cases fmtOf t 1 <;> decide

/-- A condition that all pairs of lanes have, or none has, gives a mask, or nothing. -/
theorem compareLanes_eq {w : Nat} (hw : 0 < laneCount w) {f : Nat → Nat → Option Bool} {p : Prop} [Decidable p]
    (hf : ∀ x y, (f x y).isSome = true ↔ p) (a b : Vec) : compareLanes w f a b =
      if p then some (packMask ((List.range (1024 / w)).map fun l => (f (lane w l a) (lane w l b)).getD false)) else none := by
  unfold compareLanes
  split
  · next hp =>
    obtain ⟨c, rfl⟩ : ∃ c : Nat → Nat → Bool, f = fun x y => some (c x y) :=
      ⟨fun x y => (f x y).get ((hf x y).mpr hp), by simp⟩
    exact congrArg (Option.map packMask) List.mapM_pure
  · next hp =>
    have hnone (x y : Nat) : f x y = none := by simpa [hp] using hf x y
    obtain ⟨n, hn⟩ := Nat.exists_eq_add_of_lt hw
    simp [hn, hnone, List.range_succ_eq_map]

theorem floatCond_isSome (c : Nat) (x y : Num) : (floatCond c x y).isSome = true ↔ ¬ 8 ≤ c := by
  match c with
  | 0 | 1 | 2 | 3 | 4 | 5 | 6 | 7 => exact iff_of_true rfl (by decide)
  | c + 8 => exact iff_of_false Bool.false_ne_true (by simp)

theorem intCond_isSome (c w x y : Nat) : (intCond c w x y).isSome = true ↔ c ∈ [0, 1, 2, 3, 4, 5, 8, 9, 10, 11] := by
  match c with
  | 0 | 1 | 2 | 3 | 4 | 5 | 8 | 9 | 10 | 11 => exact iff_of_true rfl (by decide)
  | 6 | 7 | c + 12 => exact iff_of_false Bool.false_ne_true (by simp)

/-! ## The table as checked triggers -/

/-- Each operation of the table triggers the checked computation of its row. -/
theorem fireOf_vaMayRow {i : Instr} {sock code lat : Nat} {ports : List Nat} {f : Tile → List Vec → Vec → Option Vec}
    (hrow : vaMayRow i = some (ports, lat, f)) (hnames : i.trigger = some (sock, code)) :
    fireOf i = some (fireChecked sock code lat ports f) := by
  cases i
  case vaFcvt | vaFtoi | vaItof | vxShufl => cases hrow; cases hnames; rfl
  case vaFcmp n =>
    cases hrow; cases hnames
    change some (fireVaFcmp n) = _
    simp only [fireVaFcmp, compareLanes_eq (laneCount_floatBits_pos _) fun _ _ => floatCond_isSome _ _ _, ite_not]
    rfl
  case vaIcmp n =>
    cases hrow; cases hnames
    change some (fireVaIcmp n) = _
    simp only [fireVaIcmp, compareLanes_eq (laneCount_viWidth_pos _) fun _ _ => intCond_isSome _ _ _ _]
    rfl
  case ivIcmp =>
    cases hrow; cases hnames
    change some fireIvIcmp = _
    unfold fireIvIcmp fireChecked
    refine congrArg some (congrArg (fireCompute 10 23 4 [0, 1] [0]) ?_)
    funext t slot ops b
    dsimp only
    split <;> rfl
  all_goals cases hrow

/-- Settles O4: each operation is the checked trigger of its row. -/
theorem controlOperandResults : Obligations.ControlOperandResults := by
  intro i ports lat f hrow g x sock code s v t0 ops t
  refine ⟨fun h r hr => ?_, fun hfires hnames htakes hnone => ?_⟩
  · exact (exec_fireOf h.fires.isMove (fireOf_vaMayRow hrow h.names)).trans (runMove_checked h hr)
  · exact (exec_fireOf hfires.isMove (fireOf_vaMayRow hrow hnames)).trans (runMove_checked_reserved hfires htakes hnone)

end Sys2Proof.Machine
end

section
/-!
PROOF. The list-building operations of vx (R150-R152): part, compact and expand.
-/
namespace Sys2Proof.Machine
open Sys2Proof.Machine.Claims

/-- Options that hold a value exactly where a predicate holds are the values of the filtered list. -/
theorem reduceOption_map_ite {α β : Type} (p : α → Bool) (f : α → β) (xs : List α) :
    (xs.map fun a => if p a then some (f a) else none).reduceOption = (xs.filter p).map f := by
  induction xs with
  | nil => rfl
  | cons a xs ih => cases h : p a <;> simp [h, ih]

/-- The lanes that a mask selects (R151). -/
theorem maskedLanes_reduceOption (w : Nat) (c b : Vec) :
    (maskedLanes w c b).reduceOption = ((List.range (1024 / w)).filter fun l => bit c l).map fun l => lane w l b :=
  reduceOption_map_ite ..

/-- Settles O6: each operation is a computing trigger that sends its list of results. -/
theorem listBuildingResults : Obligations.ListBuildingResults := by
  refine ⟨fun g x s v t0 ops t h => ⟨fun hn => ?part, fun hn => ?reserved⟩, fun g x s v t0 ops t h => ?compact, fun g x s v t0 ops t h => ?expand⟩
  case part =>
    intro ls
    exact (exec_fireOf h.fires.isMove rfl).trans (runMove_compute
      (rs := [(0, indexList ls.1, none), (1, indexList ls.2, none), (2, toVec (ls.1.length + ls.2.length * 2 ^ 16), none)])
      h (if_neg (by omega)))
  case reserved => exact (exec_fireOf h.fires.isMove rfl).trans (runMove_compute_fault h.fires h.takes (if_pos hn))
  case compact =>
    intro w xs
    have hxs : (maskedLanes w (opAt ops 0) v).reduceOption = xs := maskedLanes_reduceOption ..
    exact (exec_fireOf h.fires.isMove rfl).trans
      (runMove_compute (rs := [(0, packLanes w xs, none), (1, toVec xs.length, none)]) h (by rw [← hxs]; rfl))
  case expand =>
    intro w ms
    exact (exec_fireOf h.fires.isMove rfl).trans (runMove_compute
      (rs := [(0, packLanes w (expandFrom w v 0 ms), none), (1, toVec (ms.filter Prod.fst).length, none)]) h rfl)

end Sys2Proof.Machine
end

section
/-!
PROOF. The special functions of sfu (R154): each is a computing trigger of its lane function, and the values of the lane functions at the
special points.
-/
namespace Sys2Proof.Machine
open Sys2Proof.Machine.Claims

/-! ## The triggers -/

/-- The row of a lane function: no operand, latency 10, each lane of the trigger value in the format of FMT.vf. -/
def sfuTable (f : Nat → Nat → Nat) : Row :=
  { ports := [], lat := 10, value := fun t _ b => byLane (floatBits (fmtOf t 0)) fun l => f (fmtOf t 0) (lane (floatBits (fmtOf t 0)) l b) }

/-- Each special function triggers the computation of its lane function. -/
theorem fireOf_sfuRow {i : Instr} {f : Nat → Nat → Nat} {sock code : Nat} (hrow : sfuRow i = some f) (hnames : i.trigger = some (sock, code)) :
    fireOf i = some (firePure sock code (sfuTable f).lat (sfuTable f).ports (sfuTable f).value) := by
  cases i
  case sfuExp2 | sfuLog2 | sfuRcp | sfuRsqrt | sfuSqrt | sfuSinpi | sfuCospi | sfuTanh | sfuSigm => cases hrow; cases hnames; rfl
  all_goals cases hrow

/-! ## A lane at its special points and beside them -/

section Lane
variable {code q n : Nat} {special : Num → Option Nat} {work : Bool → Nat → Int → Bool × Option Nat}

/-- A special point has the value of the table. -/
theorem sfuLane_special {r : Nat} (h : special (decodeFloat q n) = some r) : sfuLane code q special work n = r := by
  simp only [sfuLane, h]

variable {a b c d : Nat}

/-- Beside the special points a value that is decided is that of the function. -/
theorem sfuLane_work {neg neg' : Bool} {m r : Nat} {e : Int} (hn : decodeFloat q n = .fin neg m e) (hm : m ≠ 0)
    (hw : work neg m e = (neg', some r)) : sfuLane code q (specials q a b c d) work n = signBit q neg' + r := by
  simp only [sfuLane, hn, specials, if_neg hm, hw]

/-- The special points (R154): NaN, the infinities and the zeros. -/
theorem sfuLane_specials :
    (decodeFloat q n = .nan → sfuLane code q (specials q a b c d) work n = nanBits q) ∧
    (decodeFloat q n = .inf true → sfuLane code q (specials q a b c d) work n = a) ∧
    (decodeFloat q n = .inf false → sfuLane code q (specials q a b c d) work n = b) ∧
    ∀ neg e, decodeFloat q n = .fin neg 0 e → sfuLane code q (specials q a b c d) work n = if neg then c else d := by
  refine ⟨fun h => ?_, fun h => ?_, fun h => ?_, fun neg e h => ?_⟩ <;> exact sfuLane_special (congrArg _ h)

end Lane

/-- Every lane function is a function with the special points of the table. -/
theorem sfuRow_lane {i : Instr} {f : Nat → Nat → Nat} {q : Nat} {p : Nat × Nat × Nat × Nat} (hrow : sfuRow i = some f)
    (hp : sfuPoints q i = some p) (n : Nat) :
    ∃ code work, f q n = sfuLane code q (specials q p.1 p.2.1 p.2.2.1 p.2.2.2) work n := by
  cases i
  case sfuExp2 | sfuLog2 | sfuRcp | sfuRsqrt | sfuSqrt | sfuSinpi | sfuCospi | sfuTanh | sfuSigm =>
    cases hrow; cases hp; exact ⟨_, _, rfl⟩
  all_goals cases hrow

/-- log2, rsqrt and sqrt of a negative number are NaN. -/
theorem sfu_negative {q n m : Nat} {e : Int} (hn : decodeFloat q n = .fin true m e) (hm : m ≠ 0) :
    sfuLog2Lane q n = nanBits q ∧ sfuRsqrtLane q n = nanBits q ∧ sfuSqrtLane q n = nanBits q := by
  refine ⟨?_, ?_, ?_⟩ <;> exact (sfuLane_work hn hm rfl).trans (Nat.zero_add _)

/-! ## log2 of 1 -/

theorem bitLen_two_pow (k : Nat) : bitLen (2 ^ k) = k + 1 := by simp [bitLen]

/-- The logarithm of 1 is exact, and +0. -/
theorem log2Round_one (f : Nat) (dir : Bool → Dir) (k operand : Nat) : log2Round f dir (2 ^ k) (-(k : Int)) operand = (false, 0) := by
  simp only [log2Round, bitLen_two_pow, Nat.add_sub_cancel, if_true, neg_add_cancel]
  rfl

theorem sfuLog2Lane_one {q n k : Nat} (hn : decodeFloat q n = .fin false (2 ^ k) (-(k : Int))) : sfuLog2Lane q n = 0 :=
  (sfuLane_work (neg' := false) (r := 0) hn (Nat.two_pow_pos k).ne' (by simp [log2Round_one])).trans rfl

/-! ## sinpi of an integer -/

/-- An integer is a multiple of one in fixed point. -/
theorem one_dvd_fixOf {m : Nat} {e : Int} (h : 0 ≤ e ∨ (-420 ≤ e ∧ 2 ^ (-e).toNat ∣ m)) : 2 ^ fixBits ∣ fixOf m e := by
  have hbits : fixBits = 420 := rfl
  have hs : 0 ≤ e + fixBits := by omega
  rw [fixOf, if_pos hs]
  rcases h with h | ⟨hlow, k, rfl⟩
  · exact Dvd.dvd.mul_left (pow_dvd_pow 2 (by omega)) m
  · rw [Nat.mul_right_comm, ← Nat.pow_add]
    exact Dvd.dvd.mul_right (pow_dvd_pow 2 (by omega)) k

/-- The sine of a multiple of π is a zero. -/
theorem sinpiAt_of_dvd {u : Nat} (h : 2 ^ fixBits ∣ u) : sinpiAt u = none := by
  refine if_pos ?_
  rw [Nat.mod_mod_of_dvd u (Nat.dvd_mul_left _ 2)]
  exact Nat.mod_eq_zero_of_dvd h

theorem sfuSinpiLane_integer {q n m : Nat} {neg : Bool} {e : Int} (hn : decodeFloat q n = .fin neg m e) (hm : m ≠ 0)
    (h : 0 ≤ e ∨ (-420 ≤ e ∧ 2 ^ (-e).toNat ∣ m)) : sfuSinpiLane q n = signBit q neg :=
  sfuLane_work (neg' := neg) (r := 0) hn hm (by simp only [sinpiAt_of_dvd (one_dvd_fixOf h)])

/-- Settles O7: each operation is the computing trigger of its lane function; the special points by the lemmas above. -/
theorem specialFunctionResults : Obligations.SpecialFunctionResults := by
  refine ⟨fun i f hrow g x sock code s v t0 ops t h => ?results, fun g x => ⟨rfl, rfl, rfl, rfl, rfl, rfl, rfl, rfl, rfl⟩,
    fun i f p q hrow hp n => ?points, fun q n m e => sfu_negative, fun q n k => sfuLog2Lane_one, fun q n neg m e => sfuSinpiLane_integer⟩
  case results => exact exec_computes (row := sfuTable f) (fireOf_sfuRow hrow h.names) h
  case points =>
    obtain ⟨code, work, hf⟩ := sfuRow_lane hrow hp n
    rw [hf]
    exact sfuLane_specials

end Sys2Proof.Machine
end

section
/-!
PROOF. The operations of iv (R160-R163, R167) and its contractors (R168, R169): each is a computing trigger of its entry in the tables.
-/
namespace Sys2Proof.Machine
open Sys2Proof.Machine.Claims

/-! ## The tables by the lane functions of the model -/

/-- Lane functions that agree lane by lane pack alike. -/
theorem packLanes_lanes_congr {w : Nat} {f f' : Nat → Nat} (h : ∀ l, f l = f' l) :
    packLanes w ((List.range 16).map f) = packLanes w ((List.range 16).map f') := by rw [funext h]

/-- The row of an operation on one interval: an empty lane, whatever its kind, propagates (R158). -/
theorem ivOne_eq (lat : Nat) (f : Num → Num → Nat) : ivOne lat f = mkRow [] lat (fun _ _ b => ivLanes1 (onSet f) b) := by
  refine congrArg (mkRow [] lat) (funext fun _ => funext fun _ => funext fun b => packLanes_lanes_congr fun l => ?_)
  cases ivlLane b l with
  | set lo hi => rfl
  | empty k => rfl

/-- The row of isubset by the four cases of its two lanes (R167). -/
theorem ivRow_ivIsubset (g : Guard) (x : Src) : ivRow (.ivIsubset g x) =
    mkRow [0] 4 (fun _ ops b => packThree ((List.range 16).map fun l => isubsetLane (ivlLane (opAt ops 0) l) (ivlLane b l))) := by
  refine congrArg (mkRow [0] 4) (funext fun _ => funext fun ops => funext fun b => packLanes_lanes_congr fun l => ?_)
  cases ivlLane (opAt ops 0) l with
  | empty k => rfl
  | set al ah =>
    cases ivlLane b l with
    | set bl bh => rfl
    | empty k => rfl

/-! ## The tables as computing triggers -/

/-- Each forward operation, extraction, constructor and test triggers the computation of its row. -/
theorem fireOf_ivRow {i : Instr} {row : Row} {sock code : Nat} (hrow : ivRow i = some row) (hnames : i.trigger = some (sock, code)) :
    fireOf i = some (firePure sock code row.lat row.ports row.value) := by
  cases i
  case ivIadd | ivIsub | ivImul | ivIdiv | ivImax | ivImin | ivIhull | ivIsect | ivImid | ivIrad | ivIwid | ivIlo | ivIhi | ivIin | ivImk =>
    cases hrow; cases hnames; rfl
  case ivIsqr | ivIsqrt | ivIexp | ivIlog =>
    obtain rfl := Option.some.inj ((ivOne_eq ..).symm.trans hrow)
    cases hnames; rfl
  case ivIsubset =>
    obtain rfl := Option.some.inj ((ivRow_ivIsubset ..).symm.trans hrow)
    cases hnames; rfl
  all_goals cases hrow

/-- Each binary contractor is a trigger of socket 10 with the sets of its row. -/
theorem fireOf_contractTwoRow {i : Instr} {sock code lat : Nat} {f : Box → Box → Box → Option Box × Option Box}
    (hrow : contractTwoRow i = some (lat, f)) (hnames : i.trigger = some (sock, code)) :
    sock = 10 ∧ fireOf i = some (fireContract2 code lat f) := by
  cases i
  case ivCadd | ivCsub | ivCmul | ivCdiv | ivCmax | ivCmin => cases hrow; cases hnames; exact ⟨rfl, rfl⟩
  all_goals cases hrow

/-- Each unary contractor is a trigger of socket 10 with the bits of its row. -/
theorem fireOf_contractOneRow {i : Instr} {sock code lat : Nat} {f : Num → Num → Num → Num → Nat}
    (hrow : contractOneRow i = some (lat, f)) (hnames : i.trigger = some (sock, code)) :
    sock = 10 ∧ fireOf i = some (fireContract1 code lat f) := by
  cases i
  case ivCsqr | ivCsqrt | ivCexp | ivClog => cases hrow; cases hnames; exact ⟨rfl, rfl⟩
  all_goals cases hrow

/-! ## What a contractor sends (R168, R169, R172) -/

section Contract
variable {i : Instr} {g : Guard} {x : Src} {s : State} {v : Vec} {t0 t : Tile} {code lat : Nat} {ops : List Vec}

/-- A binary contractor sends x' to y0 and y' to y1, each beside the operand that it narrows. -/
theorem runMove_contract2 {f : Box → Box → Box → Option Box × Option Box} (h : Triggers i g x 10 code [0, 1] [0, 1] s v t0 ops t) :
    let r := fun l => contractLane f (ivlLane (opAt ops 0) l) (ivlLane (opAt ops 1) l) (ivlLane v l)
    runMove i g x (fireContract2 code lat f) s = .next (withTile s <|
      deliver (deliver t 10 code 0 lat (packLanes 64 ((List.range 16).map fun l => (r l).1)) (some (opAt ops 0))) 10 code 1 lat
        (packLanes 64 ((List.range 16).map fun l => (r l).2)) (some (opAt ops 1))) := by
  intro r
  exact runMove_compute
    (rs := [(0, packLanes 64 ((List.range 16).map fun l => (r l).1), some (opAt ops 0)),
      (1, packLanes 64 ((List.range 16).map fun l => (r l).2), some (opAt ops 1))]) h (by simp only [List.map_map]; rfl)

/-- A unary contractor sends x' to y0 beside x. -/
theorem runMove_contract1 {f : Num → Num → Num → Num → Nat} (h : Triggers i g x 10 code [0] [0] s v t0 ops t) :
    runMove i g x (fireContract1 code lat f) s =
      .next (withTile s (deliver t 10 code 0 lat (ivLanes2 (onSets f) (opAt ops 0) v) (some (opAt ops 0)))) :=
  runMove_compute (rs := [(0, ivLanes2 (onSets f) (opAt ops 0) v, some (opAt ops 0))]) h rfl

end Contract

/-- Settles O8: each operation is the computing trigger of its row, each contractor one that sends its narrowed operands. -/
theorem intervalResults : Obligations.IntervalResults := by
  refine ⟨fun i row hrow g x sock code s v t0 ops t h => ?forward, fun i lat f hrow g x sock code s v t0 ops t h => ?two,
    fun i lat f hrow g x sock code s v t0 ops t h => ?one⟩
  case forward => exact exec_computes (fireOf_ivRow hrow h.names) h
  case two =>
    obtain ⟨rfl, hf⟩ := fireOf_contractTwoRow hrow h.names
    exact (exec_fireOf h.fires.isMove hf).trans (runMove_contract2 h)
  case one =>
    obtain ⟨rfl, hf⟩ := fireOf_contractOneRow hrow h.names
    exact (exec_fireOf h.fires.isMove hf).trans (runMove_contract1 h)

end Sys2Proof.Machine
end

section
/-!
PROOF. What the triggers of the queues share (R92, R96): a trigger that finds no room, and the place kept on a result port.
-/
namespace Sys2Proof.Machine
open Sys2Proof.Machine.Claims

/-- A firing move whose destination finds no room freezes the tile, with nothing taken (R96). -/
theorem runMove_freeze {i : Instr} {g : Guard} {x : Src} {f : Fire} {s : State} {v : Vec} {t : Tile} (h : Fires i g x s v t)
    (hf : f 1 x.hold v (withTile s t) = .freeze) : runMove i g x f s = .next (onCur (fun t => { t with run := .frozen }) s) := by
  rw [runMove_fires h, hf]
  rfl

/-- A place kept on a result port changes the sockets alone. -/
theorem awaitOn_socks (t : Tile) (k y n : Nat) : ∃ ks, awaitOn t k y n = { t with socks := ks } := ⟨_, rfl⟩

/-- A place kept on a result port is the last of its port's queue; every other port's queue stays. -/
theorem fifo_awaitOn (t : Tile) (k y n m z : Nat) : (portOf (sockOf (awaitOn t k y n) m) z).fifo =
    (portOf (sockOf t m) z).fifo ++ if m = k ∧ z = y then [{ due := .waits n, val := 0, narrowed := none }] else [] := by
  have hwrite : awaitOn t k y n = writePort t k y
    { portOf (sockOf t k) y with fifo := (portOf (sockOf t k) y).fifo ++ [{ due := .waits n, val := 0, narrowed := none }] } := rfl
  rw [hwrite]
  by_cases hm : m = k
  · subst hm
    by_cases hz : z = y
    · subst hz
      rw [portOf_writePort_same, if_pos ⟨rfl, rfl⟩]
    · rw [portOf_writePort_other _ _ _ hz, if_neg (fun h => hz h.2), List.append_nil]
  · rw [sockOf_writePort_other _ _ _ hm, if_neg (fun h => hm h.1), List.append_nil]

end Sys2Proof.Machine
end

section
/-!
PROOF. The matrix socket (R175-R196): what its triggers queue, and the lanes of the accumulators that mclr, macw and mread write.
-/
namespace Sys2Proof.Machine
open Sys2Proof.Machine.Claims

/-! ## Fields -/

/-- A field of the low bits of a number. -/
theorem bitsOf_mod {lo w n : Nat} (h : lo + w ≤ n) (m : Nat) : bitsOf (m % 2 ^ n) lo w = bitsOf m lo w := by
  refine Nat.eq_of_testBit_eq fun i => ?_
  simp only [bitsOf, Nat.testBit_mod_two_pow, Nat.testBit_shiftRight]
  by_cases hi : i < w
  · have hin : lo + i < n := by omega
    simp [hin]
  · simp [hi]

/-- A field of a trigger value's low 64 bits. -/
theorem fld_vecWord {lo w : Nat} (h : lo + w ≤ 64) (v : Vec) : fld (vecWord v) lo w = fld v lo w := by
  rw [fld, vecWord, BitVec.toNat_setWidth]
  exact bitsOf_mod h _

/-- A bit of a field that begins at bit 0. -/
theorem bitsOf_fld_zero {w a : Nat} (h : a < w) (v : Vec) : bitsOf (fld v 0 w) a 1 = fld v a 1 := by
  have hlow : fld v 0 w = v.toNat % 2 ^ w := by rw [fld, bitsOf, Nat.shiftRight_zero]
  rw [hlow]
  exact bitsOf_mod h _

theorem fld_lt {k : Nat} (v : BitVec k) (lo w : Nat) : fld v lo w < 2 ^ w := bitsOf_lt ..

/-! ## The checks of a trigger (R194) -/

section Check
variable {t : Tile} {code : Nat} {v : Vec}

/-- An array operation of no row, of more than 64, or past row 63 is an illegal encoding. -/
theorem mxCheck_rows (hcode : code ∈ [10, 11, 15]) (h : fld v 4 7 = 0 ∨ 64 < fld v 4 7 ∨ 64 < fld v 12 6 + fld v 4 7) :
    mxCheck t (mxOpOf t code 1 v) = some 1 := by
  have harray : (mxOpOf t code 1 v).isArray = true := by
    simp only [List.mem_cons, List.not_mem_nil, or_false] at hcode
    rcases hcode with rfl | rfl | rfl <;> rfl
  have hrows : fld (mxOpOf t code 1 v).desc 4 7 = fld v 4 7 := fld_vecWord (by decide) v
  have hfirst : fld (mxOpOf t code 1 v).desc 12 6 = fld v 12 6 := fld_vecWord (by decide) v
  simp [mxCheck, harray, hrows, hfirst, h, or_assoc]

/-- A weight load of no column or of more than 64 is an illegal encoding. -/
theorem mxCheck_columns (hcode : code ∈ [8, 16]) (h : fld v 0 7 = 0 ∨ 64 < fld v 0 7) : mxCheck t (mxOpOf t code 1 v) = some 1 := by
  have hload : (mxOpOf t code 1 v).isLoad = true ∧ (mxOpOf t code 1 v).isArray = false := by
    simp only [List.mem_cons, List.not_mem_nil, or_false] at hcode
    rcases hcode with rfl | rfl <;> exact ⟨rfl, rfl⟩
  have hcols : fld (mxOpOf t code 1 v).desc 0 7 = fld v 0 7 := fld_vecWord (by decide) v
  simp [mxCheck, hload.1, hload.2, hcols, h]

end Check

/-! ## The operations of the queue (R184-R189, R194, R195) -/

/-- Each operation of the queue is a trigger with its code. -/
theorem fireOf_mxQueued {i : Instr} {code : Nat} (h : mxQueued i = some code) : fireOf i = some (fireMxQueued code) := by
  cases i
  case mxWload | mxWswap | mxMstream | mxMstreamn | mxMivl | mxWloadsp => cases h; rfl
  all_goals cases h

section Queue
variable {code : Nat} {held : Bool} {s : State} {t : Tile} {v : Vec}

theorem fireMxQueued_fault {c : Nat} (h : mxCheck t (mxOpOf t code 1 v) = some c) :
    fireMxQueued code 1 held v (withTile s t) = .fault (mkFault c 8 code 1 0) := by
  simp only [fireMxQueued, h]

variable (h : mxCheck t (mxOpOf t code 1 v) = none)
include h

theorem fireMxQueued_full (hfull : 8 ≤ t.mx.queue.length) : fireMxQueued code 1 held v (withTile s t) = .freeze := by
  simp only [fireMxQueued, h, if_pos hfull]

theorem fireMxQueued_joins (hshort : t.mx.queue.length < 8) : fireMxQueued code 1 held v (withTile s t) =
    .ok (withTile s { t with mx := { t.mx with queue := t.mx.queue ++ [mxOpOf t code 1 v], seq := t.mx.seq + 1 } }) := by
  simp only [fireMxQueued, h, if_neg (Nat.not_le.mpr hshort)]

end Queue

/-! ## Lanes of the accumulators (R175, R192) -/

/-- A lane after another, or the same, is written. -/
theorem accAt_putAcc {a r c a' r' c' : Nat} (hr : r < 64) (hc : c < 64) (hr' : r' < 64) (hc' : c' < 64) (m : Mx) (x : BitVec 32) :
    accAt (putAcc m a' r' c' x) a r c = if a = a' ∧ r = r' ∧ c = c' then x else accAt m a r c := by
  have hkey : a * 4096 + r * 64 + c = a' * 4096 + r' * 64 + c' ↔ a = a' ∧ r = r' ∧ c = c' := by omega
  simp only [accAt, putAcc, tget_tset, hkey]

/-- The lanes of a list written, each with the value of its bit position. -/
def writeLanes (f : Nat → BitVec 32) (qs : List (Nat × Nat × Nat × Nat)) (m : Mx) : Mx :=
  qs.foldl (fun m q => putAcc m q.1 q.2.1 q.2.2.1 (f q.2.2.2)) m

/-- Writing lanes changes the accumulators alone. -/
theorem writeLanes_acc (f : Nat → BitVec 32) (qs : List (Nat × Nat × Nat × Nat)) (m : Mx) : ∃ acc, writeLanes f qs m = { m with acc := acc } := by
  induction qs generalizing m with
  | nil => exact ⟨m.acc, rfl⟩
  | cons q qs ih =>
    obtain ⟨acc, h⟩ := ih (putAcc m q.1 q.2.1 q.2.2.1 (f q.2.2.2))
    exact ⟨acc, h⟩

/-- A lane that stands at no more than one bit position holds that position's value where it is listed, and what it held where not. -/
theorem accAt_writeLanes {f : Nat → BitVec 32} {qs : List (Nat × Nat × Nat × Nat)} (hin : ∀ q ∈ qs, q.2.1 < 64 ∧ q.2.2.1 < 64)
    {a r c p : Nat} (hr : r < 64) (hc : c < 64) (hone : ∀ k, (a, r, c, k) ∈ qs → k = p) (m : Mx) :
    accAt (writeLanes f qs m) a r c = if (a, r, c, p) ∈ qs then f p else accAt m a r c := by
  induction qs generalizing m with
  | nil => rfl
  | cons q qs ih =>
    obtain ⟨a', r', c', k⟩ := q
    obtain ⟨hr', hc'⟩ := hin _ List.mem_cons_self
    have hrest := ih (fun q hq => hin q (List.mem_cons_of_mem _ hq)) (fun k hk => hone k (List.mem_cons_of_mem _ hk)) (putAcc m a' r' c' (f k))
    have hput := accAt_putAcc (a := a) (a' := a') hr hc hr' hc' m (f k)
    rw [hput] at hrest
    refine Eq.trans hrest ?_
    by_cases hthis : a = a' ∧ r = r' ∧ c = c'
    · obtain ⟨rfl, rfl, rfl⟩ := hthis
      obtain rfl : k = p := hone k List.mem_cons_self
      simp
    · have hne : (a, r, c, p) ≠ (a', r', c', k) := fun h => by
        simp only [Prod.mk.injEq] at h
        exact hthis ⟨h.1, h.2.1, h.2.2.1⟩
      rw [if_neg hthis]
      simp only [List.mem_cons, hne, false_or]

/-- A lane lies in the window of a descriptor: 16 columns of a pair of accumulators, or 32 columns of one (R192). -/
abbrev InWindow (d : Word) (a r c : Nat) : Prop :=
  r = fld d 4 6 ∧ if bit d 17 then (a = fld d 0 3 ∨ a = fld d 0 3 + 1) ∧ c / 16 = fld d 11 2 else a = fld d 0 3 ∧ c / 32 = fld d 10 1

/-- The bit position of a window's lane in the value that is read or written. -/
def windowBit (d : Word) (a c : Nat) : Nat := if bit d 17 then 64 * (c % 16) + 32 * (a - fld d 0 3) else 32 * (c % 32)

/-- The lanes listed for a window are those in it, each at its bit position. -/
theorem mem_windowLanes {d : Word} {a r c p : Nat} : (a, r, c, p) ∈ windowLanes d ↔ InWindow d a r c ∧ p = windowBit d a c := by
  unfold windowLanes InWindow windowBit
  cases hpair : bit d 17 with
  | true =>
    simp only [if_true, List.mem_flatMap, List.mem_range, List.mem_cons, List.not_mem_nil, or_false, Prod.mk.injEq]
    constructor
    · rintro ⟨l, hl, ⟨rfl, rfl, rfl, rfl⟩ | ⟨rfl, rfl, rfl, rfl⟩⟩
      · exact ⟨⟨rfl, .inl rfl, by omega⟩, by omega⟩
      · exact ⟨⟨rfl, .inr rfl, by omega⟩, by omega⟩
    · rintro ⟨⟨rfl, ha, hc⟩, rfl⟩
      refine ⟨c % 16, Nat.mod_lt _ (by decide), ?_⟩
      rcases ha with rfl | rfl
      · exact .inl ⟨rfl, rfl, by omega, by omega⟩
      · exact .inr ⟨rfl, rfl, by omega, by omega⟩
  | false =>
    simp only [Bool.false_eq_true, if_false, List.mem_map, List.mem_range, Prod.mk.injEq]
    constructor
    · rintro ⟨l, hl, rfl, rfl, rfl, rfl⟩
      exact ⟨⟨rfl, rfl, by omega⟩, by omega⟩
    · rintro ⟨⟨rfl, rfl, hc⟩, rfl⟩
      exact ⟨c % 32, Nat.mod_lt _ (by decide), rfl, rfl, by omega, rfl⟩

/-- The lanes of a window lie within the 64 rows and columns. -/
theorem windowLanes_bounds {d : Word} {q : Nat × Nat × Nat × Nat} (hq : q ∈ windowLanes d) : q.2.1 < 64 ∧ q.2.2.1 < 64 := by
  obtain ⟨a, r, c, p⟩ := q
  obtain ⟨⟨hrow, hcols⟩, -⟩ := mem_windowLanes.mp hq
  dsimp only
  have hr := fld_lt d 4 6
  have h16 := fld_lt d 11 2
  have h32 := fld_lt d 10 1
  refine ⟨hrow ▸ hr, ?_⟩
  split at hcols
  · omega
  · omega

/-- Writing a window. -/
theorem accAt_writeWindow (f : Nat → BitVec 32) (d : Word) (m : Mx) {a r c : Nat} (hr : r < 64) (hc : c < 64) :
    accAt (writeLanes f (windowLanes d) m) a r c = if InWindow d a r c then f (windowBit d a c) else accAt m a r c := by
  rw [accAt_writeLanes (fun q hq => windowLanes_bounds hq) hr hc (fun k hk => (mem_windowLanes.mp hk).2)]
  simp only [mem_windowLanes, and_true]

/-! ## mclr (R190, R196) -/

/-- A table without the entries whose keys fail a test. -/
theorem tget_filter_key {α : Type} (d : α) (keep : Nat → Bool) (t : Tab α) (k : Nat) :
    tget d (t.filter fun e => keep e.1) k = if keep k then tget d t k else d := by
  induction t with
  | nil => simp
  | cons e t ih =>
    by_cases hk : e.1 = k
    · subst hk
      cases hkeep : keep e.1 <;> simp [hkeep, tget, ih]
    · cases hkeep : keep e.1 <;> simp [hkeep, tget, hk, ih]

/-- The tile once the accumulators of a mask are zeroed. -/
def clearAccs (t : Tile) (mask : Nat) : Tile :=
  if mask = 0 then t
  else { t with mx := { t.mx with acc := t.mx.acc.filter fun e => bitsOf mask (e.1 / 4096) 1 == 0, clears := t.mx.clears ++ [(2, mask)],
                                  seq := t.mx.seq + 1 } }

theorem clearAccs_mx (t : Tile) (mask : Nat) : ∃ m, clearAccs t mask = { t with mx := m } := by
  unfold clearAccs
  split
  · exact ⟨t.mx, rfl⟩
  · exact ⟨_, rfl⟩

/-- A lane is zeroed where its accumulator is in the mask. -/
theorem accAt_clearAccs (t : Tile) (mask : Nat) {a r c : Nat} (hr : r < 64) (hc : c < 64) :
    accAt (clearAccs t mask).mx a r c = if bitsOf mask a 1 = 0 then accAt t.mx a r c else 0 := by
  unfold clearAccs
  split
  · next h => subst h; simp [bitsOf]
  · have hacc : (a * 4096 + r * 64 + c) / 4096 = a := by omega
    refine (tget_filter_key 0 (fun k => bitsOf mask (k / 4096) 1 == 0) t.mx.acc (a * 4096 + r * 64 + c)).trans ?_
    simp only [hacc, beq_iff_eq]
    rfl

theorem mclrTake_busy {t : Tile} {v : Vec} (h : busyMask t.mx &&& fld v 0 8 ≠ 0) : mclrTake t v = .freeze := if_pos h

theorem mclrTake_clears {t : Tile} {v : Vec} (h : busyMask t.mx &&& fld v 0 8 = 0) : mclrTake t v = .ok (clearAccs t (fld v 0 8)) := by
  simp only [mclrTake, h, ne_eq, not_true_eq_false, if_false, clearAccs]
  split <;> rfl

/-! ## macw and mread (R191-R193, R196) -/

/-- What an mread leaves of the accumulators: with its clear bit the window is zeroed. -/
def readMx (m : Mx) (d : Word) : Mx := if bit d 16 then writeLanes (fun _ => 0) (windowLanes d) m else m

/-- The result of an mread, under way under the tile's serial number. -/
def readOf (t : Tile) (v : Vec) : MxRead :=
  { rem := 4, serial := t.serial, seq := (readMx t.mx (vecWord v)).seq, val := windowValue t.mx (vecWord v) }

/-- The tile once an mread has taken its window and has a place kept on y0. -/
def readTile (t : Tile) (v : Vec) : Tile :=
  let m := readMx t.mx (vecWord v)
  awaitResult { t with serial := t.serial + 1, mx := { m with reads := m.reads ++ [readOf t v], seq := m.seq + 1 } } 8 t.serial

/-- The lanes that an mread leaves. -/
theorem accAt_readMx (m : Mx) (d : Word) {a r c : Nat} (hr : r < 64) (hc : c < 64) :
    accAt (readMx m d) a r c = if bit d 16 ∧ InWindow d a r c then 0 else accAt m a r c := by
  unfold readMx
  cases hclear : bit d 16 with
  | true => rw [if_pos rfl, accAt_writeWindow (fun _ => 0) d m hr hc]; simp only [true_and]
  | false => simp

/-- An mread leaves the results under way, and adds its own. -/
theorem readTile_reads (t : Tile) (v : Vec) : (readTile t v).mx.reads = t.mx.reads ++ [readOf t v] := by
  have hreads : (readMx t.mx (vecWord v)).reads = t.mx.reads := by
    unfold readMx
    split
    · obtain ⟨acc, h⟩ := writeLanes_acc (fun _ => 0) (windowLanes (vecWord v)) t.mx
      rw [h]
    · rfl
  exact congrArg (· ++ [readOf t v]) hreads

/-- An mread keeps a place on y0. -/
theorem readTile_fifo (t : Tile) (v : Vec) : (portOf (sockOf (readTile t v) 8) 0).fifo =
    (portOf (sockOf t 8) 0).fifo ++ [{ due := .waits t.serial, val := 0, narrowed := none }] := fifo_awaitOn ..

section Window
variable {t : Tile} {v a : Vec}

theorem macwTake_fault {c : Nat} (h : mxCheck t (mxOpOf t 14 1 v) = some c) : macwTake t 1 a v = .fault (mkFault c 8 14 1 0) := by
  simp only [macwTake, h]

theorem mreadTake_fault {c : Nat} (h : mxCheck t (mxOpOf t 13 1 v) = some c) : mreadTake t 1 v = .fault (mkFault c 8 13 1 0) := by
  simp only [mreadTake, h]

theorem macwTake_busy (h : mxCheck t (mxOpOf t 14 1 v) = none) (hbusy : busyMask t.mx &&& windowMask (vecWord v) ≠ 0) :
    macwTake t 1 a v = .freeze := by
  simp only [macwTake, h, if_pos hbusy]

theorem mreadTake_busy (h : mxCheck t (mxOpOf t 13 1 v) = none) (hbusy : busyMask t.mx &&& windowMask (vecWord v) ≠ 0) :
    mreadTake t 1 v = .freeze := by
  simp only [mreadTake, h, if_pos hbusy]

variable (hfree : busyMask t.mx &&& windowMask (vecWord v) = 0)
include hfree

/-- A macw writes the lanes of its window with those of its operand and keeps its accumulators busy for two cycles. -/
theorem macwTake_writes (h : mxCheck t (mxOpOf t 14 1 v) = none) : ∃ cs n, macwTake t 1 a v =
    .ok { t with mx := { writeLanes (fun k => BitVec.ofNat 32 (fld a k 32)) (windowLanes (vecWord v)) t.mx with clears := cs, seq := n } } := by
  simp only [macwTake, h, hfree, ne_eq, not_true_eq_false, if_false]
  exact ⟨_, _, rfl⟩

/-- An mread takes its window. -/
theorem mreadTake_reads (h : mxCheck t (mxOpOf t 13 1 v) = none) (hroom : Room t 8 13 [0]) : mreadTake t 1 v = .ok (readTile t v) := by
  unfold Room at hroom
  simp only [mreadTake, h, hfree, ne_eq, not_true_eq_false, if_false, hroom, Res.bind]
  rfl

end Window

/-- A macw takes its operand, and writes with it. -/
theorem fireMxMacw_takes {x : Src} {s : State} {v : Vec} {t0 t : Tile} {ops : List Vec} (h : Takes t0 8 14 x [0] ops t) :
    fireMxMacw 1 x.hold v (withTile s t0) = (macwTake t 1 (opAt ops 0) v).bind fun t => .ok (withTile s t) := by
  unfold Takes at h
  simp only [fireMxMacw, h, Res.bind]

/-- Settles O28: the triggers of the queue by their check and the queue; mclr, macw and mread by the lanes that they write. -/
theorem matrixOperations : Obligations.MatrixOperations := by
  refine ⟨fun i g x code s v t hf hcode => ?queued, ⟨fun g x s v t hf hfree => ?mclr, fun g x s v t0 ops t hf htakes => ?macw,
    fun g x s v t hf => ?mread⟩, fun g x s v t hf hbusy => ?mclrBusy, fun g x s v t0 ops t hf htakes => ?macwStops,
    fun g x s v t hf => ?mreadStops⟩
  case queued =>
    have hexec := exec_fireOf (s := s) hf.isMove (fireOf_mxQueued hcode)
    have hfault {c : Nat} (h : mxCheck t (mxOpOf t code 1 v) = some c) : Faults i s (mkFault c 8 code 1 0) :=
      hexec.trans (runMove_fault hf (fireMxQueued_fault h))
    exact ⟨fun hcheck hshort => hexec.trans (runMove_goes hf (fireMxQueued_joins hcheck hshort) rfl),
      fun hcheck hfull => hexec.trans (runMove_freeze hf (fireMxQueued_full hcheck hfull)), fun c hcheck => hfault hcheck,
      fun hc hrows => hfault (mxCheck_rows hc hrows), fun hc hcols => hfault (mxCheck_columns hc hcols)⟩
  case mclr =>
    have hfire : fireMxMclr 1 x.hold v (withTile s t) = .ok (withTile s (clearAccs t (fld v 0 8))) := by
      simp only [fireMxMclr, mclrTake_clears hfree, Res.bind]
    obtain ⟨m, hmx⟩ := clearAccs_mx t (fld v 0 8)
    refine ⟨_, runMove_goes hf hfire (by rw [hmx]), by rw [hmx], fun a r c ha hr hc => ?_⟩
    rw [accAt_clearAccs t _ hr hc, bitsOf_fld_zero ha, bit]
    have hlt := fld_lt v a 1
    by_cases hbit : fld v a 1 = 1
    · simp [hbit]
    · have hzero : fld v a 1 = 0 := by omega
      simp [hzero]
  case macw =>
    intro d hcheck hfree
    obtain ⟨cs, n, htake⟩ := macwTake_writes (a := opAt ops 0) hfree hcheck
    have hfire := fireMxMacw_takes (s := s) (v := v) htakes
    rw [htake] at hfire
    refine ⟨_, runMove_ok hf hfire (AtRest_of_ctl (takeOperands_rest htakes (Fires_rest hf)) rfl), rfl, fun a r c ha hr hc => ?_⟩
    refine (accAt_writeWindow _ _ t.mx hr hc).trans ?_
    unfold InWindow windowBit
    cases hpair : bit d 17 with
    | true => simp [d, and_left_comm]
    | false => simp [d, and_left_comm]
  case mread =>
    intro d hcheck hfree hroom
    have hfire : fireMxMread 1 x.hold v (withTile s t) = .ok (withTile s (readTile t v)) := by
      simp only [fireMxMread, mreadTake_reads hfree hcheck hroom, Res.bind]
    exact ⟨_, readOf t v, runMove_goes hf hfire rfl, readTile_reads t v, rfl, rfl, readTile_fifo t v, rfl,
      fun a r c ha hr hc => accAt_readMx t.mx d hr hc⟩
  case mclrBusy =>
    have hfire : fireMxMclr 1 x.hold v (withTile s t) = .freeze := by simp only [fireMxMclr, mclrTake_busy hbusy, Res.bind]
    exact runMove_freeze hf hfire
  case macwStops =>
    have hfire := fireMxMacw_takes (s := s) (v := v) htakes
    refine ⟨fun c hcheck => ?_, fun hcheck hbusy => ?_⟩
    · rw [macwTake_fault hcheck] at hfire
      exact runMove_fault hf hfire
    · rw [macwTake_busy hcheck hbusy] at hfire
      exact runMove_freeze hf hfire
  case mreadStops =>
    refine ⟨fun c hcheck => runMove_fault (f := fireMxMread) hf ?_, fun hcheck hbusy => runMove_freeze (f := fireMxMread) hf ?_⟩
    · simp only [fireMxMread, mreadTake_fault hcheck, Res.bind]
    · simp only [fireMxMread, mreadTake_busy hcheck hbusy, Res.bind]

end Sys2Proof.Machine
end

section
/-!
PROOF. The quantiser (R200-R206): what its triggers queue, and what its operations do to the counts, the pending block and the units when they run.
-/
namespace Sys2Proof.Machine
open Sys2Proof.Machine.Claims

/-! ## The triggers (R200, R206) -/

/-- The operation that a trigger of qnt in slot 1 queues, with the word of its operand. -/
def qntOpOf (t : Tile) (code : Nat) (a : Word) (v : Vec) : QntOp :=
  { code := code, a := a, b := v, vf := fmtOf t 0, slot := 1, serial := t.serial }

/-- The result ports of a trigger of qnt. -/
def qntOuts (code : Nat) : List Nat := if code = 9 then [0, 1, 2] else []

/-- The tile once an operation has joined the queue of qnt. -/
def joinQnt (t : Tile) (o : QntOp) : Tile := { t with qnt := { t.qnt with queue := t.qnt.queue ++ [o] } }

/-- The tile once a qflush has joined the queue and a place is kept for each of its three results. -/
def joinFlush (t : Tile) (o : QntOp) : Tile :=
  awaitOn (awaitOn (awaitOn { joinQnt t o with serial := t.serial + 1 } 9 0 t.serial) 9 1 t.serial) 9 2 t.serial

/-- A qflush that joins changes the queue, the serial number and the sockets alone. -/
theorem joinFlush_socks (t : Tile) (o : QntOp) : ∃ ks, joinFlush t o = { joinQnt t o with serial := t.serial + 1, socks := ks } := by
  unfold joinFlush
  obtain ⟨k0, h0⟩ := awaitOn_socks { joinQnt t o with serial := t.serial + 1 } 9 0 t.serial
  rw [h0]
  obtain ⟨k1, h1⟩ := awaitOn_socks { joinQnt t o with serial := t.serial + 1, socks := k0 } 9 1 t.serial
  rw [h1]
  exact awaitOn_socks { joinQnt t o with serial := t.serial + 1, socks := k1 } 9 2 t.serial

/-- A qflush keeps one place on y0, y1 and y2. -/
theorem fifo_joinFlush (t : Tile) (o : QntOp) (y : Nat) : (portOf (sockOf (joinFlush t o) 9) y).fifo =
    (portOf (sockOf t 9) y).fifo ++ if y ∈ [0, 1, 2] then [{ due := .waits t.serial, val := 0, narrowed := none }] else [] := by
  have hsocks : sockOf { joinQnt t o with serial := t.serial + 1 } 9 = sockOf t 9 := rfl
  simp only [joinFlush, fifo_awaitOn, hsocks, true_and]
  match y with
  | 0 | 1 | 2 => simp
  | y + 3 => simp

section Take
variable {t : Tile} {code : Nat} {a v : Vec}

/-- A trigger that fails its check faults. -/
theorem qntTake_fault {c : Nat} (h : qntCheck t (qntOpOf t code (vecWord a) v) = some c) :
    qntTake code 1 a v t = .fault (mkFault c 9 code 1 0) := by
  unfold qntOpOf at h
  simp only [qntTake, h]

variable (h : qntCheck t (qntOpOf t code (vecWord a) v) = none)
include h

/-- With four operations queued a trigger waits. -/
theorem qntTake_full (hfull : 4 ≤ t.qnt.queue.length) : qntTake code 1 a v t = .freeze := by
  unfold qntOpOf at h
  simp only [qntTake, h, if_pos hfull]

/-- With room it joins the queue. -/
theorem qntTake_joins (hshort : t.qnt.queue.length < 4) (hroom : Room t 9 code (qntOuts code)) :
    qntTake code 1 a v t = .ok (if code = 9 then joinFlush t (qntOpOf t code (vecWord a) v) else joinQnt t (qntOpOf t code (vecWord a) v)) := by
  unfold qntOpOf at h
  unfold Room qntOuts at hroom
  simp only [qntTake, h, if_neg (Nat.not_le.mpr hshort), hroom, Res.bind]
  split <;> rfl

end Take

/-- A trigger without operand ports takes nothing. -/
theorem Takes_nil {t0 t : Tile} {sock code : Nat} {x : Src} {ops : List Vec} (h : Takes t0 sock code x [] ops t) : t = t0 := by
  cases h
  rfl

/-- A trigger with an operand takes it first. -/
theorem qntTake_takes {t0 t : Tile} {code : Nat} {x : Src} {ops : List Vec} {s : State} {v : Vec} (h : Takes t0 9 code x [0] ops t) :
    ((takeOperands t0 9 code 1 x.hold [0]).bind fun q => (qntTake code 1 (opAt q.1 0) v q.2).bind fun t => .ok (withTile s t)) =
      (qntTake code 1 (opAt ops 0) v t).bind fun t => .ok (withTile s t) := by
  unfold Takes at h
  rw [h]
  rfl

/-- A firing operation of qnt is a trigger with its operand, or with none. -/
theorem exec_qntQueued {i : Instr} {g : Guard} {x : Src} {code : Nat} {s : State} {v : Vec} {t0 t : Tile} {ops : List Vec}
    (hf : Fires i g x s v t0) (hcode : qntQueued i = some code)
    (htakes : Takes t0 9 code x (if code = 8 ∨ code = 10 then [0] else []) ops t) :
    ∃ f : Fire, exec i s = runMove i g x f s ∧ f 1 x.hold v (withTile s t0) =
      (qntTake code 1 (if code = 8 ∨ code = 10 then opAt ops 0 else 0) v t).bind fun t => .ok (withTile s t) := by
  have hrun {f : Fire} (h : fireOf i = some f) : exec i s = runMove i g x f s := exec_fireOf hf.isMove h
  cases i
  case qntQnt | qntQrange =>
    cases hcode
    exact ⟨_, hrun rfl, qntTake_takes htakes⟩
  case qntQflush | qntQthr =>
    cases hcode
    obtain rfl := Takes_nil htakes
    exact ⟨_, hrun rfl, rfl⟩
  all_goals cases hcode

/-! ## Units and blocks (R203, R204, R206) -/

/-- Emitting full units leaves all but the gathered bits and the units. -/
theorem emitUnits_frame (q : Quant) : ∃ cs ms ss us, emitUnits q = { q with codes := cs, marks := ms, scales := ss, units := us } := by
  unfold emitUnits
  dsimp only
  split <;> split <;> split <;> exact ⟨_, _, _, _, rfl⟩

@[simp] theorem emitUnits_elems (q : Quant) : (emitUnits q).elems = q.elems := by obtain ⟨_, _, _, _, h⟩ := emitUnits_frame q; rw [h]
@[simp] theorem emitUnits_blocks (q : Quant) : (emitUnits q).blocks = q.blocks := by obtain ⟨_, _, _, _, h⟩ := emitUnits_frame q; rw [h]
@[simp] theorem emitUnits_sat (q : Quant) : (emitUnits q).sat = q.sat := by obtain ⟨_, _, _, _, h⟩ := emitUnits_frame q; rw [h]
@[simp] theorem emitUnits_pending (q : Quant) : (emitUnits q).pending = q.pending := by obtain ⟨_, _, _, _, h⟩ := emitUnits_frame q; rw [h]

/-- The codes of a block change no count but that of saturations, by at most one for each value. -/
theorem foldl_pushCode_counts (e : Int) (vs : List Num) (q : Quant) : (vs.foldl (pushCode e) q).elems = q.elems ∧
    (vs.foldl (pushCode e) q).blocks = q.blocks ∧ q.sat ≤ (vs.foldl (pushCode e) q).sat ∧
    (vs.foldl (pushCode e) q).sat ≤ q.sat + vs.length := by
  induction vs generalizing q with
  | nil => exact ⟨rfl, rfl, le_refl _, le_refl _⟩
  | cons v vs ih =>
    obtain ⟨helems, hblocks, hlow, hhigh⟩ := ih (pushCode e q v)
    have hsat : (pushCode e q v).sat = q.sat + if saturates q.t6 e v then 1 else 0 := emitUnits_sat _
    have hone : (if saturates q.t6 e v then 1 else 0) ≤ 1 := by split <;> decide
    rw [List.foldl_cons, List.length_cons]
    exact ⟨helems.trans (emitUnits_elems _), hblocks.trans (emitUnits_blocks _), by omega, by omega⟩

/-- Closing the pending block counts it, with its saturations, and leaves none pending. -/
theorem closeBlock_counts (q : Quant) : (closeBlock q).elems = q.elems ∧
    (closeBlock q).blocks = q.blocks + (if q.pending = [] then 0 else 1) ∧ q.sat ≤ (closeBlock q).sat ∧
    (closeBlock q).sat ≤ q.sat + q.pending.length ∧ (closeBlock q).pending = [] := by
  by_cases hnone : q.pending = []
  · have hsame : closeBlock q = q := if_pos hnone
    rw [hsame, if_pos hnone]
    exact ⟨rfl, rfl, le_refl _, Nat.le_add_right .., hnone⟩
  · obtain ⟨helems, hblocks, hlow, hhigh⟩ := foldl_pushCode_counts (blockScale q) q.pending q
    simp only [closeBlock, if_neg hnone, emitUnits_elems, emitUnits_blocks, emitUnits_sat, emitUnits_pending]
    exact ⟨helems, by rw [hblocks], hlow, hhigh, trivial⟩

/-- A value appended is one element more. -/
theorem appendValue_elems (q : Quant) (v : Num) : (appendValue q v).elems = q.elems + 1 := emitUnits_elems _

theorem foldl_appendValue_elems (vs : List Num) (q : Quant) : (vs.foldl appendValue q).elems = q.elems + vs.length := by
  induction vs generalizing q with
  | nil => rfl
  | cons v vs ih => rw [List.foldl_cons, ih, appendValue_elems, List.length_cons]; omega

/-! ## The operations when they run (R202, R203, R205, R206) -/

section Effect
variable (q : Quant) {o : QntOp}

theorem qntEffect_qthr (h : o.code = 11) : qntEffect q o =
    { q with last := (o.code, o.slot), tau := fld o.b 0 5, t6 := bit o.b 8, fe := fld o.b 12 4, fb := fld o.b 16 4, fs := fld o.b 20 4,
             configured := true } := by
  simp only [qntEffect, h]

theorem qntEffect_qrange_ranges (h : o.code = 10) :
    (qntEffect q o).ranges = q.ranges ++ (List.range (fld o.a 0 5)).map fun l => rangeOf (ivlLane o.b l) := by
  simp only [qntEffect, h]

theorem qntEffect_qnt_elems (h : o.code = 8) : (qntEffect q o).elems = q.elems + fld o.a 0 7 := by
  simp only [qntEffect, h, foldl_appendValue_elems, List.length_map, List.length_range]

/-- A qflush counts what stands once the pending block is closed, and empties the quantiser. -/
theorem qntEffect_qflush (h : o.code = 9) : let b := closeBlock { q with last := (o.code, o.slot) }
    qntEffect q o =
      { lastUnits b with flush := some { rem := 4, serial := o.serial, elems := b.elems, blocks := b.blocks, sat := b.sat }, elems := 0,
                         blocks := 0, sat := 0, ranges := [] } := by
  simp only [qntEffect, h]
  rfl

end Effect

/-- Settles O29: each trigger by its check and its queue, each operation by its effect. -/
theorem quantiserOperations : Obligations.QuantiserOperations := by
  refine ⟨fun i g x code s v t0 ops t hf hcode htakes => ?triggers, fun q o => ⟨qntEffect_qthr q, fun h n hn => ?qrange, qntEffect_qnt_elems q,
    fun h => ?qflush⟩⟩
  case triggers =>
    obtain ⟨f, hexec, hfire⟩ := exec_qntQueued hf hcode htakes
    have hword : vecWord (if code = 8 ∨ code = 10 then opAt ops 0 else 0) = if code = 8 ∨ code = 10 then vecWord (opAt ops 0) else 0 := by
      have hzero : vecWord 0 = 0 := BitVec.setWidth_zero ..
      rw [apply_ite vecWord, hzero]
    have hrest : AtRest t := takeOperands_rest htakes (Fires_rest hf)
    generalize (if code = 8 ∨ code = 10 then opAt ops 0 else 0) = a at hfire hword
    rw [← hword]
    refine ⟨fun hcheck hshort hroom => ?joins, fun hcheck hfull => ?full, fun c hcheck => ?fault⟩
    case joins =>
      rw [qntTake_joins hcheck hshort hroom] at hfire
      by_cases h9 : code = 9
      · rw [if_pos h9] at hfire
        have hfifo := fifo_joinFlush t (qntOpOf t code (vecWord a) v)
        obtain ⟨ks, hsocks⟩ := joinFlush_socks t (qntOpOf t code (vecWord a) v)
        rw [hsocks] at hfire hfifo
        exact ⟨_, hexec.trans (runMove_ok hf hfire (AtRest_of_ctl hrest rfl)), rfl, fun h => absurd h9 h, fun _ => ⟨rfl, rfl, hfifo⟩⟩
      · rw [if_neg h9] at hfire
        exact ⟨_, hexec.trans (runMove_ok hf hfire (AtRest_of_ctl hrest rfl)), rfl, fun _ => rfl, fun h => absurd h h9⟩
    case full =>
      rw [qntTake_full hcheck hfull] at hfire
      exact hexec.trans (runMove_freeze hf hfire)
    case fault =>
      rw [qntTake_fault hcheck] at hfire
      exact hexec.trans (runMove_fault hf hfire)
  case qrange => rw [hn]; exact qntEffect_qrange_ranges q h
  case qflush =>
    obtain ⟨helems, hblocks, hlow, hhigh, hpending⟩ := closeBlock_counts { q with last := (o.code, o.slot) }
    rw [qntEffect_qflush q h]
    exact ⟨_, rfl, rfl, rfl, helems, hblocks, hlow, hhigh, rfl, rfl, rfl, rfl, hpending, rfl, rfl, rfl⟩

end Sys2Proof.Machine
end

section
/-!
PROOF. Streams bound and unbound (R181, R229, R232): the stream that a bind puts in its register, and the count that an unbind reports.
-/
namespace Sys2Proof.Machine
open Sys2Proof.Machine.Claims

/-! ## bind (R181, R229) -/

/-- The counts of the dimensions that a bind's control word uses, from operand 0. -/
def bindCounts (v : Vec) (ops : List Vec) : List Nat := (List.range (fld (vecWord v) 8 2 + 1)).map fun k => fld (opAt ops 0) (16 * k) 16

/-- A stream fresh from its control word, with nothing transferred. -/
def boundStream (v : Vec) (ops : List Vec) : Stream where
  h := fld (vecWord v) 16 10
  write := bit (vecWord v) 4
  esz := fld (vecWord v) 5 3
  counts := bindCounts v ops
  strides := (List.range (fld (vecWord v) 8 2 + 1)).map fun k => sintOf 16 (fld (opAt ops 1) (16 * k) 16)
  base := fld (opAt ops 2) 0 32
  buf := []
  coming := []
  rows := 0
  moved := 0
  unit := 0
  stopped := false
  fresh := true

/-- An operation triggered before a bind still holds its stream or its handle. -/
def bindHeld (t : Tile) (v : Vec) : Bool := streamHeld t (fld (vecWord v) 0 4) || ttHolds t (fld (vecWord v) 16 10) t.serial

section Bind
variable {n : Bool} {x : Src} {s : State} {v : Vec} {t0 t : Tile} {ops : List Vec} (htakes : Takes t0 (lwSock n) 12 x [0, 1, 2] ops t)
include htakes

/-- A used count of 0 is an illegal encoding. -/
theorem fireBind_zeroCount (h0 : 0 ∈ bindCounts v ops) : fireBind n 1 x.hold v (withTile s t0) = .fault (mkFault 1 (lwSock n) 12 1 0) := by
  unfold Takes at htakes
  have hany : ((bindCounts v ops).any fun c => c == 0) = true := List.any_eq_true.mpr ⟨0, h0, rfl⟩
  unfold bindCounts at hany
  simp [fireBind, htakes, Res.bind, hany]

variable (h0 : 0 ∉ bindCounts v ops)
include h0

/-- With counts that are not 0, a bind waits for what holds its stream, then finds the stream bound or makes it. -/
theorem fireBind_counts : fireBind n 1 x.hold v (withTile s t0) =
    if bindHeld t0 v then .freeze
    else if (tfind t0.streams (fld (vecWord v) 0 4)).isSome then .fault (streamFault (lwSock n) 12 1 (fld (vecWord v) 0 4))
    else .ok (withTile s { t with streams := tput t.streams (fld (vecWord v) 0 4) (boundStream v ops) }) := by
  unfold Takes at htakes
  have hany : ((bindCounts v ops).any fun c => c == 0) = false := by
    rw [List.any_eq_false]
    exact fun c hc he => h0 (beq_iff_eq.mp he ▸ hc)
  unfold bindCounts at hany
  simp only [fireBind, htakes, Res.bind, hany]
  rfl

theorem fireBind_waits (hheld : bindHeld t0 v = true) : fireBind n 1 x.hold v (withTile s t0) = .freeze :=
  (fireBind_counts htakes h0).trans (if_pos hheld)

variable (hheld : bindHeld t0 v = false)
include hheld

/-- A stream that is bound already is a stream fault. -/
theorem fireBind_bound (hbound : tfind t0.streams (fld (vecWord v) 0 4) ≠ none) :
    fireBind n 1 x.hold v (withTile s t0) = .fault (mkFault 18 (lwSock n) 12 1 (fld (vecWord v) 0 4)) := by
  rw [fireBind_counts htakes h0, if_neg (Bool.eq_false_iff.mp hheld), if_pos (Option.isSome_iff_ne_none.mpr hbound), streamFault]

/-- One that is not holds the fresh stream then. -/
theorem fireBind_binds (hnone : tfind t0.streams (fld (vecWord v) 0 4) = none) : fireBind n 1 x.hold v (withTile s t0) =
    .ok (withTile s { t with streams := tput t.streams (fld (vecWord v) 0 4) (boundStream v ops) }) := by
  rw [fireBind_counts htakes h0, if_neg (Bool.eq_false_iff.mp hheld), hnone]
  rfl

end Bind

/-! ## unbind (R181, R232) -/

/-- The tile without the stream f, which no fence waits for any more. -/
def dropStream (t : Tile) (f : Nat) : Tile :=
  { t with streams := tdel t.streams f,
           gm := t.gm.map fun e => if e.isFence then { e with lanes := e.lanes.filter fun q => decide (q.1 ≠ f) } else e }

/-- The elements that a stream has transferred: those stored, or those read. -/
def transferred (st : Stream) : Nat := if st.write then st.unit else st.moved

section Unbind
variable {n held : Bool} {s : State} {v : Vec} {t : Tile}

/-- Unbinding a stream that is not bound is a stream fault. -/
theorem fireUnbind_unbound (h : tfind t.streams (fld v 0 4) = none) :
    fireUnbind n 1 held v (withTile s t) = .fault (mkFault 18 (lwSock n) 13 1 (fld v 0 4)) := by
  simp only [fireUnbind, h, streamFault]

variable {st : Stream} (hst : tfind t.streams (fld v 0 4) = some st)
include hst

/-- A stream that an operation holds, or whose queue has elements still to store, is waited for. -/
theorem fireUnbind_waits (h : streamHeld t (fld v 0 4) = true ∨ (st.write = true ∧ st.stopped = false ∧ st.buf ≠ [])) :
    fireUnbind n 1 held v (withTile s t) = .freeze := by
  simp only [fireUnbind, hst]
  rcases h with h | ⟨hw, hs, hb⟩
  · rw [if_pos h]
  · simp [hw, hs, hb]

/-- Any other stream is removed, and the number of its elements sent. -/
theorem fireUnbind_removes (hheld : streamHeld t (fld v 0 4) = false) (hdone : st.write = false ∨ st.stopped = true ∨ st.buf = [])
    (hroom : Room t (lwSock n) 13 [0]) : fireUnbind n 1 held v (withTile s t) =
      .ok (withTile s (deliver (dropStream t (fld v 0 4)) (lwSock n) 13 0 2 (toVec (transferred st)) none)) := by
  unfold Room at hroom
  have hstored : (st.write && !st.stopped && decide (st.buf ≠ [])) = false := by rcases hdone with h | h | h <;> simp [h]
  simp only [fireUnbind, hst, hheld, hstored, hroom, Res.bind, Bool.false_eq_true, if_false]
  rfl

end Unbind

/-- Settles O32: a bind by its counts, what holds its stream and whether it is bound; an unbind by its stream. -/
theorem streamBinding : Obligations.StreamBinding := by
  refine ⟨fun n g x s v t0 ops t hf htakes => ?bind, fun n g x s v t hf => ?unbind⟩
  case bind =>
    have hexec : exec (.lwBind g x n) s = runMove (.lwBind g x n) g x (fireBind n) s := rfl
    intro w f dims counts held
    refine ⟨fun h0 hheld hnone => ?binds, fun h0 => hexec.trans (runMove_fault hf (fireBind_zeroCount htakes h0)),
      fun h0 hheld => hexec.trans (runMove_freeze hf (fireBind_waits htakes h0 hheld)),
      fun h0 hheld hbound => hexec.trans (runMove_fault hf (fireBind_bound htakes h0 hheld hbound))⟩
    have hgoes := runMove_ok hf (fireBind_binds htakes h0 hheld hnone) (AtRest_of_ctl (takeOperands_rest htakes (Fires_rest hf)) rfl)
    exact ⟨_, boundStream v ops, hexec.trans hgoes, tfind_tput_same .., rfl, rfl, rfl, rfl, rfl, rfl, rfl, rfl, rfl, rfl, rfl,
      fun k hk => tfind_tput_other _ _ hk, rfl⟩
  case unbind =>
    have hexec : exec (.lwUnbind g x n) s = runMove (.lwUnbind g x n) g x (fireUnbind n) s := rfl
    refine ⟨fun hnone => hexec.trans (runMove_fault hf (fireUnbind_unbound hnone)), fun st hst =>
      ⟨fun hwaits => hexec.trans (runMove_freeze hf (fireUnbind_waits hst hwaits)), fun hheld hdone hroom => ?_⟩⟩
    exact ⟨dropStream t (fld v 0 4), hexec.trans (runMove_goes hf (fireUnbind_removes hst hheld hdone hroom) rfl), tfind_tdel_same ..,
      fun k hk => tfind_tdel_other _ hk, rfl⟩

end Sys2Proof.Machine
end

section
/-!
PROOF. The states of handles (R213): what an event leaves at the storage that a handle names.
-/
namespace Sys2Proof.Machine

section Handle
variable {s : State} {e : Entry} {ev : HEvent}

/-- The state written at a handle's storage is the one found there. -/
@[simp] theorem hstateOf_putHstate_same (h : HState) : hstateOf (putHstate s e h) e = h := tget_tset_same ..

/-- Other storage keeps its state. -/
theorem hstateOf_putHstate_other (h : HState) {e' : Entry} (hkey : storeKey e' ≠ storeKey e) :
    hstateOf (putHstate s e h) e' = hstateOf s e' := tget_tset_other _ _ _ hkey

/-- A plain handle takes every event and keeps no state. -/
theorem handleEvent_plain (hplain : e.tracked = false) : handleEvent s e ev = some s := by simp [handleEvent, hplain]

/-- A tracked handle takes the events that its state takes. -/
theorem handleEvent_tracked (htracked : e.tracked = true) : handleEvent s e ev = (hstep (hstateOf s e) ev).map (putHstate s e) :=
  if_pos htracked

end Handle

/-- Settles O33: the table by its sixteen entries, an event by the state that it writes. -/
theorem handleStates : Obligations.HandleStates := by
  refine ⟨fun c => ?table, fun s e ev => ⟨handleEvent_plain, fun htracked h hstep => ?taken, fun htracked hstep => ?refused⟩⟩
  case table => and_intros <;> rfl
  case taken =>
    refine ⟨putHstate s e h, ?_, hstateOf_putHstate_same h, fun e' hkey => hstateOf_putHstate_other h hkey, rfl⟩
    rw [handleEvent_tracked htracked, hstep, Option.map_some]
  case refused => rw [handleEvent_tracked htracked, hstep, Option.map_none]

end Sys2Proof.Machine
end

section
/-!
PROOF. The tile table (R215, R355-R357): what the triggers of tt queue, and what each operation does to the table when it takes effect.
-/
namespace Sys2Proof.Machine
open Sys2Proof.Machine.Claims

/-! ## The triggers (R47, R355) -/

/-- The operand ports of a trigger of tt. -/
def ttPorts (code : Nat) : List Nat := if code = 8 then [0] else if code = 11 then [0, 1] else []

/-- Whether a trigger of tt has a result. -/
def ttAnswers (code : Nat) : Bool := decide (code ∈ [8, 10, 12])

/-- The operation that a trigger of tt in slot 1 queues. -/
def ttOpOf (code : Nat) (ops : List Vec) (v : Vec) (serial : Nat) : TtOp :=
  { code := code, a := vecWord (opAt ops 0), c := vecWord (opAt ops 1), b := vecWord v, serial := serial, slot := 1 }

/-- The tile once an operation has joined the queue of tt, with a place for its result where it has one. -/
def joinTt (o : TtOp) (t : Tile) : Tile :=
  let u := { t with serial := t.serial + 1, tt := t.tt ++ [o] }
  if ttAnswers o.code then awaitResult u 17 t.serial else u

/-- An operation that joins changes the queue, the serial number and the sockets alone. -/
theorem joinTt_frame (o : TtOp) (t : Tile) : ∃ ks, joinTt o t = { t with serial := t.serial + 1, tt := t.tt ++ [o], socks := ks } := by
  unfold joinTt
  split <;> exact ⟨_, rfl⟩

/-- It keeps a place on y0 where it has a result. -/
theorem fifo_joinTt (o : TtOp) (t : Tile) (k y : Nat) : (portOf (sockOf (joinTt o t) k) y).fifo = (portOf (sockOf t k) y).fifo ++
    if ttAnswers o.code = true ∧ k = 17 ∧ y = 0 then [{ due := .waits t.serial, val := 0, narrowed := none }] else [] := by
  unfold joinTt
  cases ttAnswers o.code
  · simp only [Bool.false_eq_true, false_and, if_false, List.append_nil]
    rfl
  · simp only [if_true, true_and]
    exact fifo_awaitOn { t with serial := t.serial + 1, tt := t.tt ++ [o] } 17 0 t.serial k y

/-- A trigger of tt is a table trigger with its code, ports and result. -/
theorem fireOf_ttQueued {i : Instr} {code : Nat} (h : ttQueued i = some code) :
    fireOf i = some (fireTable code (ttPorts code) (ttAnswers code)) := by
  cases i <;> cases h <;> rfl

section Trigger
variable {code : Nat} {x : Src} {s : State} {v : Vec} {t0 t : Tile} {ops : List Vec}

/-- At user privilege hset is a privilege fault. -/
theorem fireTable_privilege {ports : List Nat} {result held : Bool} (huser : isSystem t0 = false) :
    fireTable 11 ports result 1 held v (withTile s t0) = .fault (mkFault 2 17 11 1 0) :=
  if_pos ⟨rfl, by simp [huser]⟩

variable (htakes : Takes t0 17 code x (ttPorts code) ops t) (hsys : code = 11 → isSystem t0 = true)
include htakes hsys

/-- A reserved value is an illegal encoding. -/
theorem fireTable_illegal (hbad : ttIllegal (withTile s t0) code (vecWord (opAt ops 0)) (vecWord (opAt ops 1)) (vecWord v) = true) :
    fireTable code (ttPorts code) (ttAnswers code) 1 x.hold v (withTile s t0) = .fault (mkFault 1 17 code 1 0) := by
  unfold Takes at htakes
  have hpriv : ¬ (code = 11 ∧ (!isSystem t0) = true) := fun h => by simp [hsys h.1] at h
  simp only [fireTable, hpriv, htakes, Res.bind, hbad, if_true, if_false]

/-- Any other trigger joins the queue, whose operations take effect as far as they may. -/
theorem fireTable_joins (hgood : ttIllegal (withTile s t0) code (vecWord (opAt ops 0)) (vecWord (opAt ops 1)) (vecWord v) = false)
    (hroom : Room t0 17 code (if ttAnswers code then [0] else [])) : let u := joinTt (ttOpOf code ops v t.serial) t
      fireTable code (ttPorts code) (ttAnswers code) 1 x.hold v (withTile s t0) = .ok (serveTt u.tt.length (withTile s u)) := by
  unfold Takes at htakes
  unfold Room at hroom
  have hpriv : ¬ (code = 11 ∧ (!isSystem t0) = true) := fun h => by simp [hsys h.1] at h
  simp only [fireTable, hpriv, htakes, Res.bind, hgood, hroom, if_false, Bool.false_eq_true]
  rfl

end Trigger

/-- A trigger takes one operand from each of its ports. -/
theorem takeOperands_length {sock code slot : Nat} {held : Bool} : ∀ {ports : List Nat} {t t' : Tile} {ops : List Vec},
    takeOperands t sock code slot held ports = .ok (ops, t') → ops.length = ports.length
  | [], _, _, _, h => by cases h; rfl
  | p :: ps, _, t', ops, h => by
    have htail {u : Tile} {w : Vec} (hbind : ((takeOperands u sock code slot held ps).bind fun r => .ok (w :: r.1, r.2)) = .ok (ops, t')) :
        ops.length = (p :: ps).length := by
      cases hq : takeOperands u sock code slot held ps with
      | ok q =>
        rw [hq] at hbind
        cases hbind
        rw [List.length_cons, takeOperands_length hq, List.length_cons]
      | freeze | drain | fault => rw [hq] at hbind; cases hbind
    unfold takeOperands at h
    dsimp only at h
    split at h
    · split at h
      · exact htail h
      · cases h
    · exact htail h

/-- An operand that the operation does not read is 0. -/
theorem opAt_ttPorts {code : Nat} {x : Src} {t0 t : Tile} {ops : List Vec} (htakes : Takes t0 17 code x (ttPorts code) ops t) :
    (if code = 8 ∨ code = 11 then vecWord (opAt ops 0) else 0) = vecWord (opAt ops 0) ∧
      (if code = 11 then vecWord (opAt ops 1) else 0) = vecWord (opAt ops 1) := by
  have hlen := takeOperands_length htakes
  have habsent {k : Nat} (h : ops.length ≤ k) : vecWord (opAt ops k) = 0 := by
    rw [opAt, List.getElem?_eq_none h, Option.getD_none]
    simp [vecWord]
  unfold ttPorts at hlen
  by_cases h8 : code = 8
  · subst h8
    exact ⟨rfl, (habsent (by simp at hlen; omega)).symm⟩
  by_cases h11 : code = 11
  · subst h11
    exact ⟨rfl, rfl⟩
  simp only [h8, h11, if_false, List.length_nil] at hlen
  simp [h8, h11, habsent (k := 0) (by omega), habsent (k := 1) (by omega)]

/-! ## The table (R357) -/

@[simp] theorem putHstate_cur (s : State) (e : Entry) (h : HState) : (putHstate s e h).cur = s.cur := rfl
@[simp] theorem addRef_cur (e : Entry) (s : State) : (addRef e s).cur = s.cur := by unfold addRef; split <;> rfl
@[simp] theorem dropRef_cur (e : Entry) (s : State) : (dropRef e s).cur = s.cur := by unfold dropRef; dsimp only; split <;> rfl

/-- A table with an entry put at a handle, or taken out. -/
def tableWith (t : Tab Entry) (h : Nat) : Option Entry → Tab Entry
  | none => tdel t h
  | some e => tput t h e

/-- The handle finds what was put there, every other handle what it found before. -/
theorem tfind_tableWith (t : Tab Entry) (h : Nat) (e : Option Entry) (k : Nat) : tfind (tableWith t h e) k = if k = h then e else tfind t k := by
  by_cases hk : k = h
  · subst hk
    rw [if_pos rfl]
    cases e with
    | none => exact tfind_tdel_same t k
    | some e => exact tfind_tput_same t k e
  · rw [if_neg hk]
    cases e with
    | none => exact tfind_tdel_other t hk
    | some e => exact tfind_tput_other t e hk

/-- An entry put or taken out changes of the tile its table alone. -/
@[simp] theorem putEntry_cur (h : Nat) (e : Option Entry) (s : State) : (putEntry h e s).cur = { s.cur with table := tableWith s.cur.table h e } := by
  unfold putEntry
  cases tfind s.cur.table h <;> cases e <;> simp [tableWith]

section Effect
variable {o : TtOp} {s : State}

/-- hstate answers the state word. -/
theorem ttEffect_hstate (hcode : o.code = 10) : ttEffect o s = withTile s (answer s.cur 17 o.serial 2 (toVec (hstateValue s (fld o.b 0 10)))) := by
  simp only [ttEffect, hcode]
  rfl

/-- What hinfo answers of the handle h: 0 where it has no entry, else its shape, its size or its state. -/
def hinfoValue (s : State) (h what : Nat) : Nat :=
  match tfind s.cur.table h with
  | none => 0
  | some e => if what = 0 then shapeWord e else if what = 1 then e.size else hstateValue s h

/-- hinfo answers what it is asked for. -/
theorem ttEffect_hinfo (hcode : o.code = 12) : ttEffect o s =
    withTile s (answer s.cur 17 o.serial 2 (toVec (hinfoValue s (fld o.b 0 10) (fld o.b 20 2)))) := by
  have hwhat (e : Entry) (n : Nat) : (match n with | 0 => shapeWord e | 1 => e.size | _ => hstateValue s (fld o.b 0 10)) =
      if n = 0 then shapeWord e else if n = 1 then e.size else hstateValue s (fld o.b 0 10) := by
    match n with
    | 0 | 1 => rfl
    | n + 2 => simp
  simp only [ttEffect, hcode, hinfoValue, ← hwhat]
  rfl

/-- Without its valid bit hset clears the handle's entry. -/
theorem ttEffect_hset_clears (hcode : o.code = 11) (hclear : bit o.b 19 = false) : ttEffect o s = putEntry (fld o.b 0 10) none s := by
  simp [ttEffect, hcode, hclear]

/-- With it hset puts the entry that its words describe, and the state of a tracked one. -/
theorem ttEffect_hset_writes (hcode : o.code = 11) (hset : bit o.b 19 = true) {q : Nat × Nat}
    (hq : storageOf s (handleLevel (fld o.b 0 10)) o.c (shapeSize o.a) = some q) :
    let e := mkEntry (handleLevel (fld o.b 0 10)) q.1 q.2 o.a (bit o.b 16)
    let u := putEntry (fld o.b 0 10) (some e) s
    ttEffect o s = if bit o.b 16 then putHstate u e ⟨fld o.b 17 2, 0⟩ else u := by
  simp only [ttEffect, hcode, hset, hq, if_true]
  rfl

/-- Whether something still uses an entry: its tracked state is filling or draining, or a stream or a copy names it. -/
def entryUsed (s : State) (h : Nat) (e : Entry) : Bool :=
  (e.tracked && ((hstateOf s e).st == 1 || (hstateOf s e).st == 3)) || (s.cur.streams.any fun x => x.2.h == h) || copyNames s.cur h

/-- hfree clears an entry that nothing uses. -/
theorem ttEffect_hfree_clears (hcode : o.code = 9) {e : Entry} (he : tfind s.cur.table (fld o.b 0 10) = some e)
    (hfree : entryUsed s (fld o.b 0 10) e = false) : ttEffect o s = putEntry (fld o.b 0 10) none s := by
  unfold entryUsed at hfree
  simp [ttEffect, hcode, he, hfree]

/-- It refuses a handle without an entry, and one that is used. -/
theorem ttEffect_hfree_refused (hcode : o.code = 9)
    (hused : ∀ e, tfind s.cur.table (fld o.b 0 10) = some e → entryUsed s (fld o.b 0 10) e = true) : ttEffect o s = refuseFree o s := by
  unfold entryUsed at hused
  simp only [ttEffect, hcode]
  cases he : tfind s.cur.table (fld o.b 0 10) with
  | none => rfl
  | some e => exact if_pos (hused e he)

/-- A handle that halloc cannot make is answered with a status. -/
theorem ttEffect_halloc_answers (hcode : o.code = 8) {p st : Nat} (hplan : hallocPlan s o = (p, st, none)) :
    ttEffect o s = withTile s (answer s.cur 17 o.serial 2 (toVec (p + st * 65536))) := by
  simp only [ttEffect, hcode, hplan]
  rfl

/-- The rows of a fresh entry that are still to be zeroed. -/
def freshZeroing (o : TtOp) (h : Nat) (e : Entry) : Zeroing :=
  { h := h, entry := e, left := List.range (e.size / 64), serial := o.serial, fresh := true }

/-- One that it can make gets its entry, whose rows are then zeroed. -/
theorem ttEffect_halloc_makes (hcode : o.code = 8) {p : Nat} {e : Entry} (hplan : hallocPlan s o = (p, 0, some e)) :
    (ttEffect o s).cur = { s.cur with table := tableWith s.cur.table p (some e),
                                      zero := s.cur.zero ++ [freshZeroing o p e] } := by
  simp only [ttEffect, hcode, hplan]
  split <;> simp [freshZeroing]

end Effect

/-- Taking effect leaves the traps and the SOCKMODE value that wait: of the control state it changes the late faults alone. -/
theorem ttEffect_ctl (o : TtOp) (s : State) :
    (ttEffect o s).cur.ctl.traps = s.cur.ctl.traps ∧ (ttEffect o s).cur.ctl.mode = s.cur.ctl.mode := by
  unfold ttEffect
  dsimp only
  split
  case h_1 =>
    cases (hallocPlan s o).2.2 with
    | none => exact ⟨rfl, rfl⟩
    | some e => dsimp only; split <;> simp
  case h_2 =>
    cases tfind s.cur.table (fld o.b 0 10) with
    | none => exact ⟨rfl, rfl⟩
    | some e =>
      dsimp only
      split
      · exact ⟨rfl, rfl⟩
      · simp
  case h_3 => exact ⟨rfl, rfl⟩
  case h_4 =>
    split
    · cases storageOf s (handleLevel (fld o.b 0 10)) o.c (shapeSize o.a) with
      | none => exact ⟨rfl, rfl⟩
      | some q => dsimp only; split <;> simp
    · simp
  case h_5 => exact ⟨rfl, rfl⟩

/-- Taking effect leaves a tile between bundles. -/
theorem ttEffect_rest (o : TtOp) {s : State} (h : AtRest s.cur) : AtRest (ttEffect o s).cur := by
  obtain ⟨htraps, hmode⟩ := ttEffect_ctl o s
  exact ⟨htraps.trans h.traps, hmode.trans h.mode⟩

/-- So does the taking effect of the operations that may. -/
theorem serveTt_rest (n : Nat) {s : State} (h : AtRest s.cur) : AtRest (serveTt n s).cur := by
  induction n generalizing s with
  | zero => exact h
  | succ n ih =>
    unfold serveTt
    split
    · exact h
    · split
      · exact ih (ttEffect_rest _ ⟨h.traps, h.mode⟩)
      · exact h

/-- What a free of a handle is refused with: the late fault of R215. -/
theorem refuseFree_refuses (o : TtOp) (s : State) : (refuseFree o s).cur.table = s.cur.table ∧ (refuseFree o s).cur.ctl.late = s.cur.ctl.late ++
    [{ mkFault 15 17 o.code o.slot (fld o.b 0 10) with late := true, addr := BitVec.ofNat 64 (fld o.b 0 10) }] := ⟨rfl, rfl⟩

/-- A tracked entry that fills or drains is used. -/
theorem entryUsed_tracked {s : State} {h : Nat} {e : Entry} (htracked : e.tracked = true) (hst : (hstateOf s e).st = 1 ∨ (hstateOf s e).st = 3) :
    entryUsed s h e = true := by
  simp [entryUsed, htracked, hst]

/-- An entry that neither fills nor drains, nor is named by a stream or a copy, is not. -/
theorem entryUsed_free {s : State} {h : Nat} {e : Entry} (hst : e.tracked = false ∨ ((hstateOf s e).st ≠ 1 ∧ (hstateOf s e).st ≠ 3))
    (hstreams : ∀ x ∈ s.cur.streams, x.2.h ≠ h) (hcopies : copyNames s.cur h = false) : entryUsed s h e = false := by
  have hstream : (s.cur.streams.any fun x => x.2.h == h) = false := List.any_eq_false.mpr fun x hx => by simpa using hstreams x hx
  have htracked : (e.tracked && ((hstateOf s e).st == 1 || (hstateOf s e).st == 3)) = false := by
    rcases hst with h | ⟨h1, h3⟩ <;> simp [*]
  simp [entryUsed, hstream, htracked, hcopies]

/-- Settles O35: a trigger by its checks and its queue, an operation by the lemma about its effect. -/
theorem tileTableOperations : Obligations.TileTableOperations := by
  refine ⟨fun i g x code s v t0 ops t hf hcode htakes => ?trigger, fun o s => ?effect⟩
  case trigger =>
    have hexec := exec_fireOf (s := s) hf.isMove (fireOf_ttQueued hcode)
    have hprivilege (h11 : code = 11) (huser : isSystem t0 = false) : Faults i s (mkFault 2 17 11 1 0) := by
      subst h11
      exact hexec.trans (runMove_fault hf (fireTable_privilege huser))
    intro a c answers
    obtain ⟨ha, hc⟩ : a = vecWord (opAt ops 0) ∧ c = vecWord (opAt ops 1) := opAt_ttPorts htakes
    rw [ha, hc]
    refine ⟨fun hsys hgood hroom => ?joins, hprivilege, fun hsys hbad => hexec.trans (runMove_fault hf (fireTable_illegal htakes hsys hbad))⟩
    have hrest : AtRest t := takeOperands_rest htakes (Fires_rest hf)
    obtain ⟨ks, hframe⟩ := joinTt_frame (ttOpOf code ops v t.serial) t
    refine ⟨joinTt (ttOpOf code ops v t.serial) t, ?_, by rw [hframe]; rfl, fun k y => fifo_joinTt .., by rw [hframe], by rw [hframe]⟩
    exact hexec.trans (runMove_ok hf (fireTable_joins htakes hsys hgood hroom)
      (serveTt_rest _ (AtRest_of_ctl hrest (by rw [hframe]))))
  case effect =>
    intro h
    refine ⟨ttEffect_hstate, fun hnone => ?absent, fun e he => ?present, ttEffect_hinfo, fun hcode hclear k => ?clears, fun hcode hset q hq => ?writes,
      fun hcode e he hst hstreams hcopies k => ?frees, fun hcode hused => ?refuses, fun hcode p e hplan => ?makes, fun hcode p st => ttEffect_halloc_answers hcode⟩
    case absent => simp only [hstateValue, hnone]
    case present => simp only [hstateValue, he]
    case clears => rw [ttEffect_hset_clears hcode hclear, putEntry_cur, tfind_tableWith]
    case writes =>
      rw [ttEffect_hset_writes hcode hset hq]
      refine ⟨fun k => ?_, fun htracked => ?_⟩
      · split <;> simp [tfind_tableWith, h]
      · rw [if_pos htracked, hstateOf_putHstate_same]
    case frees =>
      rw [ttEffect_hfree_clears hcode he (entryUsed_free hst hstreams hcopies), putEntry_cur, tfind_tableWith]
    case refuses =>
      have heffect : ttEffect o s = refuseFree o s := ttEffect_hfree_refused hcode fun e he => by
        rcases hused with hnone | ⟨e', he', htracked, hst⟩
        · rw [hnone] at he; cases he
        · rw [he'] at he; cases he; exact entryUsed_tracked htracked hst
      rw [heffect, ← hcode]
      exact refuseFree_refuses o s
    case makes =>
      rw [ttEffect_halloc_makes hcode hplan]
      exact ⟨fun k => tfind_tableWith s.cur.table p (some e) k, rfl⟩

end Sys2Proof.Machine
end

section
/-!
PROOF. The gm triggers (R218-R220, R223, R233-R241, R243): what a translation may change, what the accesses of a trigger are, and how it joins
the accesses in flight or stops.
-/
namespace Sys2Proof.Machine
open Sys2Proof.Machine.Claims

/-! ## Translation (R218-R220) -/

/-- All that a translation by gm may change: the caches of the focused tile and of the walk units, and the counter of free values. -/
structure CachesOnly (s s' : State) : Prop where
  tile : ∃ w, s'.cur = { s.cur with walk := w }
  mem : s'.dev.mem = s.dev.mem
  cells : s'.dev.cells = s.dev.cells
  peers : s'.peers = s.peers

theorem CachesOnly.refl (s : State) : CachesOnly s s := ⟨⟨s.cur.walk, rfl⟩, rfl, rfl, rfl⟩

theorem CachesOnly.trans {s u v : State} (h : CachesOnly s u) (h' : CachesOnly u v) : CachesOnly s v := by
  obtain ⟨w, htile⟩ := h.tile
  obtain ⟨w', htile'⟩ := h'.tile
  exact ⟨⟨w', by rw [htile', htile]⟩, h'.mem.trans h.mem, h'.cells.trans h.cells, h'.peers.trans h.peers⟩

/-- A walk fills the walk unit alone. -/
theorem fillUnit_caches (die ctx va : Nat) (s : State) : CachesOnly s (fillUnit die ctx va s) := by
  unfold fillUnit
  split
  · exact ⟨⟨s.cur.walk, rfl⟩, rfl, rfl, rfl⟩
  · exact CachesOnly.refl s

/-- A leaf kept fills the tile's cache beside it. -/
theorem cacheLeaf_caches (s : State) (va pa : Nat) : CachesOnly s (cacheLeaf s va pa) := by
  obtain ⟨⟨w, htile⟩, hmem, hcells, hpeers⟩ := fillUnit_caches s.cur.id.die (ctxNum s.cur) va s
  unfold cacheLeaf
  refine ⟨?_, hmem, hcells, hpeers⟩
  rw [onCur_cur, htile]
  exact ⟨_, rfl⟩

/-- A translation changes no more than these caches. -/
theorem gmTranslate_caches (s : State) (va : Nat) (r w : Bool) : CachesOnly s (gmTranslate s va r w).2 := by
  have hnext {u : State} (h : CachesOnly s u) (c : Prop) [Decidable c] : CachesOnly s (if c then u else { u with fresh := u.fresh + 1 }) := by
    split
    · exact h
    · exact ⟨h.tile, h.mem, h.cells, h.peers⟩
  unfold gmTranslate
  refine hnext ?_ _
  split
  · split
    · exact cacheLeaf_caches ..
    · exact CachesOnly.refl s
  · exact CachesOnly.refl s

/-- So does the translation of every lane. -/
theorem gmLanes_caches {code slot : Nat} {r w : Bool} {targets : List (Nat × Nat)} {s s' : State} {lanes : List (Nat × Nat)}
    (h : gmLanes code slot r w targets s = .ok (lanes, s')) : CachesOnly s s' := by
  induction targets generalizing s lanes with
  | nil => cases h; exact CachesOnly.refl _
  | cons q qs ih =>
    have hone := gmTranslate_caches s q.2 r w
    unfold gmLanes at h
    split at h
    · rename_i pa u htrans
      rw [htrans] at hone
      cases hrest : gmLanes code slot r w qs u with
      | ok p =>
        rw [hrest] at h
        cases h
        exact hone.trans (ih hrest)
      | freeze | drain | fault => rw [hrest] at h; cases h
    · cases h
    · cases h

/-! ## The accesses in flight (R234, R240, R311) -/

/-- The request of one access of a trigger in slot 1, whose first access has the serial number `group`. -/
def gmRequest (code : Nat) (w : Word) (a c : Vec) (group : Nat) (lanes : List (Nat × Nat)) (serial : Nat) : GmReq :=
  { code := code, word := w, a := a, c := c, lanes := lanes, serial := serial, slot := 1, performed := false, reply := 0, st := 0, replyTs := 0,
    part := 0, group := group }

/-- The requests of a trigger, one for each group of lanes, with rising serials. -/
def gmRequests (code : Nat) (w : Word) (a c : Vec) (group : Nat) (groups : List (List (Nat × Nat))) (serial : Nat) : List GmReq :=
  (groups.zipIdx serial).map fun q => gmRequest code w a c group q.1 q.2

/-- The tile with more accesses in flight, whose serial numbers are taken, and with what a comparator is shown. -/
def addAccesses (rs : List GmReq) (cs : List CheckedWrite) (t : Tile) : Tile :=
  { t with gm := t.gm ++ rs, serial := t.serial + rs.length, checked := cs }

/-- An access added before others is the first of them. -/
theorem addAccesses_cons (r : GmReq) (rs : List GmReq) (c cs : List CheckedWrite) (t : Tile) :
    addAccesses rs cs (addAccesses [r] c t) = addAccesses (r :: rs) cs t := by
  have hserial : t.serial + 1 + rs.length = t.serial + (rs.length + 1) := by omega
  simp [addAccesses, hserial]

/-- One access more in flight; on a tile that is not checked it is shown to no comparator. -/
theorem pushGm_adds (s : State) {t : Tile} {r : GmReq} (hr : r.serial = t.serial) :
    ∃ cs, pushGm s t r = addAccesses [r] cs t ∧ (bit t.csr.status 7 = false → cs = t.checked) := by
  unfold pushGm
  rw [hr]
  dsimp only
  split
  · rename_i hchecked
    refine ⟨_, rfl, fun h => ?_⟩
    rw [h] at hchecked
    cases hchecked
  · exact ⟨t.checked, rfl, fun _ => rfl⟩

/-- The accesses of a trigger in flight, in order. -/
theorem foldl_pushGm_adds (code : Nat) (w : Word) (a c : Vec) (group : Nat) (s : State) (groups : List (List (Nat × Nat))) (t : Tile) :
    ∃ cs, groups.foldl (fun t lanes => pushGm s t (gmRequest code w a c group lanes t.serial)) t =
        addAccesses (gmRequests code w a c group groups t.serial) cs t ∧ (bit t.csr.status 7 = false → cs = t.checked) := by
  induction groups generalizing t with
  | nil => exact ⟨t.checked, by simp [gmRequests, addAccesses], fun _ => rfl⟩
  | cons g groups ih =>
    obtain ⟨c1, hone, hfirst⟩ := pushGm_adds s (t := t) (r := gmRequest code w a c group g t.serial) rfl
    obtain ⟨cs, hall, hrest⟩ := ih (addAccesses [gmRequest code w a c group g t.serial] c1 t)
    refine ⟨cs, ?_, fun h => (hrest h).trans (hfirst h)⟩
    rw [List.foldl_cons, hone, hall, addAccesses_cons]
    rfl

/-! ## The triggers (R233-R241, R243) -/

/-- The operand ports of a trigger of gm. -/
def gmPorts (code : Nat) : List Nat := if code ∈ [15, 21] then [0, 1] else if code ∈ [9, 11, 13, 14, 16, 20] then [0] else []

/-- The operand that lists the lanes of a gath or a scat. -/
def gmIndexAt (code : Nat) : Nat := if code = 21 then 1 else 0

/-- The stores and fred, which have no result. -/
def gmPosted (code : Nat) : Bool := decide (code ∈ [9, 11, 13, 16, 21])

/-- A trigger of gm is an access with its code and ports. -/
theorem fireOf_gmQueued {i : Instr} {code : Nat} (h : gmQueued i = some code) : fireOf i = some (fireAccess code (gmPorts code) (gmIndexAt code)) := by
  cases i <;> cases h <;> rfl

/-- The translated lanes of a trigger: all but the stores read, all but the loads write. -/
def gmLanesOf (code : Nat) (targets : List (Nat × Nat)) (s : State) : Res (List (Nat × Nat) × State) :=
  gmLanes code 1 (decide (code ∉ [9, 11, 13, 21])) (decide (code ∉ [8, 10, 12, 20])) targets s

/-- The elements written to each write stream of a tile, which a fence waits for. -/
def writtenMarks (t : Tile) : List (Nat × Nat) := (t.streams.filter fun e => e.2.write).map fun e => (e.1, e.2.moved)

/-- The tile `t` once the accesses of a trigger are in flight, with a place for its result where it has one. -/
def joinGm (code : Nat) (w : Word) (a c : Vec) (s : State) (groups : List (List (Nat × Nat))) (t : Tile) : Tile :=
  let u := groups.foldl (fun u lanes => pushGm s u (gmRequest code w a c t.serial lanes u.serial)) t
  if gmPosted code then u else awaitResult u 13 t.serial

section Access
variable {code : Nat} {x : Src} {s : State} {v : Vec} {t0 t : Tile} {ops : List Vec} (htakes : Takes t0 13 code x (gmPorts code) ops t)
include htakes

/-- A reserved value is an illegal encoding. -/
theorem fireAccess_illegal (hbad : gmIllegal code (vecWord v) = true) :
    fireAccess code (gmPorts code) (gmIndexAt code) 1 x.hold v (withTile s t0) = .fault (mkFault 1 13 code 1 0) := by
  unfold Takes at htakes
  simp only [fireAccess, htakes, Res.bind, hbad, if_true]

variable (hgood : gmIllegal code (vecWord v) = false)
include hgood

/-- An address that breaks the alignment of its operation is a misaligned access. -/
theorem fireAccess_misaligned {a : Nat} (ha : gmMisaligned code (vecWord v) (gmTargets code (vecWord v) (opAt ops (gmIndexAt code))) = some a) :
    fireAccess code (gmPorts code) (gmIndexAt code) 1 x.hold v (withTile s t0) =
      .fault { mkFault 16 13 code 1 (a % 2 ^ 32) with addr := BitVec.ofNat 64 a } := by
  unfold Takes at htakes
  simp only [fireAccess, htakes, Res.bind, hgood, ha, if_false, Bool.false_eq_true]

variable (haligned : gmMisaligned code (vecWord v) (gmTargets code (vecWord v) (opAt ops (gmIndexAt code))) = none)
include haligned

/-- Without room among the 64 in flight the trigger waits. -/
theorem fireAccess_full (hfence : code ≠ 19) (hfull : 64 < (t0.gm.filter fun e => !e.isFence).length +
      (laneGroups code (gmTargets code (vecWord v) (opAt ops (gmIndexAt code)))).length) :
    fireAccess code (gmPorts code) (gmIndexAt code) 1 x.hold v (withTile s t0) = .freeze := by
  unfold Takes at htakes
  simp only [fireAccess, htakes, Res.bind, hgood, haligned, if_false, Bool.false_eq_true, if_pos (And.intro hfence hfull)]

/-- With room it is what the translation of its lanes comes to, whose accesses then join those in flight. -/
theorem fireAccess_lanes (hroom : code = 19 ∨ (t0.gm.filter fun e => !e.isFence).length +
      (laneGroups code (gmTargets code (vecWord v) (opAt ops (gmIndexAt code)))).length ≤ 64)
    (haccepts : Room t0 13 code (if gmPosted code then [] else [0])) :
    fireAccess code (gmPorts code) (gmIndexAt code) 1 x.hold v (withTile s t0) =
      (gmLanesOf code (gmTargets code (vecWord v) (opAt ops (gmIndexAt code))) (withTile s t)).bind fun q =>
        .ok (withTile q.2 (joinGm code (vecWord v) (opAt ops 0) (opAt ops 1) (withTile s t0) (laneGroups code (if code = 19 then writtenMarks t0 else q.1)) q.2.cur)) := by
  have hposted : (code == 9 || code == 11 || code == 13 || code == 16 || code == 21) = gmPosted code := by
    rw [Bool.eq_iff_iff]; simp [gmPosted, or_assoc]
  have hreads : (!(code == 9 || code == 11 || code == 13 || code == 21)) = decide (code ∉ [9, 11, 13, 21]) := by
    rw [Bool.eq_iff_iff]; simp [and_assoc]
  have hwrites : (!(code == 8 || code == 10 || code == 12 || code == 20)) = decide (code ∉ [8, 10, 12, 20]) := by
    rw [Bool.eq_iff_iff]; simp [and_assoc]
  have hfree : ¬ (code ≠ 19 ∧ 64 < (t0.gm.filter fun e => !e.isFence).length +
      (laneGroups code (gmTargets code (vecWord v) (opAt ops (gmIndexAt code)))).length) := by omega
  unfold Takes at htakes
  unfold Room at haccepts
  simp only [fireAccess, htakes, Res.bind, hgood, haligned, hfree, hposted, hreads, hwrites, haccepts, if_false, Bool.false_eq_true]
  rfl

end Access

section Join
variable (code : Nat) (w : Word) (a c : Vec) (s : State) (groups : List (List (Nat × Nat))) (t : Tile)

/-- The accesses of a trigger join those of the tile that its lanes were translated on, and leave all else but its sockets. -/
theorem joinGm_adds : ∃ cs ks, joinGm code w a c s groups t = { addAccesses (gmRequests code w a c t.serial groups t.serial) cs t with socks := ks } ∧
    (bit t.csr.status 7 = false → cs = t.checked) := by
  obtain ⟨cs, hall, hsame⟩ := foldl_pushGm_adds code w a c t.serial s groups t
  unfold joinGm
  dsimp only
  rw [hall]
  split <;> exact ⟨cs, _, rfl, hsame⟩

/-- A trigger keeps a place on y0 unless it is a store or a fred. -/
theorem fifo_joinGm (k y : Nat) : (portOf (sockOf (joinGm code w a c s groups t) k) y).fifo = (portOf (sockOf t k) y).fifo ++
    if gmPosted code = false ∧ k = 13 ∧ y = 0 then [{ due := .waits t.serial, val := 0, narrowed := none }] else [] := by
  obtain ⟨cs, hall, -⟩ := foldl_pushGm_adds code w a c t.serial s groups t
  unfold joinGm
  dsimp only
  rw [hall]
  cases gmPosted code
  · simp only [Bool.false_eq_true, if_false, true_and]
    exact fifo_awaitOn _ 13 0 t.serial k y
  · simp only [if_true, Bool.true_eq_false, false_and, if_false, List.append_nil]
    rfl

variable (group serial : Nat)

/-- The requests carry the groups of lanes, in order. -/
theorem gmRequests_lanes : (gmRequests code w a c group groups serial).map GmReq.lanes = groups := by
  simp [gmRequests, gmRequest, Function.comp_def]

variable {code w a c group groups serial}

/-- Each request is the access of a group of lanes. -/
theorem getElem_gmRequests {n : Nat} {r : GmReq} (h : (gmRequests code w a c group groups serial)[n]? = some r) :
    ∃ lanes, r = gmRequest code w a c group lanes (serial + n) := by
  simp only [gmRequests, List.getElem?_map, List.getElem?_zipIdx, Option.map_map, Option.map_eq_some_iff] at h
  obtain ⟨lanes, -, rfl⟩ := h
  exact ⟨lanes, rfl⟩

end Join

/-- Settles O36: a trigger by its checks, then by what the translation of its lanes comes to. -/
theorem globalTriggers : Obligations.GlobalTriggers := by
  intro i g x code s v t0 ops t hf hcode htakes w targets posted needs lanesAt
  have hexec := exec_fireOf (s := s) hf.isMove (fireOf_gmQueued hcode)
  refine ⟨fun hgood haligned hroom haccepts => ?accesses, fun hbad => hexec.trans (runMove_fault hf (fireAccess_illegal htakes hbad)),
    fun hgood a ha => hexec.trans (runMove_fault hf (fireAccess_misaligned htakes hgood ha)),
    fun hgood haligned hfence hfull => hexec.trans (runMove_freeze hf (fireAccess_full htakes hgood haligned hfence hfull))⟩
  have hfire : fireAccess code (gmPorts code) (gmIndexAt code) 1 x.hold v (withTile s t0) = lanesAt.bind fun q =>
      .ok (withTile q.2 (joinGm code w (opAt ops 0) (opAt ops 1) (withTile s t0) (laneGroups code (if code = 19 then writtenMarks t0 else q.1)) q.2.cur)) :=
    fireAccess_lanes htakes hgood haligned hroom haccepts
  refine ⟨fun lanes s1 hlanes => ?joins, fun f hlanes => ?faults, fun hlanes => ?freezes⟩
  case faults => exact hexec.trans (runMove_fault hf (by rw [hfire, hlanes]; rfl))
  case freezes => exact hexec.trans (runMove_freeze hf (by rw [hfire, hlanes]; rfl))
  case joins =>
    obtain ⟨⟨walk, htile⟩, hmem, hcells, hpeers⟩ := gmLanes_caches hlanes
    have hrest : AtRest t := takeOperands_rest htakes (Fires_rest hf)
    obtain ⟨cs, ks, hframe, hchecked⟩ := joinGm_adds code w (opAt ops 0) (opAt ops 1) (withTile s t0)
      (laneGroups code (if code = 19 then writtenMarks t0 else lanes)) s1.cur
    rw [hlanes] at hfire
    refine ⟨_, gmRequests code w (opAt ops 0) (opAt ops 1) s1.cur.serial (laneGroups code (if code = 19 then writtenMarks t0 else lanes)) s1.cur.serial,
      hexec.trans (runMove_ok hf hfire (AtRest_of_ctl hrest (by rw [hframe, addAccesses, htile]))), by rw [hframe]; rfl, gmRequests_lanes .., fun n r hr => ?_,
      fun k y => ?_, by rw [hframe]; rfl, fun h => ?_, by rw [hframe, addAccesses, htile], by rw [hframe, addAccesses, htile],
      by rw [hframe, addAccesses, htile], hmem, hcells, hpeers⟩
    · obtain ⟨lanes, rfl⟩ := getElem_gmRequests hr
      exact ⟨rfl, rfl, rfl, rfl, rfl, rfl, rfl, rfl, rfl⟩
    · exact fifo_joinGm code w (opAt ops 0) (opAt ops 1) (withTile s t0) _ s1.cur k y
    · rw [hframe]
      exact hchecked (by rw [htile]; exact h)

end Sys2Proof.Machine
end

section
/-!
PROOF. The timebase, the islands and the package (R221, R373, R374, R381, R385, R388): what each of their events leaves.
-/
namespace Sys2Proof.Machine
open Sys2Proof.Machine.Claims

/-! ## Timebases (R373, R381) -/

/-- The timebase of each of the first n cisterns changed by a function. -/
def stepCisterns (f : Word → Word) (n : Nat) (t : Tab Word) : Tab Word := (List.range n).foldl (fun t c => tset 0 t c (f (tget 0 t c))) t

/-- Each of those cisterns takes the function of its value, the others keep theirs. -/
theorem tget_stepCisterns (f : Word → Word) (n : Nat) (t : Tab Word) (k : Nat) :
    tget 0 (stepCisterns f n t) k = if k < n then f (tget 0 t k) else tget 0 t k := by
  induction n generalizing k with
  | zero => rfl
  | succ n ih =>
    have hstep : stepCisterns f (n + 1) t = tset 0 (stepCisterns f n t) n (f (tget 0 (stepCisterns f n t) n)) := by
      simp [stepCisterns, List.range_succ]
    rw [hstep, tget_tset]
    by_cases hk : k = n
    · rw [if_pos hk, ih n, hk, if_neg (Nat.lt_irrefl n), if_pos (Nat.lt_succ_self n)]
    · have hlt : k < n + 1 ↔ k < n := by omega
      simp only [hk, hlt, ih k, if_false]

/-- A tick raises the timebase of every cistern by one. -/
theorem cisternTsc_tick (s : State) (c : Nat) : cisternTsc (tick s) c = if c < 12 then cisternTsc s c + 1 else cisternTsc s c := by
  have htick : (tick s).dev.cisternTsc = stepCisterns (fun w => w + 1) 12 s.dev.cisternTsc := by simp only [tick, stepCisterns]
  rw [cisternTsc, htick]
  exact tget_stepCisterns (fun w => w + 1) 12 s.dev.cisternTsc c

/-- An align raises the timebase of every cistern to its value. -/
theorem cisternTsc_alignTo (time : Word) (s : State) {c : Nat} (hc : c < 12) :
    cisternTsc (alignTo time s) c = if (cisternTsc s c).toNat < time.toNat then time else cisternTsc s c :=
  (tget_stepCisterns (fun w => if w.toNat < time.toNat then time else w) 12 s.dev.cisternTsc c).trans (if_pos hc)

/-! ## The patrol scrub (R221) -/

section Scrub
variable {s : State} {a : Nat} (hown : ownAddr s a = true) (hok : addrStatus s a = 0)
include hown hok

/-- A sound word is left as it is. -/
theorem scrub_clean : scrub a .clean s = s := by simp [scrub, hown, hok]

/-- A corrected word is counted. -/
theorem scrub_correctable : scrub a .correctable s =
    onErrors s (16 + cisField a) fun e => { e with correctable := sat32 e.correctable } := by simp [scrub, hown, hok]

/-- A word that is poisoned already stays so. -/
theorem scrub_poisoned (hpoison : a / 32 ∈ s.dev.poison) : scrub a .uncorrectable s = s := by simp [scrub, hown, hok, hpoison]

/-- Any other word is poisoned, counted and logged where the log has room. -/
theorem scrub_uncorrectable (hsound : a / 32 ∉ s.dev.poison)
    (hroom : (tget Errors.reset s.dev.errors (16 + cisField a)).log.length < 256) : scrub a .uncorrectable s =
      onErrors { s with dev := { s.dev with poison := a / 32 :: s.dev.poison } } (16 + cisField a) fun r =>
        { r with uncorrectable := sat32 r.uncorrectable,
                 log := r.log ++ [{ addr := BitVec.ofNat 64 (a / 32 * 32), ctx := 0, pos := 0xFFFF, kind := 1,
                                    time := cisternTsc s (cisField a), st := 3 }] } := by
  have hshort : ¬ 256 ≤ (tget Errors.reset s.dev.errors (16 + cisField a)).log.length := by omega
  simp [scrub, hown, hok, hsound, onErrors, hshort, cisternTsc]

end Scrub

/-! ## Islands (R374, R388) -/

section Islands
variable {s : State} {k : Nat} (hk : islandExists s k = true)
include hk

/-- A sample is the gauge's slack, counted as a near miss and kept as the least where it is one. -/
theorem sampleGauge_island (slack : BitVec 8) : let x := islandOf s k
    sampleGauge k slack s = putIsland k
      { x with slack := slack, least := if slack.toNat < x.least.toNat then slack else x.least,
               near := if slack.toNat < Config.guardSlack then sat32 x.near else x.near } s := by
  simp [sampleGauge, hk]

/-- A raise is one step of the voltage. -/
theorem raiseVoltage_island : raiseVoltage k s = putIsland k { islandOf s k with volts := (islandOf s k).volts + 1 } s := by
  simp [raiseVoltage, hk]

end Islands

/-- An island one step of 100 MHz down, as far as its counter goes. -/
def slowIsland (s : State) (j : Nat) : State :=
  putIsland j { islandOf s j with steps := if (islandOf s j).steps = 255 then 255 else (islandOf s j).steps + 1 } s

/-- Steps of islands leave the headworks. -/
theorem foldl_slowIsland_hw (js : List Nat) (s : State) : (js.foldl slowIsland s).dev.hw = s.dev.hw := by
  induction js generalizing s with
  | nil => rfl
  | cons j js ih => exact ih (slowIsland s j)

/-- Where no node runs a frequency step is that of the islands of the step group. -/
theorem stepDown_unused {s : State} {k : Nat} (hk : islandExists s k = true) (hnodes : s.dev.hw.nodes = []) :
    stepDown k s = (stepGroup k).foldl slowIsland s := by
  have hdown : stepDown k s = (((stepGroup k).foldl slowIsland s).dev.hw.ctxs.filter fun c =>
      ((stepGroup k).foldl slowIsland s).dev.hw.nodes.any fun n => n.ref.ctx == c.num && affectedBy k n).foldl
        (fun u c => deviceEvent c.num 2 (baseClock k - 100 * (islandOf ((stepGroup k).foldl slowIsland s) k).steps.toNat) u)
        ((stepGroup k).foldl slowIsland s) := by
    simp only [stepDown, hk]
    rfl
  rw [hdown, foldl_slowIsland_hw, hnodes]
  simp

/-! ## Package reset (R385, R386) -/

/-- The cisterns that run after a package reset: those fitted whose image passes the checks. -/
theorem mem_cisterns_resetPackage (s : State) (c : Nat) :
    c ∈ (resetPackage s).dev.cisterns ↔ c < 12 ∧ (s.dev.variantH = true → c < 8) ∧ imageRuns s (16 + c) = true := by
  have h : (resetPackage s).dev.cisterns = ((List.range 12).filter fun c => !s.dev.variantH || decide (c < 8)).filter fun c => imageRuns s (16 + c) := rfl
  rw [h, List.mem_filter, List.mem_filter, List.mem_range, and_assoc]
  cases s.dev.variantH <;> simp

/-- Cistern 0 does the boot where it runs, else cistern 1. -/
theorem active_resetPackage (s : State) : (resetPackage s).dev.hw.active =
    if imageRuns s 16 = true then some 0 else if imageRuns s 17 = true then some 1 else none := by
  have h : (resetPackage s).dev.hw.active = if 0 ∈ (resetPackage s).dev.cisterns then some 0 else if 1 ∈ (resetPackage s).dev.cisterns then some 1 else none := rfl
  rw [h]
  simp [mem_cisterns_resetPackage]

/-- The device falls back where cistern 1 does the boot. -/
theorem fallback_resetPackage (s : State) : (resetPackage s).dev.fallback = ((resetPackage s).dev.hw.active == some 1) := rfl

/-- Each die is booted. -/
theorem dies_resetPackage (s : State) (d : Nat) : (resetPackage s).dev.dies[d]? = (s.dev.dies[d]?).map (bootDie s d) := by
  have h : (resetPackage s).dev.dies = s.dev.dies.zipIdx.map (fun q => bootDie s q.2 q.1) := rfl
  rw [h, List.getElem?_map, List.getElem?_zipIdx, Option.map_map]
  simp [Function.comp_def]

/-- A die is in service where its image runs, an M die of an SG9-H never. -/
theorem bootDie_service (s : State) (d : Nat) (x : Die) :
    (bootDie s d x).service = true ↔ imageRuns s d = true ∧ (x.m && s.dev.variantH) = false := by
  have h : (bootDie s d x).service = (imageRuns s d && !(x.m && s.dev.variantH)) := rfl
  rw [h, Bool.and_eq_true, Bool.not_eq_true']

/-- Settles O57: each event by the lemma about its function. -/
theorem islandAndPackageEvents : Obligations.IslandAndPackageEvents := by
  refine ⟨fun s => ⟨tick s, rfl, rfl, rfl, rfl, fun d => List.getElem?_map .., cisternTsc_tick s⟩,
    fun time s => ⟨alignTo time s, rfl, rfl, rfl, rfl, fun d => List.getElem?_map .., fun c hc => cisternTsc_alignTo time s hc⟩,
    fun a s hown hok => ?scrub, fun k s hk => ?island, fun i n s => rfl, fun s => ?reset⟩
  case scrub =>
    exact ⟨congrArg _ (scrub_clean hown hok), congrArg _ (scrub_correctable hown hok), fun hp => congrArg _ (scrub_poisoned hown hok hp),
      fun hp hroom => congrArg _ (scrub_uncorrectable hown hok hp hroom)⟩
  case island =>
    exact ⟨fun slack => congrArg _ (sampleGauge_island hk slack), congrArg _ (raiseVoltage_island hk),
      fun hnodes => congrArg _ (stepDown_unused hk hnodes)⟩
  case reset =>
    refine ⟨resetPackage s, rfl, rfl, rfl, rfl, rfl, rfl, rfl, rfl, rfl, rfl, rfl, rfl, mem_cisterns_resetPackage s, fun d x hx => ?die, ?active⟩
    case die => exact ⟨bootDie s d x, by rw [dies_resetPackage, hx, Option.map_some], rfl, rfl, rfl, bootDie_service s d x⟩
    case active =>
      rw [fallback_resetPackage, active_resetPackage]
      exact ⟨fun h => by simp [h], fun h0 h1 => by simp [h0, h1], fun h0 h1 => by simp [h0, h1]⟩

end Sys2Proof.Machine
end

section
/-!
PROOF. The commands (R220, R271, R286, R308, R309, R383, R385): when a command of a page acts, and what each of them leaves.
-/
namespace Sys2Proof.Machine
open Sys2Proof.Machine.Claims

/-! ## The turn of a command (R383) -/

section Take
variable {s : State} {a page op : Nat} {tag : BitVec 56} {args : List Word} (act : State → State) (hactive : s.dev.hw.active = some a)
include hactive

/-- A command that comes alone to an empty page acts at once. -/
theorem takeCommand_alone (hempty : commandsOf s page = []) :
    takeCommand page op tag args act s = act (if page = 0 then syncReply s else s) := by
  simp [takeCommand, hempty, hactive]

/-- The page's queue and order without its head. -/
def dropCommand (page : Nat) (rest : List (Word × List Word)) (s : State) : State :=
  popOrder page { s with dev := { s.dev with window := { s.dev.window with cmds := tset [] s.dev.window.cmds page rest } } }

/-- A command at the head of its page leaves the queue and acts, where no older kick stands before it. -/
theorem takeCommand_head {w : Word} {rest : List (Word × List Word)} (hhead : commandsOf s page = (w, args) :: rest)
    (hop : fld w 56 8 = op) (htag : w.setWidth 56 = tag) (hnext : nextIs s page true = false) :
    takeCommand page op tag args act s = act (if page = 0 then syncReply (dropCommand page rest s) else dropCommand page rest s) := by
  simp [takeCommand, hhead, hactive, hop, htag, hnext, dropCommand]

end Take

/-- An event that is the taking of a command acts in its turn. -/
theorem acts_of_takeCommand {i : Instr} {page op : Nat} {tag : BitVec 56} {args : List Word} {f : State → State}
    (h : ∀ s, exec i s = .next (takeCommand page op tag args f s)) : Acts i page op tag args f := by
  refine fun s a hactive => ⟨fun hempty => ?alone, fun w rest hhead hop htag hnext => ?head⟩
  case alone => rw [h, takeCommand_alone f hactive hempty]
  case head => exact (h s).trans (congrArg _ (takeCommand_head f hactive hhead hop htag hnext))

/-! ## Device commands (R383, R385) -/

section Create
variable {root key tokens cA cD eA eD : Word} {tag : BitVec 56} {u : State}

/-- A ring that is not legal is refused. -/
theorem createContext_refused (h : ringLegal u cA cD = false ∨ ringLegal u eA eD = false) :
    createContext root key tokens cA cD eA eD tag u = commandRefused 0 1 2 tag u :=
  if_pos (by rcases h with h | h <;> simp [h])

/-- With legal rings a new context has the lowest free number and empty rings. -/
theorem createContext_made {n : Nat} (hdone : ringLegal u cA cD = true) (hevents : ringLegal u eA eD = true)
    (hfree : ((List.range 4095).map Nat.succ).find? (fun n => (ctxOf u n).isNone) = some n) (hfirst : u.dev.fallback = false) :
    createContext root key tokens cA cD eA eD tag u = commandDone 0 1 n tag (onHw (fun h => { h with ctxs := h.ctxs ++
      [{ num := n, root := root, key := key, tokens := tokens.toNat, done := { Ring.reset with addr := cA, depth := cD.toNat },
         events := { Ring.reset with addr := eA, depth := eD.toNat }, kicks := [], graphs := [] }] })
      (memStore (memStore u cA.toNat (leBytes 8 0)) eA.toNat (leBytes 8 0))) := by
  simp only [createContext, hdone, hevents, hfree]
  simp [hfirst]

end Create

/-- The report signs the nonce word by word. -/
theorem attest_words (n0 n1 n2 n3 buf : Word) (tag : BitVec 56) (u : State) : attest n0 n1 n2 n3 buf tag u =
    let body := attested (leBytes 8 n0.toNat ++ leBytes 8 n1.toNat ++ leBytes 8 n2.toNat ++ leBytes 8 n3.toNat) u
    fillBuffer 5 buf (body ++ slice (Config.attestationSignature body) 0 2420) tag u := by
  have hnonce : [n0, n1, n2, n3].flatMap (fun n => leBytes 8 n.toNat) =
      leBytes 8 n0.toNat ++ leBytes 8 n1.toNat ++ leBytes 8 n2.toNat ++ leBytes 8 n3.toNat := by simp [List.append_assoc]
  simp only [attest, hnonce]

/-! ## Uploads (R271) -/

section Upload
variable {s : State} {h : Nat} {c : BitVec 12} {a len : Word} {tag : BitVec 56} {x : Ctx}

/-- An upload that comes alone to its context's page, and waits for no page under migration, takes place at once. -/
theorem exec_uploadGraph_alone (hactive : s.dev.hw.active = some h) (hempty : commandsOf s c.toNat = []) (hc : c ≠ 0)
    (hx : ctxOf s c.toNat = some x) (hready : uploadWaits c.toNat a len s = false) :
    exec (.uploadGraph c a len tag) s = .next (uploadGraph x a len tag s) := by
  have hpage : c.toNat ≠ 0 := fun h => hc (BitVec.eq_of_toNat_eq h)
  have htake : takeContext c.toNat 0x10 tag [a, len] (fun c => uploadGraph c a len tag) s = uploadGraph x a len tag s := by
    rw [takeContext, takeCommand_alone _ hactive hempty, if_neg hpage, hx]
  have hexec : exec (.uploadGraph c a len tag) s = .next (if uploadWaits c.toNat a len s then s
    else takeContext c.toNat 0x10 tag [a, len] (fun c => uploadGraph c a len tag) s) := rfl
  rw [hexec, hready, htake]
  rfl

variable (hlen : len ≠ 0)
include hlen

/-- An image that cannot be read is refused with cause 2. -/
theorem uploadGraph_unreadable (hread : readVa s x.num a.toNat len.toNat = some none) :
    uploadGraph x a len tag s = commandRefused x.num 0x10 2 tag s := by
  simp only [uploadGraph, if_neg hlen, hread]

variable {bs : List Byte} {n : Nat} (hread : readVa s x.num a.toNat len.toNat = some (some bs))
  (hfree : (List.range 65536).find? (fun n => x.graphs.all fun g => g.num != n) = some n)
include hread hfree

/-- One that is not a graph is refused with cause 3. -/
theorem uploadGraph_malformed (hgraph : readGraph s n bs = none) : uploadGraph x a len tag s = commandRefused x.num 0x10 3 tag s := by
  simp only [uploadGraph, if_neg hlen, hread, hfree, hgraph]

/-- A graph is stored under the lowest free number. -/
theorem uploadGraph_stored {g : Graph} (hgraph : readGraph s n bs = some g) :
    uploadGraph x a len tag s = commandDone x.num 0x10 n tag (putCtx { x with graphs := x.graphs ++ [g] } s) := by
  simp only [uploadGraph, if_neg hlen, hread, hfree, hgraph]

end Upload

/-! ## Faulted nodes (R308) -/

section Faulted
variable {x : Ctx} {entry : Word} {tag : BitVec 56} {u : State}

/-- Without a faulted node at the entry a thaw is refused. -/
theorem thawNode_none (h : ∀ n ∈ entryNodes u x.num entry, isFaulted u n = false) :
    thawNode x entry tag u = commandRefused x.num 0x12 5 tag u := by
  have hfind : (entryNodes u x.num entry).find? (isFaulted u) = none := List.find?_eq_none.mpr fun n hn => by simp [h n hn]
  simp only [thawNode, hfind]

/-- So is a drop. -/
theorem dropNode_none (h : ∀ n ∈ entryNodes u x.num entry, isFaulted u n = false) :
    dropNode x entry tag u = commandRefused x.num 0x13 5 tag u := by
  have hfind : (entryNodes u x.num entry).find? (fun n => isFaulted u n && !n.parts.isEmpty) = none :=
    List.find?_eq_none.mpr fun n hn => by simp [h n hn]
  simp only [dropNode, hfind]

variable {n : Node} {ns : List Node} (hentry : entryNodes u x.num entry = n :: ns) (hfaulted : isFaulted u n = true)
include hentry hfaulted

/-- A thaw hands the entries out again and discards the node. -/
theorem thawNode_faulted : thawNode x entry tag u = commandDone x.num 0x12 0 tag
    (discardNode n (onHw (fun h => { h with frozenQ := h.frozenQ.filter fun q => decide (q ≠ (x.num, n.cls, n.prio)) }) u)) := by
  simp only [thawNode, hentry, List.find?_cons, hfaulted]

/-- A drop discards a node that stands on tiles, and leaves the entries frozen. -/
theorem dropNode_faulted (hparts : n.parts ≠ []) : dropNode x entry tag u = commandDone x.num 0x13 0 tag (discardNode n u) := by
  simp [dropNode, hentry, hfaulted, hparts]

end Faulted

/-! ## Answers to parked items (R309) -/

/-- The opcode of an answer. -/
def answerOp (resolve : Bool) : Nat := if resolve then 0x14 else 0x15

/-- What an answer of the context `x` does about an item of the tile `i` of the node `n`, or nothing where no such item is parked. -/
def answerAt (resolve : Bool) (x : Ctx) (n : Node) (i : TileId) (item : Word) (u : State) : Option State :=
  let mine := recordCtx u (tileAt u i) n == x.num
  if fld item 18 46 ≠ 0 then none
  else match fld item 16 2, fld item 0 16 with
    | 0, 0 => if mine then (answerTile resolve (focus i u)).map (focus u.cur.id) else none
    | 1, k => if mine then (answerCopy resolve k (focus i u)).map (focus u.cur.id) else none
    | 2, k => answerFetch resolve x n i k u
    | _, _ => none

section Answer
variable {resolve : Bool} {x : Ctx} {entry pos item : Word} {tag : BitVec 56} {u : State}

/-- An answer is done at the first of the entry's nodes where its item is parked, and refused where there is none. -/
theorem answerItem_eq : answerItem resolve x entry pos item tag u =
    ((entryNodes u x.num entry).findSome? fun n => (answeredTile n pos).bind fun i => answerAt resolve x n i item u).elim
      (commandRefused x.num (answerOp resolve) 5 tag u) (commandDone x.num (answerOp resolve) 0 tag) := by
  have h (o : Option State) : (match o with
      | some v => commandDone x.num (answerOp resolve) 0 tag v
      | none => commandRefused x.num (answerOp resolve) 5 tag u) =
        o.elim (commandRefused x.num (answerOp resolve) 5 tag u) (commandDone x.num (answerOp resolve) 0 tag) := by cases o <;> rfl
  exact h _

/-- An answer that names no tile of the entry's nodes is refused. -/
theorem answerItem_none (h : ∀ n ∈ entryNodes u x.num entry, answeredTile n pos = none) :
    answerItem resolve x entry pos item tag u = commandRefused x.num (answerOp resolve) 5 tag u := by
  have hhit : (entryNodes u x.num entry).findSome? (fun n => (answeredTile n pos).bind fun i => answerAt resolve x n i item u) = none :=
    List.findSome?_eq_none_iff.mpr fun n hn => by rw [h n hn, Option.bind_none]
  rw [answerItem_eq, hhit, Option.elim_none]

variable {n : Node} {ns : List Node} {i : TileId} (hentry : entryNodes u x.num entry = n :: ns) (htile : answeredTile n pos = some i)
include hentry htile

/-- An answer to an item that is parked at the tile it names is done. -/
theorem answerItem_done {v : State} (h : answerAt resolve x n i item u = some v) :
    answerItem resolve x entry pos item tag u = commandDone x.num (answerOp resolve) 0 tag v := by
  rw [answerItem_eq, hentry, List.findSome?_cons, htile, Option.bind_some, h, Option.elim_some]

/-- Both answers to such an item, with what each leaves. -/
theorem answerItem_both {v w : State} (hresolved : answerAt true x n i item u = some v) (habandoned : answerAt false x n i item u = some w) :
    answerItem true x entry pos item tag u = commandDone x.num 0x14 0 tag v ∧
      answerItem false x entry pos item tag u = commandDone x.num 0x15 0 tag w :=
  ⟨answerItem_done hentry htile hresolved, answerItem_done hentry htile habandoned⟩

end Answer

/-- The item word names the number k of a kind: 0 the tile, 1 a copy, 2 a fetch. -/
structure NamesItem (item : Word) (kind k : Nat) : Prop where
  rest : fld item 18 46 = 0
  kind : fld item 16 2 = kind
  num : fld item 0 16 = k

/-- Item 0 is the tile itself. -/
theorem namesItem_zero : NamesItem 0 0 0 := ⟨by decide, by decide, by decide⟩

/-- An item word is its kind at bit 16 above its number. -/
theorem namesItem_ofNat {kind k : Nat} (hkind : kind < 4) (hk : k < 2 ^ 16) : NamesItem (BitVec.ofNat 64 (kind * 2 ^ 16 + k)) kind k := by
  have hlt : kind * 2 ^ 16 + k < 2 ^ 64 := by omega
  constructor <;> simp only [fld, bitsOf_eq, BitVec.toNat_ofNat, Nat.mod_eq_of_lt hlt] <;> omega

section Items
variable {resolve : Bool} {x : Ctx} {u : State} {n : Node} {i : TileId} {item : Word} {k : Nat}

/-- An item of kind 2 is a fetch. -/
theorem answerAt_fetch (hitem : NamesItem item 2 k) : answerAt resolve x n i item u = answerFetch resolve x n i k u := by
  simp [answerAt, hitem.rest, hitem.kind, hitem.num]

variable (hmine : recordCtx u (tileAt u i) n = x.num)
include hmine

/-- Item 0 is answered at the tile, where the context is the node's. -/
theorem answerAt_tile (hitem : NamesItem item 0 0) : answerAt resolve x n i item u = (answerTile resolve (focus i u)).map (focus u.cur.id) := by
  simp [answerAt, hitem.rest, hitem.kind, hitem.num, hmine]

/-- An item of kind 1 is answered there too, at the copy of its tag. -/
theorem answerAt_copy (hitem : NamesItem item 1 k) : answerAt resolve x n i item u = (answerCopy resolve k (focus i u)).map (focus u.cur.id) := by
  simp [answerAt, hitem.rest, hitem.kind, hitem.num, hmine]

end Items

section Parked
variable {s : State}

/-- A tile that waits in the trap runtime issues its bundle again, or its node faults. -/
theorem answerTile_waits {f : FaultInfo} (hrun : s.cur.run = .owner) (howner : s.cur.ctl.owner = some f) :
    answerTile true s = some (onCur returnException s) ∧
      answerTile false s = some (faultCurNode f.cause f.addr (onCur (fun t => { t with ctl := { t.ctl with owner := none } }) s)) := by
  simp [answerTile, hrun, howner]

/-- A parked copy goes on, or ends with the fault of its cause. -/
theorem answerCopy_parked {k cause : Nat} {c : Copy} (hcopy : s.cur.copies.find? (fun c => copyTag c.desc == k && c.parked.isSome) = some c)
    (hparked : c.parked = some cause) :
    answerCopy true k s = some (onCur (putCopy c.serial fun c => { c with parked := none }) s) ∧
      answerCopy false k s = some (faultCurNode cause (stopWord c c.atDst) (onCur (endCopy c.serial) s)) := by
  simp [answerCopy, hcopy, hparked]

/-- A parked fetch of a main goes on, or its node faults. -/
theorem answerFetch_parked {x : Ctx} {n : Node} {i : TileId} {h : Nat} {m : Main} {cause : Nat} {addr : Word}
    (hmain : s.dev.mains.find? (fun m => decide (m.node = n.ref) && m.parked.isSome &&
      (if h = 0 then !m.bound && m.owner == x.num && stageTile s m 0 == some i else m.bound && m.ctx == x.num && m.handle == h)) = some m)
    (hparked : m.parked = some (cause, addr)) :
    answerFetch true x n i h s = some (putMain { m with parked := none } s) ∧
      answerFetch false x n i h s = some (onTile i (faultCurNode cause addr) (putMain { m with parked := none } s)) := by
  simp only [answerFetch, hmain, hparked]
  exact ⟨rfl, rfl⟩

end Parked

/-- Settles O60: each command by its turn, and its effect by the lemma about its function. -/
theorem commandEffects : Obligations.CommandEffects := by
  intro tag
  refine ⟨fun root key tokens cA cD eA eD => ⟨acts_of_takeCommand fun s => rfl, fun u => ⟨createContext_refused, fun n => createContext_made⟩⟩,
    fun c => ⟨acts_of_takeCommand fun s => rfl, fun u h => ?destroy⟩, fun v => acts_of_takeCommand fun s => rfl,
    fun sel buf => acts_of_takeCommand fun s => rfl, fun n0 n1 n2 n3 buf => acts_of_takeCommand fun s => ?attest,
    fun c => ⟨fun va len => acts_of_takeCommand fun s => rfl, fun a len s h x hactive hempty hc hx hnum hready hlen => ?upload,
      fun entry => ⟨⟨acts_of_takeCommand fun s => rfl, acts_of_takeCommand fun s => rfl, fun x u => ⟨fun hnone => ?noFault, fun n ns hentry hf => ?faulted⟩⟩,
        fun pos item => ⟨acts_of_takeCommand fun s => rfl, acts_of_takeCommand fun s => rfl, fun x u => ⟨fun hnone => ?noTile, fun n ns i hentry htile => ?answer⟩⟩⟩⟩⟩
  case destroy => simp only [destroyContext, h]
  case attest => simp only [← attest_words]; rfl
  case upload =>
    rw [exec_uploadGraph_alone hactive hempty hc hx hready, ← hnum]
    exact ⟨fun hread => congrArg _ (uploadGraph_unreadable hlen hread), fun bs n hread hfree =>
      ⟨fun hgraph => congrArg _ (uploadGraph_malformed hlen hread hfree hgraph), fun g hgraph => congrArg _ (uploadGraph_stored hlen hread hfree hgraph)⟩⟩
  case noFault => exact ⟨thawNode_none hnone, dropNode_none hnone⟩
  case faulted => exact ⟨thawNode_faulted hentry hf, dropNode_faulted hentry hf⟩
  case noTile => exact ⟨answerItem_none hnone, answerItem_none hnone⟩
  case answer =>
    refine ⟨fun h0 hmine f hrun howner => ?tile, fun k c cause hk hitem hmine hcopy hparked => ?copy,
      fun h m cause addr hh hitem hmain hparked => ?fetch⟩
    case tile =>
      have hname : NamesItem item 0 0 := h0 ▸ namesItem_zero
      obtain ⟨hresolved, habandoned⟩ := answerTile_waits hrun howner
      exact answerItem_both hentry htile (by rw [answerAt_tile hmine hname, hresolved, Option.map_some])
        (by rw [answerAt_tile hmine hname, habandoned, Option.map_some])
    case copy =>
      have hname : NamesItem item 1 k := by simpa only [hitem, Nat.one_mul] using namesItem_ofNat (kind := 1) (by omega) hk
      obtain ⟨hresolved, habandoned⟩ := answerCopy_parked hcopy hparked
      exact answerItem_both hentry htile (by rw [answerAt_copy hmine hname, hresolved, Option.map_some])
        (by rw [answerAt_copy hmine hname, habandoned, Option.map_some])
    case fetch =>
      have hname : NamesItem item 2 h := hitem ▸ namesItem_ofNat (by omega) hh
      obtain ⟨hresolved, habandoned⟩ := answerFetch_parked hmain hparked
      exact answerItem_both hentry htile ((answerAt_fetch hname).trans hresolved) ((answerAt_fetch hname).trans habandoned)

end Sys2Proof.Machine
end

section
/-!
PROOF. The handle accesses of lw0 and lw1 (R224-R228): how an access joins the queue of its socket, and what an element access, a list access and a
state operation put there.
-/
namespace Sys2Proof.Machine
open Sys2Proof.Machine.Claims

/-! ## The queue of a socket (R226) -/

/-- The access as it stands in the queue: with the serial number it takes, and the bundle that it was issued in. -/
def stampLw (t : Tile) (a : LwAcc) : LwAcc := { a with serial := t.serial, issue := t.perf.issue }

/-- The tile once an access has joined the queue of a socket, with a place for its result where it has one. -/
def joinLw (sock : Nat) (result : Bool) (a : LwAcc) (t : Tile) : Tile :=
  let u := { t with serial := t.serial + 1, lw := tset [] t.lw sock (tget [] t.lw sock ++ [stampLw t a]) }
  if result then awaitResult u sock t.serial else u

section Join
variable (sock : Nat) (result : Bool) (a : LwAcc) (t : Tile)

/-- An access that joins changes the queues, the serial number and the sockets alone. -/
theorem joinLw_socks : ∃ ks, joinLw sock result a t =
    { t with serial := t.serial + 1, lw := tset [] t.lw sock (tget [] t.lw sock ++ [stampLw t a]), socks := ks } := by
  cases result
  · exact ⟨t.socks, rfl⟩
  · exact awaitOn_socks _ sock 0 t.serial

theorem joinLw_lw (k : Nat) : tget [] (joinLw sock result a t).lw k = if k = sock then tget [] t.lw k ++ [stampLw t a] else tget [] t.lw k := by
  obtain ⟨ks, hsocks⟩ := joinLw_socks sock result a t
  rw [hsocks, tget_tset]
  split
  · next hk => rw [hk]
  · rfl

theorem joinLw_serial : (joinLw sock result a t).serial = t.serial + 1 := by
  obtain ⟨ks, hsocks⟩ := joinLw_socks sock result a t
  rw [hsocks]

theorem joinLw_ctl : (joinLw sock result a t).ctl = t.ctl := by
  obtain ⟨ks, hsocks⟩ := joinLw_socks sock result a t
  rw [hsocks]

theorem joinLw_frame : { joinLw sock result a t with lw := t.lw, serial := t.serial, socks := t.socks } = t := by
  obtain ⟨ks, hsocks⟩ := joinLw_socks sock result a t
  rw [hsocks]

/-- An access with a result keeps a place on y0. -/
theorem fifo_joinLw (k y : Nat) : (portOf (sockOf (joinLw sock result a t) k) y).fifo = (portOf (sockOf t k) y).fifo ++
    if result ∧ k = sock ∧ y = 0 then [{ due := .waits t.serial, val := 0, narrowed := none }] else [] := by
  cases result
  · simp only [Bool.false_eq_true, false_and, if_false, List.append_nil]
    rfl
  · simp only [true_and]
    exact fifo_awaitOn _ sock 0 t.serial k y

end Join

section Queue
variable {i : Instr} {g : Guard} {x : Src} {f : Fire} {s : State} {v : Vec} {t0 t : Tile} {ops : List Vec} {sock code : Nat} {ports : List Nat}
  {result : Bool} {a : LwAcc} (hf : Fires i g x s v t0) (htakes : Takes t0 sock code x ports ops t) (hexec : exec i s = runMove i g x f s)
  (hfire : f 1 x.hold v (withTile s t0) = (lwQueue sock result a t).bind fun u => .ok (withTile s u))
include hf hexec hfire

/-- With eight accesses of the socket in flight a trigger freezes. -/
theorem freezes_lwQueue (hfull : 8 ≤ lwInFlight t sock) : Freezes i s := by
  have hqueue : lwQueue sock result a t = .freeze := if_pos hfull
  exact hexec.trans (runMove_freeze hf (by rw [hfire, hqueue]; rfl))

include htakes

/-- With fewer in flight, and room on its result port, its access joins. -/
theorem goesTo_joinLw (hfree : lwInFlight t sock < 8) (hroom : Room t sock a.code (if result then [0] else [])) :
    GoesTo i s (joinLw sock result a t) := by
  have hqueue : lwQueue sock result a t = .ok (joinLw sock result a t) := by
    unfold Room at hroom
    rw [lwQueue, if_neg (Nat.not_le.mpr hfree), hroom]
    rfl
  have hrest : AtRest t := takeOperands_rest htakes (Fires_rest hf)
  exact hexec.trans (runMove_ok hf (by rw [hfire, hqueue]; rfl) (AtRest_of_ctl hrest (joinLw_ctl sock result a t)))

end Queue

/-! ## Element accesses (R224, R225) -/

/-- The operand ports of an element access. -/
def elementPorts (code : Nat) : List Nat := if code = 8 then [] else if code = 11 then [0, 1] else [0]

/-- The operand that holds a store's data. -/
def elementDataAt (code : Nat) : Option Nat := if code = 9 ∨ code = 11 then some 0 else none

/-- The operand that holds the index of an indexed access. -/
def elementIndexAt (code : Nat) : Option Nat := if code = 10 then some 0 else if code = 11 then some 1 else none

/-- The loads among the element accesses. -/
def elementLoads (code : Nat) : Bool := decide (code = 8 ∨ code = 10)

/-- The trigger of an element access, by its code. -/
def elementFire (n : Bool) (code : Nat) : Fire :=
  fireElement n code (elementPorts code) (elementDataAt code) (elementIndexAt code) (elementLoads code)

theorem fireOf_lwElement {i : Instr} {n : Bool} {code : Nat} (h : lwElement i = some (n, code)) : fireOf i = some (elementFire n code) := by
  cases i <;> cases h <;> rfl

/-- The index that an element access adds, in units of its size. -/
def elementIndex (code : Nat) (ops : List Vec) : Nat := ((elementIndexAt code).map fun k => (vecWord (opAt ops k)).toNat).getD 0

theorem elementIndex_eq (code : Nat) (ops : List Vec) : elementIndex code ops =
    if code = 10 then (vecWord (opAt ops 0)).toNat else if code = 11 then (vecWord (opAt ops 1)).toNat else 0 := by
  unfold elementIndex elementIndexAt
  split
  · rfl
  · split <;> rfl

/-- The byte offset that an element access reaches. -/
def elementOff (code : Nat) (w : Word) (ops : List Vec) : Nat := (fld w 16 32 + elementIndex code ops * 2 ^ fld w 13 3) % 2 ^ 64

/-- An element access as it joins its queue. -/
def elementAcc (code : Nat) (w : Word) (ops : List Vec) : LwAcc :=
  { code := code, word := w, off := elementOff code w ops, data := ((elementDataAt code).map (opAt ops)).getD 0, idx := 0,
    rows := rowsOf (elementOff code w ops) (2 ^ fld w 13 3), serial := 0, slot := 1, issue := 0 }

/-- A store carries its first operand. -/
theorem elementAcc_data {code : Nat} (h : code = 9 ∨ code = 11) (w : Word) (ops : List Vec) : (elementAcc code w ops).data = opAt ops 0 := by
  simp only [elementAcc, elementDataAt, if_pos h, Option.map_some, Option.getD_some]

section Element
variable {n : Bool} {code : Nat} {x : Src} {s : State} {v : Vec} {t0 t : Tile} {ops : List Vec}
  (htakes : Takes t0 (lwSock n) code x (elementPorts code) ops t)
include htakes

/-- An aligned element access is put to its queue. -/
theorem elementFire_aligned (haligned : elementOff code (vecWord v) ops % 2 ^ fld (vecWord v) 13 3 = 0) :
    elementFire n code 1 x.hold v (withTile s t0) =
      (lwQueue (lwSock n) (elementLoads code) (elementAcc code (vecWord v) ops) t).bind fun u => .ok (withTile s u) := by
  unfold Takes at htakes
  rw [elementFire, fireElement, htakes]
  exact if_neg (not_not.mpr haligned)

/-- A misaligned one is a misaligned access at its offset. -/
theorem elementFire_misaligned (hbad : elementOff code (vecWord v) ops % 2 ^ fld (vecWord v) 13 3 ≠ 0) :
    elementFire n code 1 x.hold v (withTile s t0) =
      .fault { mkFault 16 (lwSock n) code 1 (elementOff code (vecWord v) ops % 2 ^ 32) with
        addr := handleWord (fld (vecWord v) 0 10) (fld (vecWord v) 13 3) (elementOff code (vecWord v) ops) } := by
  unfold Takes at htakes
  rw [elementFire, fireElement, htakes]
  exact if_pos hbad

end Element

/-- Settles O30: an element access by its alignment, then by the room in its queue. -/
theorem localElements : Obligations.LocalElements := by
  intro n i g x code s v t0 ops t hf hcode htakes w size index off load
  have hexec := exec_fireOf (s := s) hf.isMove (fireOf_lwElement hcode)
  have hoff : off = elementOff code w ops := by
    simp only [off, index, size, elementOff, elementIndex_eq]
  rw [hoff]
  refine ⟨fun haligned hfree hroom => ?joins, fun haligned hfull => freezes_lwQueue hf hexec (elementFire_aligned htakes haligned) hfull,
    fun hbad => hexec.trans (runMove_fault hf (elementFire_misaligned htakes hbad))⟩
  refine ⟨joinLw (lwSock n) load (elementAcc code w ops) t, stampLw t (elementAcc code w ops),
    goesTo_joinLw hf htakes hexec (elementFire_aligned htakes haligned) hfree hroom, joinLw_lw _ _ _ _, rfl, rfl, rfl,
    fun hstore => elementAcc_data hstore w ops, rfl, rfl, joinLw_serial .., fifo_joinLw _ _ _ _, joinLw_frame ..⟩

/-! ## List accesses (R227, R228) -/

/-- The operand ports of a list access. -/
def listPorts (code : Nat) : List Nat := if code = 16 then [0] else [0, 1]

/-- The operand that holds a scat's data. -/
def listDataAt (code : Nat) : Option Nat := if code = 16 then none else some 0

/-- The operand that lists the indices. -/
def listIndexAt (code : Nat) : Nat := if code = 16 then 0 else 1

/-- The trigger of a list access, by its code. -/
def listFire (n : Bool) (code : Nat) : Fire := fireList n code (listPorts code) (listDataAt code) (listIndexAt code) (decide (code = 16))

theorem fireOf_lwList {i : Instr} {n : Bool} {code : Nat} (h : lwList i = some (n, code)) : fireOf i = some (listFire n code) := by
  cases i <;> cases h <;> rfl

theorem opAt_listIndexAt (code : Nat) (ops : List Vec) : opAt ops (listIndexAt code) = if code = 16 then opAt ops 0 else opAt ops 1 := by
  unfold listIndexAt
  split <;> rfl

/-- A row behind the others, unless it is among them. -/
def addRow (rs : List Nat) (r : Nat) : List Nat := if r ∈ rs then rs else rs ++ [r]

theorem mem_addRow {rs : List Nat} {r q : Nat} : q ∈ addRow rs r ↔ q ∈ rs ∨ q = r := by
  unfold addRow
  split
  · next hr => exact ⟨Or.inl, fun h => h.elim id fun h => h ▸ hr⟩
  · rw [List.mem_append, List.mem_singleton]

theorem nodup_addRow {rs : List Nat} (h : rs.Nodup) (r : Nat) : (addRow rs r).Nodup := by
  unfold addRow
  split
  · exact h
  · next hr => exact List.nodup_append.mpr ⟨h, List.nodup_singleton r, fun a ha b hb => by rw [List.mem_singleton.mp hb]; exact fun e => hr (e ▸ ha)⟩

/-- Rows added one by one are distinct, and are those added. -/
theorem foldl_addRow (l : List Nat) {rs : List Nat} (h : rs.Nodup) :
    (l.foldl addRow rs).Nodup ∧ ∀ q, q ∈ l.foldl addRow rs ↔ q ∈ rs ∨ q ∈ l := by
  induction l generalizing rs with
  | nil => exact ⟨h, fun q => by simp⟩
  | cons r l ih =>
    obtain ⟨hdistinct, hmem⟩ := ih (nodup_addRow h r)
    exact ⟨hdistinct, fun q => by rw [List.foldl_cons, hmem, mem_addRow, List.mem_cons, or_assoc]⟩

/-- The bank rows of the lanes of a list, in the order of each row's lowest lane. -/
def laneRows (size off : Nat) (idx : Vec) : List Nat := ((listLanes size idx).map fun q => (off + q.2 * size) / 64).foldl addRow []

theorem laneRows_nodup (size off : Nat) (idx : Vec) : (laneRows size off idx).Nodup := (foldl_addRow _ List.nodup_nil).1

theorem mem_laneRows (size off : Nat) (idx : Vec) (r : Nat) :
    r ∈ laneRows size off idx ↔ ∃ q ∈ listLanes size idx, r = (off + q.2 * size) / 64 := by
  rw [laneRows, (foldl_addRow _ List.nodup_nil).2]
  simp [eq_comm]

/-- A list with lanes reaches rows. -/
theorem laneRows_ne_nil {size : Nat} {idx : Vec} (h : listLanes size idx ≠ []) (off : Nat) : laneRows size off idx ≠ [] := by
  obtain ⟨q, hq⟩ := List.exists_mem_of_ne_nil _ h
  exact List.ne_nil_of_mem ((mem_laneRows size off idx _).mpr ⟨q, hq, rfl⟩)

/-- A list access as it joins its queue: without lanes it takes the row of its base. -/
def listAcc (code : Nat) (w : Word) (ops : List Vec) : LwAcc :=
  { code := code, word := w, off := fld w 16 32, data := ((listDataAt code).map (opAt ops)).getD 0, idx := opAt ops (listIndexAt code),
    rows := if laneRows (2 ^ fld w 13 3) (fld w 16 32) (opAt ops (listIndexAt code)) = [] then [fld w 16 32 / 64]
      else laneRows (2 ^ fld w 13 3) (fld w 16 32) (opAt ops (listIndexAt code)), serial := 0, slot := 1, issue := 0 }

section List
variable {n : Bool} {code : Nat} {x : Src} {s : State} {v : Vec} {t0 t : Tile} {ops : List Vec}
  (htakes : Takes t0 (lwSock n) code x (listPorts code) ops t)
include htakes

/-- An element of more than 16 bytes is a reserved value. -/
theorem listFire_reserved (hbig : 4 < fld (vecWord v) 13 3) :
    listFire n code 1 x.hold v (withTile s t0) =
      .fault (mkFault 1 (lwSock n) code 1 0) := by
  unfold Takes at htakes
  rw [listFire, fireList, htakes]
  exact if_pos hbig

variable (hsmall : fld (vecWord v) 13 3 ≤ 4)
include hsmall

/-- A misaligned base is a misaligned access there. -/
theorem listFire_misaligned (hbad : fld (vecWord v) 16 32 % 2 ^ fld (vecWord v) 13 3 ≠ 0) :
    listFire n code 1 x.hold v (withTile s t0) =
      .fault { mkFault 16 (lwSock n) code 1 (fld (vecWord v) 16 32) with
        addr := handleWord (fld (vecWord v) 0 10) (fld (vecWord v) 13 3) (fld (vecWord v) 16 32) } := by
  unfold Takes at htakes
  rw [listFire, fireList, htakes]
  exact (if_neg (Nat.not_lt.mpr hsmall)).trans (if_pos hbad)

/-- An aligned list access is put to its queue. -/
theorem listFire_aligned (haligned : fld (vecWord v) 16 32 % 2 ^ fld (vecWord v) 13 3 = 0) :
    listFire n code 1 x.hold v (withTile s t0) =
      (lwQueue (lwSock n) (decide (code = 16)) (listAcc code (vecWord v) ops) t).bind fun u => .ok (withTile s u) := by
  unfold Takes at htakes
  rw [listFire, fireList, htakes]
  exact (if_neg (Nat.not_lt.mpr hsmall)).trans (if_neg (not_not.mpr haligned))

end List

/-! ## seal and release (R227) -/

/-- A seal or a release as it joins its queue: its handle alone. -/
def stateAcc (code : Nat) (v : Vec) : LwAcc :=
  { code := code, word := BitVec.ofNat 64 (fld v 0 10), off := 0, data := 0, idx := 0, rows := [], serial := 0, slot := 1, issue := 0 }

theorem fireOf_lwState {i : Instr} {n : Bool} {code : Nat} (h : lwState i = some (n, code)) : fireOf i = some (fireState n code) := by
  cases i <;> cases h <;> rfl

theorem stateAcc_h (code : Nat) (v : Vec) : (stateAcc code v).h = fld v 0 10 := by
  have hlt := fld_lt v 0 10
  simp only [stateAcc, LwAcc.h]
  generalize fld v 0 10 = h at hlt
  rw [fld, bitsOf, BitVec.toNat_ofNat, Nat.shiftRight_zero]
  omega

/-- Settles O31: a list access by its size, its alignment and the room in its queue; a state operation by that room. -/
theorem localLists : Obligations.LocalLists := by
  refine ⟨fun n i g x code s v t0 ops t hf hcode htakes => ?lists, fun n i g x code s v t hf hcode => ?states⟩
  case lists =>
    intro w size off idx
    have hexec := exec_fireOf (s := s) hf.isMove (fireOf_lwList hcode)
    refine ⟨fun hsmall haligned hfree hroom => ?joins, fun hsmall haligned hfull =>
        freezes_lwQueue hf hexec (listFire_aligned htakes hsmall haligned) hfull,
      fun hbig => hexec.trans (runMove_fault hf (listFire_reserved htakes hbig)),
      fun hsmall hbad => hexec.trans (runMove_fault hf (listFire_misaligned htakes hsmall hbad))⟩
    have hidx : opAt ops (listIndexAt code) = idx := opAt_listIndexAt code ops
    have houts : (if code = 16 then [0] else []) = if decide (code = 16) then [0] else [] := by simp only [decide_eq_true_eq]
    rw [houts] at hroom
    refine ⟨joinLw (lwSock n) (decide (code = 16)) (listAcc code w ops) t, stampLw t (listAcc code w ops),
      goesTo_joinLw hf htakes hexec (listFire_aligned htakes hsmall haligned) hfree hroom, joinLw_lw _ _ _ _, rfl, rfl, rfl, hidx, fun hscat => ?data, rfl,
      fun hlanes => ?rows, fun k y => ?places, joinLw_frame ..⟩
    case data => rw [hscat]; rfl
    case rows =>
      have hrows : (stampLw t (listAcc code w ops)).rows = laneRows size off idx := by
        rw [← hidx] at hlanes ⊢
        exact if_neg (laneRows_ne_nil hlanes off)
      rw [hrows]
      exact ⟨laneRows_nodup size off idx, mem_laneRows size off idx⟩
    case places =>
      have hfifo := fifo_joinLw (lwSock n) (decide (code = 16)) (listAcc code w ops) t k y
      simpa only [decide_eq_true_eq] using hfifo
  case states =>
    have hexec := exec_fireOf (s := s) hf.isMove (fireOf_lwState hcode)
    have htakes : Takes t (lwSock n) code x [] [] t := rfl
    have hfire : fireState n code 1 x.hold v (withTile s t) =
      (lwQueue (lwSock n) false (stateAcc code v) t).bind fun u => .ok (withTile s u) := rfl
    refine ⟨fun hfull => freezes_lwQueue hf hexec hfire hfull, fun hfree hroom => ?_⟩
    exact ⟨joinLw (lwSock n) false (stateAcc code v) t, stampLw t (stateAcc code v), goesTo_joinLw hf htakes hexec hfire hfree hroom, joinLw_lw _ _ _ _, rfl,
      stateAcc_h code v, rfl, rfl, rfl⟩

end Sys2Proof.Machine
end

section
/-!
PROOF. The triggers of cp (R246, R252-R254, R269): a copy staged, its state reported, its cancellation, and the translations that a prefetch brings in.
-/
namespace Sys2Proof.Machine
open Sys2Proof.Machine.Claims

/-! ## copy (R246-R249, R269) -/

/-- A copy as it is staged: nothing moved, its handles resolved, in the queue of a pump. -/
def stagedCopy (t : Tile) (d : Vec) (p : Nat) : Copy :=
  { desc := d, serial := t.serial, done := 0, bytes := 0, poi := 0, parked := none, atDst := false, src := resolveWord t (copySrc d),
    dst := resolveWord t (copyDst d), finished := false, pump := p, buf := [], put := 0, rows := none }

/-- The tile once a copy is staged, which counts as sent. -/
def stageCopy (t : Tile) (d : Vec) (p : Nat) : Tile :=
  { t with serial := t.serial + 1, copies := t.copies ++ [stagedCopy t d p], net := { t.net with sent := t.net.sent + 1 } }

/-- A tt operation before a copy holds one of the handles that its descriptor names. -/
def copyHeld (t : Tile) (d : Vec) : Bool := [copySrc d, copyDst d].any fun w => bit w 63 && ttHolds t (fld w 0 10) t.serial

theorem copyHeld_iff (t : Tile) (d : Vec) :
    copyHeld t d = true ↔ ∃ w ∈ [copySrc d, copyDst d], bit w 63 = true ∧ ttHolds t (fld w 0 10) t.serial = true := by
  simp only [copyHeld, List.any_eq_true, Bool.and_eq_true]

theorem copyHeld_false {t : Tile} {d : Vec} (h : ∀ w ∈ [copySrc d, copyDst d], bit w 63 = true → ttHolds t (fld w 0 10) t.serial = false) :
    copyHeld t d = false := by
  rw [← Bool.not_eq_true, copyHeld_iff]
  rintro ⟨w, hw, hhandle, hheld⟩
  rw [h w hw hhandle] at hheld
  cases hheld

section Copy
variable {d : Vec} {s : State} {t : Tile} (held : Bool)

/-- A reserved descriptor is an illegal encoding. -/
theorem fireCpCopy_illegal (h : copyIllegal d = true) : fireCpCopy 1 held d (withTile s t) = .fault (mkFault 1 14 8 1 0) := if_pos h

variable (hgood : copyIllegal d = false)
include hgood

/-- With 1,024 copies of the tile in flight the trigger waits. -/
theorem fireCpCopy_full (hfull : 1024 ≤ t.copies.length) : fireCpCopy 1 held d (withTile s t) = .freeze :=
  (if_neg (by simp [hgood])).trans (if_pos hfull)

variable (hfree : t.copies.length < 1024)
include hfree

/-- Behind a tt operation on its handles it waits. -/
theorem fireCpCopy_held (hheld : copyHeld t d = true) : fireCpCopy 1 held d (withTile s t) = .freeze :=
  (if_neg (by simp [hgood])).trans ((if_neg (Nat.not_le.mpr hfree)).trans (if_pos hheld))

variable (hclear : copyHeld t d = false)
include hclear

/-- Otherwise it is for a pump to take. -/
theorem fireCpCopy_choose : fireCpCopy 1 held d (withTile s t) =
    match choosePump (withTile s t) with | none => .freeze | some p => .ok (withTile s (stageCopy t d p)) := by
  unfold copyHeld at hclear
  simp only [fireCpCopy, hgood, Bool.false_eq_true, if_false, if_neg (Nat.not_le.mpr hfree), hclear]
  rfl

/-- With every pump's queue full it waits. -/
theorem fireCpCopy_noPump (hnone : choosePump (withTile s t) = none) : fireCpCopy 1 held d (withTile s t) = .freeze := by
  rw [fireCpCopy_choose held hgood hfree hclear, hnone]

/-- With room it is staged. -/
theorem fireCpCopy_stages {p : Nat} (hp : choosePump (withTile s t) = some p) :
    fireCpCopy 1 held d (withTile s t) = .ok (withTile s (stageCopy t d p)) := by
  rw [fireCpCopy_choose held hgood hfree hclear, hp]

end Copy

/-! ## cstat (R252) -/

section Report
variable {t : Tile} {b : Word}

theorem cstatValue_count (h : bit b 16 = true) : cstatValue t b = toVec t.copies.length := if_pos h

variable (hone : bit b 16 = false)
include hone

theorem cstatValue_absent (h : ∀ c ∈ t.copies, copyTag c.desc ≠ fld b 0 16) : cstatValue t b = 0 := by
  have hfind : t.copies.find? (fun c => decide (copyTag c.desc = fld b 0 16)) = none :=
    List.find?_eq_none.mpr fun c hc => by simp [h c hc]
  simp only [cstatValue, hone, Bool.false_eq_true, if_false, hfind]

theorem cstatValue_found {c : Copy} (h : t.copies.find? (fun c => decide (copyTag c.desc = fld b 0 16)) = some c) :
    cstatValue t b = toVec (c.bytes % 2 ^ 40 * 2 ^ 24 + min c.poi 255 * 2 ^ 16 + if c.parked.isSome then 2 else 1) := by
  simp only [cstatValue, hone, Bool.false_eq_true, if_false, h]

end Report

theorem fireCpCstat_sends (s : State) {t : Tile} (h : Room t 14 9 [0]) (held : Bool) (v : Vec) :
    fireCpCstat 1 held v (withTile s t) = .ok (withTile s (deliver t 14 9 0 2 (cstatValue t (vecWord v)) none)) := by
  unfold Room at h
  rw [fireCpCstat, h]
  rfl

/-! ## ccancel (R253) -/

/-- The copies of a tile with the tag that a ccancel names. -/
def taggedCopies (t : Tile) (v : Vec) : List Copy := t.copies.filter fun c => decide (copyTag c.desc = fld v 0 16)

/-- Copies ended: those with their serials leave, each counts one received message, and no other copy leaves. -/
theorem foldl_endCopy (hit : List Copy) (t : Tile) : ∃ ws, hit.foldl (fun t c => endCopy c.serial t) t =
    { t with copies := t.copies.filter fun c => decide (∀ d ∈ hit, c.serial ≠ d.serial), checked := ws,
             net := { t.net with received := t.net.received + BitVec.ofNat 48 hit.length } } := by
  induction hit generalizing t with
  | nil => exact ⟨t.checked, by simp⟩
  | cons c hit ih =>
    obtain ⟨ws, hws⟩ := ih (endCopy c.serial t)
    refine ⟨ws, hws.trans ?_⟩
    have hcopies : ((t.copies.filter fun d => decide (d.serial ≠ c.serial)).filter fun d => decide (∀ e ∈ hit, d.serial ≠ e.serial)) =
        t.copies.filter fun d => decide (∀ e ∈ c :: hit, d.serial ≠ e.serial) := by
      rw [List.filter_filter]
      refine List.filter_congr fun d _ => ?_
      rw [Bool.eq_iff_iff, Bool.and_eq_true, decide_eq_true_eq, decide_eq_true_eq, decide_eq_true_eq, List.forall_mem_cons, and_comm]
    have hreceived : t.net.received + 1 + BitVec.ofNat 48 hit.length = t.net.received + BitVec.ofNat 48 (c :: hit).length := by
      rw [List.length_cons, BitVec.add_assoc, BitVec.add_comm 1, BitVec.ofNat_add]
      rfl
    simp only [endCopy, hcopies, hreceived]

theorem fireCpCcancel_ends (s : State) {t : Tile} (h : Room t 14 10 [0]) (held : Bool) (v : Vec) : fireCpCcancel 1 held v (withTile s t) =
    .ok (withTile s (deliver ((taggedCopies t v).foldl (fun t c => endCopy c.serial t) t) 14 10 0 2 (toVec (taggedCopies t v).length) none)) := by
  unfold Room at h
  rw [fireCpCcancel, h]
  rfl

/-! ## prefetch (R254) -/

/-- A die without what its walk unit holds. -/
def Die.bare (d : Die) : Die := { d with walk := [] }

/-- All that a prefetch may change: the cache of the focused tile and the walk units of the dies. -/
def WalksOnly (s s' : State) : Prop :=
  ∃ wk ds, s' = withTile { s with dev := { s.dev with dies := ds } } { s.cur with walk := wk } ∧ ds.map Die.bare = s.dev.dies.map Die.bare

theorem WalksOnly.refl (s : State) : WalksOnly s s := ⟨s.cur.walk, s.dev.dies, rfl, rfl⟩

theorem WalksOnly.trans {s u v : State} (h : WalksOnly s u) (h' : WalksOnly u v) : WalksOnly s v := by
  obtain ⟨w, ds, rfl, hds⟩ := h
  obtain ⟨w', ds', rfl, hds'⟩ := h'
  exact ⟨w', ds', rfl, hds'.trans hds⟩

/-- A die with its walk unit written is bare the same. -/
theorem map_bare_setAt {ds : List Die} {i : Nat} {d d' : Die} (h : ds[i]? = some d) (hbare : d'.bare = d.bare) :
    (setAt ds i d').map Die.bare = ds.map Die.bare := by
  obtain ⟨hi, rfl⟩ := List.getElem?_eq_some_iff.mp h
  rw [setAt, List.map_set, hbare, ← List.map_set, List.set_getElem_self]

theorem putDie_walks {s : State} {i : Nat} {d d' : Die} (h : s.dev.dies[i]? = some d) (hbare : d'.bare = d.bare) : WalksOnly s (putDie s i d') :=
  ⟨s.cur.walk, setAt s.dev.dies i d', rfl, map_bare_setAt h hbare⟩

theorem fillUnit_walks (die ctx va : Nat) (s : State) : WalksOnly s (fillUnit die ctx va s) := by
  unfold fillUnit
  split
  · next d c hd hc => exact putDie_walks hd rfl
  · exact WalksOnly.refl s

theorem cacheLeaf_walks (s : State) (va pa : Nat) : WalksOnly s (cacheLeaf s va pa) :=
  (fillUnit_walks s.cur.id.die (ctxNum s.cur) va s).trans ⟨_, _, rfl, rfl⟩

/-- The translation of one page of a prefetch, which enters the cache where it is not held there. -/
def prefetchPage (a : Nat) (s : State) : State :=
  match translate s (ctxNum s.cur) a false false with
  | .done pa => if s.cur.walk.cached.any fun e => e.1 == a / 65536 then s else cacheLeaf s a pa
  | _ => s

theorem prefetchPage_walks (a : Nat) (s : State) : WalksOnly s (prefetchPage a s) := by
  unfold prefetchPage
  split
  · split
    · exact WalksOnly.refl s
    · exact cacheLeaf_walks ..
  · exact WalksOnly.refl s

/-- The pages of a range, one after the other. -/
def prefetchRange (va n : Nat) (s : State) : State :=
  (List.range ((va + n - 1) / 65536 - va / 65536 + 1)).foldl (fun s i => prefetchPage ((va / 65536 + i) * 65536) s) s

theorem prefetchRange_walks (va n : Nat) (s : State) : WalksOnly s (prefetchRange va n s) :=
  List.foldlRecOn (motive := WalksOnly s) _ _ (WalksOnly.refl s) fun v hv _ _ => hv.trans (prefetchPage_walks _ v)

section Prefetch
variable {x : Src} {s : State} {v : Vec} {t t1 : Tile} {ops : List Vec} (htakes : Takes t 14 11 x [0] ops t1)
include htakes

/-- A length of 0 or of more than 2^20 bytes is a reserved value. -/
theorem fireCpPrefetch_reserved (h : fld (opAt ops 0) 0 64 < 1 ∨ 2 ^ 20 < fld (opAt ops 0) 0 64) :
    fireCpPrefetch 1 x.hold v (withTile s t) = .fault (mkFault 1 14 11 1 0) := by
  unfold Takes at htakes
  rw [fireCpPrefetch, htakes]
  exact if_pos h

/-- Any other range is translated page by page. -/
theorem fireCpPrefetch_fills (h : ¬ (fld (opAt ops 0) 0 64 < 1 ∨ 2 ^ 20 < fld (opAt ops 0) 0 64)) :
    fireCpPrefetch 1 x.hold v (withTile s t) = .ok (prefetchRange (fld v 0 48) (fld (opAt ops 0) 0 64) (withTile s t1)) := by
  unfold Takes at htakes
  rw [fireCpPrefetch, htakes]
  exact if_neg h

end Prefetch

/-- Settles O38: each trigger by its checks and its effect. -/
theorem copyTriggers : Obligations.CopyTriggers := by
  intro g x s v t
  refine ⟨fun hf => ?copy, fun hf hroom => ?cstat, fun hf hroom => ?ccancel, fun ops t1 hf htakes => ?prefetch⟩
  case copy =>
    have hexec : exec (.cpCopy g x) s = runMove (.cpCopy g x) g x fireCpCopy s := rfl
    refine ⟨fun hbad => hexec.trans (runMove_fault hf (fireCpCopy_illegal x.hold hbad)),
      fun hgood hfull => hexec.trans (runMove_freeze hf (fireCpCopy_full x.hold hgood hfull)),
      fun hgood hfree hclear => ⟨fun hnone => ?_, fun p hp => ?_⟩,
      fun hgood hfree hheld => hexec.trans (runMove_freeze hf (fireCpCopy_held x.hold hgood hfree ((copyHeld_iff t v).mpr hheld)))⟩
    · exact hexec.trans (runMove_freeze hf (fireCpCopy_noPump x.hold hgood hfree (copyHeld_false hclear) hnone))
    · exact ⟨stageCopy t v p, stagedCopy t v p, hexec.trans (runMove_goes hf (fireCpCopy_stages x.hold hgood hfree (copyHeld_false hclear) hp) rfl),
        rfl, rfl, rfl, rfl, rfl, rfl, rfl, rfl, rfl, rfl, rfl, rfl, rfl, rfl, rfl, rfl, rfl⟩
  case cstat =>
    have hexec : exec (.cpCstat g x) s = runMove (.cpCstat g x) g x fireCpCstat s := rfl
    exact ⟨_, hexec.trans (runMove_goes hf (fireCpCstat_sends s hroom x.hold v) rfl), cstatValue_count, cstatValue_absent,
      fun hone c hc => cstatValue_found hone hc⟩
  case ccancel =>
    have hexec : exec (.cpCcancel g x) s = runMove (.cpCcancel g x) g x fireCpCcancel s := rfl
    obtain ⟨ws, hended⟩ := foldl_endCopy (taggedCopies t v) t
    have hfire := fireCpCcancel_ends s hroom x.hold v
    rw [hended] at hfire
    exact ⟨_, hexec.trans (runMove_goes hf hfire rfl), rfl, rfl, rfl⟩
  case prefetch =>
    have hexec : exec (.cpPrefetch g x) s = runMove (.cpPrefetch g x) g x fireCpPrefetch s := rfl
    refine ⟨fun hlow hhigh => ?_, fun hbad => hexec.trans (runMove_fault hf (fireCpPrefetch_reserved htakes (hbad.imp_left Nat.lt_one_iff.mpr)))⟩
    obtain ⟨wk, ds, hwalks, hbare⟩ := prefetchRange_walks (fld v 0 48) (fld (opAt ops 0) 0 64) (withTile s t1)
    have hfire := fireCpPrefetch_fills (s := s) (v := v) htakes (by omega)
    rw [hwalks] at hfire
    have hrest : AtRest t1 := takeOperands_rest htakes (Fires_rest hf)
    exact ⟨wk, ds, hexec.trans (runMove_ok hf hfire (AtRest_of_ctl hrest rfl)), hbare⟩

end Sys2Proof.Machine
end

section
/-!
PROOF. Elements offered to tiles, and multicast packets (R294-R297): a queue that takes an element, and a multicast packet that is delivered or goes
one router on.
-/
namespace Sys2Proof.Machine
open Sys2Proof.Machine.Claims

/-! ## Elements offered (R296, R297) -/

/-- A tile with an element more at the end of a queue, which counts as received. -/
def takeIn (q : Nat) (v : Vec) (t : Tile) : Tile :=
  { t with net := { t.net with q := tset [] t.net.q q (tget [] t.net.q q ++ [v]), received := t.net.received + 1 } }

/-- A queue with room and nothing in the spillway takes an element. -/
theorem enterQueue_room {q : Nat} {t : Tile} (v : Vec) (hspill : spillCount t q = 0) (hroom : (tget [] t.net.q q).length < 16) :
    enterQueue q v false t = some (takeIn q v t) := if_pos ⟨hspill, hroom⟩

/-- A tile written back is the tile found. -/
theorem tileAt_onTile_put {t : Tile} {d : TileId} (h : t.id = d) (s : State) : tileAt (onTile d (fun s => { s with cur := t }) s) d = t := by
  subst h
  by_cases hd : s.cur.id = t.id
  · rw [← hd, onTile_self _ _ hd.symm]
    exact if_pos hd.symm
  · have hback : tileAt { focus t.id s with cur := t } s.cur.id = s.cur := by
      simp [tileAt, focus, hd, Ne.symm hd]
    have hfocus : (focus s.cur.id { focus t.id s with cur := t }).cur = s.cur := (focus_cur _ _).trans hback
    unfold onTile tileAt
    dsimp only
    rw [hfocus, if_neg hd, focus, if_neg (Ne.symm hd)]
    simp

/-- An element that a tile takes goes into its queue there. -/
theorem offer_room {e : Elem} {d : TileId} {s : State} (hspill : spillCount (tileAt s d) e.q = 0)
    (hroom : (tget [] (tileAt s d).net.q e.q).length < 16) (hquiet : e.ui = false) :
    (offer e d s).1 = true ∧ tget [] (tileAt (offer e d s).2 d).net.q e.q = tget [] (tileAt s d).net.q e.q ++ [e.val] := by
  unfold offer
  rw [hquiet, enterQueue_room e.val hspill hroom]
  dsimp only
  rw [tileAt_onTile_put (t := takeIn e.q e.val (tileAt s d)) (tileAt_id s d)]
  exact ⟨rfl, tget_tset_same ..⟩

/-- An offer changes tiles alone. -/
theorem offer_dev (e : Elem) (j : TileId) (s : State) : (offer e j s).2.dev = s.dev := by
  unfold offer
  split
  · simp [onTile]
  · rfl

theorem offerAll_dev (e : Elem) (s : State) : (offerAll e s).2.dev = s.dev :=
  List.foldlRecOn (motive := fun r : List TileId × State => r.2.dev = s.dev) e.dsts _ rfl fun r hr j _ => (offer_dev e j r.2).trans hr

/-! ## Multicast packets (R295) -/

/-- The multicast packets once every branch of one of them has gone. -/
def struckVc2 (packet : Nat) (vs : List Vc2) : List Vc2 := vs.map fun x => if x.serial = packet then { x with left := [] } else x

/-- The multicast packets without one of them. -/
def othersVc2 (packet : Nat) (vs : List Vc2) : List Vc2 := vs.filter fun x => x.serial != packet

theorem find_struckVc2 {packet : Nat} {vs : List Vc2} {v : Vc2} (h : vs.find? (fun v => decide (v.serial = packet)) = some v) :
    (struckVc2 packet vs).find? (fun v => decide (v.serial = packet)) = some { v with left := [] } := by
  have hv : v.serial = packet := by simpa using List.find?_some h
  have hkeeps : ((fun v : Vc2 => decide (v.serial = packet)) ∘ fun x => if x.serial = packet then { x with left := [] } else x) =
      fun v => decide (v.serial = packet) := by
    funext x
    by_cases hx : x.serial = packet <;> simp [hx]
  rw [struckVc2, List.find?_map, hkeeps, h, Option.map_some, if_pos hv]

theorem othersVc2_struckVc2 (packet : Nat) (vs : List Vc2) : othersVc2 packet (struckVc2 packet vs) = othersVc2 packet vs := by
  induction vs with
  | nil => rfl
  | cons x vs ih =>
    unfold othersVc2 struckVc2 at ih ⊢
    by_cases hx : x.serial = packet <;> simp [hx, ih]

/-- The machine with these multicast packets and this headworks. -/
def putVc2 (vs : List Vc2) (h : Headworks) (s : State) : State := { s with dev := { s.dev with vc2 := vs, hw := h } }

theorem onChan_putVc2 (k v : Nat) (f : Channel → Channel) (vs : List Vc2) (h : Headworks) (s : State) :
    onChan k v f (putVc2 vs h s) = putVc2 vs h (onChan k v f s) := by
  have hlink : linkOf (putVc2 vs h s) k = linkOf s k := rfl
  unfold onChan
  rw [hlink]
  dsimp only
  split <;> rfl

/-- Credits and packets are apart: what goes over links leaves both. -/
theorem goOver_putVc2 (v n : Nat) (ks : List Nat) (vs : List Vc2) (h : Headworks) (s : State) :
    goOver v n ks (putVc2 vs h s) = putVc2 vs h (goOver v n ks s) := by
  induction ks generalizing s with
  | nil => rfl
  | cons k ks ih =>
    cases ks with
    | nil => exact onChan_putVc2 ..
    | cons l ks => exact (congrArg (goOver v n (l :: ks)) (onChan_putVc2 ..)).trans (ih _)

theorem eraseDups_const {α : Type} [DecidableEq α] {l : List α} {a : α} (hne : l ≠ []) (h : ∀ b ∈ l, b = a) : l.eraseDups = [a] := by
  cases l with
  | nil => exact absurd rfl hne
  | cons b l =>
    obtain rfl := h b List.mem_cons_self
    have hrest : l.filter (fun c => !c == b) = [] := List.filter_eq_nil_iff.mpr fun c hc => by simp [h c (List.mem_cons_of_mem _ hc)]
    rw [List.eraseDups_cons, hrest, List.eraseDups_nil]

/-- All destinations of a packet lie on the one branch toward them. -/
theorem branchOf_all {s : State} {v : Vc2} {h : Hop} (hhops : ∀ i ∈ v.left, hopFrom s (v.place / 16) (v.place % 16) i = h) :
    branchOf s v h = v.left := List.filter_eq_self.mpr fun i hi => decide_eq_true (hhops i hi)

theorem filter_notMem_self (l : List TileId) : (l.filter fun j => decide (j ∉ l)) = [] := List.filter_eq_nil_iff.mpr fun i hi => by simp [hi]

/-- A multicast packet whose branches have gone leaves its buffer. -/
def vc2Leave (packet : Nat) (s : State) : State :=
  match s.dev.vc2.find? fun v => decide (v.serial = packet) with
  | some x =>
    if x.left.isEmpty then leaveBuffer 2 packetFlits x.buf { s with dev := { s.dev with vc2 := othersVc2 packet s.dev.vc2 } } else s
  | none => s

section Multicast
variable {packet : Nat} {s : State} {v : Vc2} (hv : s.dev.vc2.find? (fun v => decide (v.serial = packet)) = some v)
include hv

/-- Once struck it leaves, and the packets behind it stay. -/
theorem vc2Leave_struck {s' : State} {tail : List Vc2} (hdev : s'.dev.vc2 = struckVc2 packet s.dev.vc2 ++ tail)
    (htail : ∀ w ∈ tail, w.serial ≠ packet) : vc2Leave packet s' =
      leaveBuffer 2 packetFlits v.buf { s' with dev := { s'.dev with vc2 := othersVc2 packet s.dev.vc2 ++ tail } } := by
  have hfind : s'.dev.vc2.find? (fun v => decide (v.serial = packet)) = some { v with left := [] } := by
    rw [hdev, List.find?_append, find_struckVc2 hv, Option.some_or]
  have hothers : othersVc2 packet s'.dev.vc2 = othersVc2 packet s.dev.vc2 ++ tail := by
    have hkept : othersVc2 packet tail = tail := List.filter_eq_self.mpr fun w hw => by simpa using htail w hw
    rw [hdev, othersVc2, List.filter_append]
    exact congrArg₂ (· ++ ·) (othersVc2_struckVc2 packet s.dev.vc2) hkept
  unfold vc2Leave
  rw [hfind, hothers]
  rfl

/-- At the router of all its destinations they are offered the element. -/
theorem forwardBranch_here (hhops : ∀ i ∈ v.left, hopFrom s (v.place / 16) (v.place % 16) i = .here) : forwardBranch packet s .here =
    let r := offerAll { v.elem with dsts := v.left } (putVc2 (struckVc2 packet s.dev.vc2) s.dev.hw s)
    r.1.foldl (resend v) r.2 := by
  unfold forwardBranch
  rw [hv]
  dsimp only
  rw [branchOf_all hhops, filter_notMem_self]
  rfl

/-- Over the hop of all its destinations a packet goes on with them, under a serial of its own. -/
theorem forwardBranch_across {ks : List Nat} {d r : Nat} (hhops : ∀ i ∈ v.left, hopFrom s (v.place / 16) (v.place % 16) i = .across ks d r) :
    forwardBranch packet s (.across ks d r) =
      putVc2 (struckVc2 packet s.dev.vc2 ++ [{ v with serial := s.dev.hw.serial, place := d * 16 + r, buf := ks.getLast? }])
        { s.dev.hw with serial := s.dev.hw.serial + 1 } (goOver 2 packetFlits ks s) := by
  have hbranch : forwardBranch packet s (.across ks d r) =
      let u := goOver 2 packetFlits ks (putVc2 (struckVc2 packet s.dev.vc2) s.dev.hw s)
      putVc2 (u.dev.vc2 ++ [{ v with serial := u.dev.hw.serial, place := d * 16 + r, buf := ks.getLast? }])
        { u.dev.hw with serial := u.dev.hw.serial + 1 } u := by
    unfold forwardBranch
    rw [hv]
    dsimp only
    rw [branchOf_all hhops, filter_notMem_self]
    rfl
  rw [hbranch, goOver_putVc2]
  rfl

variable {credit : List TileId} (hfirst : vc2First s v = true) (hleft : v.left ≠ []) (hcredit : ∀ i ∈ v.left, i ∈ credit)
include hfirst hleft hcredit

/-- A packet at the head of its buffer with one branch, which is open, forwards there and leaves. -/
theorem vc2Deliver_single {h : Hop} (hhops : ∀ i ∈ v.left, hopFrom s (v.place / 16) (v.place % 16) i = h) (hopen : branchOpen s v h = true) :
    vc2Deliver packet credit s = vc2Leave packet (forwardBranch packet s h) := by
  have hall : (v.left.filter fun j => decide (j ∈ credit)) = v.left := List.filter_eq_self.mpr fun i hi => decide_eq_true (hcredit i hi)
  have hone : (v.left.map fun j => hopFrom s (v.place / 16) (v.place % 16) j).eraseDups = [h] := by
    refine eraseDups_const (by simpa using hleft) fun b hb => ?_
    obtain ⟨i, hi, rfl⟩ := List.mem_map.mp hb
    exact hhops i hi
  unfold vc2Deliver
  rw [hv]
  dsimp only
  rw [hfirst, hall, hone, List.filter_cons_of_pos hopen]
  rfl

/-- A packet at its destinations' router that all of them take is delivered and leaves. -/
theorem vc2Deliver_here (hhops : ∀ i ∈ v.left, hopFrom s (v.place / 16) (v.place % 16) i = .here) (hopen : branchOpen s v .here = true) :
    let r := offerAll { v.elem with dsts := v.left } (putVc2 (struckVc2 packet s.dev.vc2) s.dev.hw s)
    r.1 = [] → vc2Deliver packet credit s =
      leaveBuffer 2 packetFlits v.buf { r.2 with dev := { r.2.dev with vc2 := othersVc2 packet s.dev.vc2 } } := by
  intro r htaken
  have hforward : forwardBranch packet s .here = r.2 := (forwardBranch_here hv hhops).trans (congrArg (List.foldl (resend v) r.2) htaken)
  have hdev : r.2.dev.vc2 = struckVc2 packet s.dev.vc2 ++ [] := (congrArg Device.vc2 (offerAll_dev _ _)).trans (List.append_nil _).symm
  have hleaves := vc2Leave_struck hv hdev (List.forall_mem_nil _)
  rw [List.append_nil] at hleaves
  rw [vc2Deliver_single hv hfirst hleft hcredit hhops hopen, hforward, hleaves]

/-- A packet whose destinations lie over one hop with credit goes there and leaves. -/
theorem vc2Deliver_across {ks : List Nat} {d r : Nat} (hhops : ∀ i ∈ v.left, hopFrom s (v.place / 16) (v.place % 16) i = .across ks d r)
    (hopen : branchOpen s v (.across ks d r) = true) (hserial : packet ≠ s.dev.hw.serial) : vc2Deliver packet credit s =
      leaveBuffer 2 packetFlits v.buf (goOver 2 packetFlits ks
        (putVc2 (othersVc2 packet s.dev.vc2 ++ [{ v with serial := s.dev.hw.serial, place := d * 16 + r, buf := ks.getLast? }])
          { s.dev.hw with serial := s.dev.hw.serial + 1 } s)) := by
  rw [vc2Deliver_single hv hfirst hleft hcredit hhops hopen, forwardBranch_across hv hhops,
    vc2Leave_struck hv rfl (by simpa using hserial.symm), goOver_putVc2]
  rfl

end Multicast

end Sys2Proof.Machine
end

section
/-!
PROOF. The events of copies (R248, R251, R263, R268): an element read, an element written and counted, the end of a copy, and its parking.
-/
namespace Sys2Proof.Machine
open Sys2Proof.Machine.Claims

/-! ## One element (R248, R268) -/

/-- A place outside the slice needs no slot. -/
theorem takeSlot_none {c : Copy} {a : Spot} (h : slotRows c a = []) (s : State) : takeSlot c a s = (true, s) := by
  simp only [takeSlot, h, List.find?_nil, List.isEmpty_nil]

theorem spotEvent_of_copyReadNext {s s1 : State} {c : Copy} {far : Bool} {a : Spot} (h : copyReadNext s c far = .ok (a, s1)) :
    spotEvent s .read a = some s1 := by
  unfold copyReadNext at h
  repeat' split at h
  all_goals cases h
  assumption

theorem spotEvent_of_copyWriteNext {s s1 : State} {c : Copy} {far : Bool} {b : Spot} (h : copyWriteNext s c far = .ok (b, s1)) :
    spotEvent s .write b = some s1 := by
  unfold copyWriteNext at h
  repeat' split at h
  all_goals cases h
  assumption

/-- The cursor past an element: the copy is counted on, and at most a sluice with it. -/
theorem countElement_spec (c : Copy) (n : Nat) (t : Tile) : ∃ sl, countElement c n t = { t with
    copies := t.copies.map fun d => if d.serial = c.serial then
      { d with done := d.done + 1, bytes := d.bytes + copyElem c.desc, poi := d.poi + n, finished := decide (copyTotal c.desc ≤ c.done + 1),
               buf := [], put := 0, rows := none } else d,
    sluices := sl } := by
  unfold countElement
  dsimp only
  split
  · exact ⟨_, rfl⟩
  · exact ⟨t.sluices, rfl⟩

section CopyElement
variable {s : State} {c : Copy} (hc : s.cur.copies.find? (fun d => decide (d.serial = c.serial)) = some c)
include hc

/-- An element that has been read is not read again. -/
theorem readOnly_read (hread : c.isRead = true) : readOnly c.serial none s = s := by
  simp [readOnly, hc, hread]

variable (hgoes : copyGoes s.cur c = true)
include hgoes

/-- An element not yet read is read, and waits in the pump. -/
theorem readOnly_reads {a : Spot} {s1 : State} (hread : c.isRead = false) (hnext : copyReadNext s c false = .ok (a, s1))
    (hrows : slotRows c a = []) :
    let v := spotWalked c false s1
    readOnly c.serial none s =
      onCur (putCopy c.serial fun c => { c with buf := c.buf ++ (copyRead v (copyElem c.desc) [] a).drop c.buf.length, rows := none }) v := by
  have hfar : copyReadNext s c (none : Option (List (Byte × Bool))).isSome = .ok (a, s1) := hnext
  simp only [readOnly, hc, hgoes, hread, Bool.not_false, Bool.and_true, if_true, elementRead, hfar, takeSlot_none hrows, Bool.not_true,
    Bool.false_eq_true, if_false, spotEvent_of_copyReadNext hnext, Option.getD_some, Option.getD_none]

/-- One that has been read is written and counted. -/
theorem writeRead_writes {b : Spot} {s1 s2 : State} {n : Nat} (hread : c.isRead = true) (hchecked : bit s.cur.csr.status 7 = false) (hput : c.put = 0)
    (hnext : copyWriteNext s c false = .ok (b, s1)) (hrows : slotRows c b = [])
    (hwrite : copyWrite (spotWalked c true s1) (copyElem c.desc) c.buf b = some (s2, n)) : writeRead c.serial false s =
      onCur (countElement c n) (recordCopy c (spotBytes (spotWalked c true s1) (copyElem c.desc) b) (spotWalked c true s1) s2) := by
  simp only [writeRead, hc, hgoes, hread, hchecked, Bool.not_true, Bool.or_false, Bool.false_eq_true, if_false, elementPut, hnext, takeSlot_none hrows,
    if_true, spotEvent_of_copyWriteNext hnext, Option.getD_some, moveElement, hput, hwrite]

end CopyElement

/-! ## Completion and parking (R248, R251) -/

/-- The tile once a copy is over, which raises its interrupt where it asks for one (R248). -/
def completedTile (c : Copy) (t : Tile) : Tile := endCopy c.serial (if bit (copyCtl c.desc) 15 then addEvent t 1 (copyTag c.desc) else t)

theorem countCompletion_cur (s : State) (e : Entry) : (countCompletion s e).cur = s.cur := by
  unfold countCompletion
  dsimp only
  split <;> rfl

theorem addEvent_ctl (t : Tile) (cause info : Nat) : ∃ ct, addEvent t cause info = { t with ctl := ct } := by
  unfold addEvent
  split <;> exact ⟨_, rfl⟩

/-- A copy that is over leaves the tile's copies and counts one received message. -/
theorem completedTile_frame (c : Copy) (t : Tile) : ∃ ct ws, completedTile c t = { t with
    ctl := ct, copies := t.copies.filter fun d => decide (d.serial ≠ c.serial), checked := ws,
    net := { t.net with received := t.net.received + 1 } } := by
  unfold completedTile
  split
  · obtain ⟨ct, h⟩ := addEvent_ctl t 1 (copyTag c.desc)
    rw [h]
    exact ⟨ct, _, rfl⟩
  · exact ⟨t.ctl, _, rfl⟩

theorem completedTile_copies (c : Copy) (t : Tile) : (completedTile c t).copies = t.copies.filter fun d => decide (d.serial ≠ c.serial) := by
  obtain ⟨ct, ws, h⟩ := completedTile_frame c t
  rw [h]

theorem completedTile_received (c : Copy) (t : Tile) : (completedTile c t).net.received = t.net.received + 1 := by
  obtain ⟨ct, ws, h⟩ := completedTile_frame c t
  rw [h]

/-- Without an interrupt the control state stays. -/
theorem completedTile_quiet {c : Copy} (h : bit (copyCtl c.desc) 15 = false) (t : Tile) : (completedTile c t).ctl = t.ctl := by
  simp [completedTile, h, endCopy]

/-- With one an event of cause 1 joins the list while it has room. -/
theorem completedTile_event {c : Copy} {t : Tile} (h : bit (copyCtl c.desc) 15 = true) (hroom : t.ctl.events.length < 32) :
    (completedTile c t).ctl.events = t.ctl.events ++ [BitVec.ofNat 24 (65536 + copyTag c.desc % 65536)] := by
  simp [completedTile, h, endCopy, addEvent, hroom]

/-- The machine once the completion of a copy is counted at its destination. -/
def completionCounted (c : Copy) (s : State) : State := match c.dst with | some e => countCompletion s e | none => s

theorem completionCounted_cur (c : Copy) (s : State) : (completionCounted c s).cur = s.cur := by
  unfold completionCounted
  split
  · exact countCompletion_cur s _
  · rfl

theorem completeCopy_ends {s : State} {c : Copy} (hc : s.cur.copies.find? (fun d => decide (d.serial = c.serial)) = some c)
    (hfinished : c.finished = true) : completeCopy c.serial s = withTile (completionCounted c s) (completedTile c s.cur) := by
  have hcur := completionCounted_cur c s
  simp only [completeCopy, hc, hfinished, Bool.not_true, Bool.false_eq_true, if_false]
  rw [← hcur]
  rfl

theorem parkNow_parks {s : State} {c : Copy} {cause : Nat} {d : Bool} (hc : s.cur.copies.find? (fun d => decide (d.serial = c.serial)) = some c)
    (hgoing : c.parked = none) (hleft : c.finished = false) (hstop : copyStop s c = some (cause, d)) :
    parkNow c.serial s = parkCopy c cause d s := by
  simp [parkNow, hc, hgoing, hleft, hstop]

end Sys2Proof.Machine
end

section
/-!
PROOF. The events of counters, circuits, packets and pairs (R263, R292, R294, R297, R311, R362, R365, R366): what each does to the arrival, the
element or the pair that it names.
-/
namespace Sys2Proof.Machine
open Sys2Proof.Machine.Claims

/-! ## Arrivals and additions (R263, R362, R365) -/

/-- A packet arrival or addition is applied at its target with what it carries, and struck off. -/
theorem arrivePacket_applies {s : State} {a : Arrive} {q : TileId × Nat} (ha : s.cur.arrives.find? (fun b => decide (b.serial = a.serial)) = some a)
    (hfree : a.held = false) (hq : packetTarget s.cur a = some q) :
    arrivePacket a.sem a.serial s = onCur (strike a.serial q) (applyArrive a q.1 s) := by
  simp [arrivePacket, ha, hfree, hq]

/-! ## Circuits (R292) -/

/-- A slot that fits the next element of its circuit sends its flit. -/
theorem circuitSlot_sends {s : State} {c : Nat} {e : Elem} {k : Circuit} (he : nextElem s c = some e)
    (hk : s.cur.net.circuits.find? (fun k => k.id == c) = some k) (hfree : c ∉ s.cur.net.slotDone)
    (hslot : k.offs.idxOf s.cur.net.revCount < k.offs.length) (hfits : slotFits e (k.offs.idxOf s.cur.net.revCount) = true) :
    circuitSlot c s =
      let t := putElem e.serial (fun d => if d.age = 0 then { d with age := 1, pair := some (k.offs.idxOf s.cur.net.revCount / 2) }
        else { d with sent := true, age := k.transit }) s.cur
      withTile s { t with net := { t.net with slotDone := c :: t.net.slotDone } } := by
  simp only [circuitSlot, he, hk]
  exact if_neg (by simp [hfree, Nat.not_le.mpr hslot, hfits])

section Arrival
variable {s : State} {e : Elem} {c : Nat} (he : s.cur.net.out.find? (fun d => decide (d.serial = e.serial)) = some e) (hsent : e.sent = true)
  (hcircuit : e.circuit = some c) (hage : e.age = 0)
include he hsent hcircuit hage

/-- Behind an element of its circuit that stands before it an element is refused. -/
theorem circuitArrive_behind (h : ∃ d ∈ s.cur.net.out, d.circuit = some c ∧ d.serial < e.serial) :
    circuitArrive e.serial s = withTile s (putElem e.serial (fun d => { d with sent := false, age := 0 }) s.cur) := by
  have hany : (s.cur.net.out.any fun d => decide (d.circuit = e.circuit ∧ d.serial < e.serial)) = true := by
    simpa only [List.any_eq_true, decide_eq_true_eq, hcircuit] using h
  simp only [circuitArrive, he, hsent, hany]
  exact if_neg (by simp [hcircuit, hage])

/-- The oldest of its circuit is offered to its destinations. -/
theorem circuitArrive_first (h : ∀ d ∈ s.cur.net.out, d.circuit = some c → e.serial ≤ d.serial) : circuitArrive e.serial s =
    onCur (putElem e.serial fun d => { d with dsts := (offerAll e s).1, sent := false, age := 0 }) (offerAll e s).2 := by
  have hany : (s.cur.net.out.any fun d => decide (d.circuit = e.circuit ∧ d.serial < e.serial)) = false := by
    rw [List.any_eq_false]
    rintro d hd hbefore
    obtain ⟨hsame, hlt⟩ := of_decide_eq_true hbefore
    exact absurd (h d hd (hsame.trans hcircuit)) (Nat.not_le.mpr hlt)
  simp only [circuitArrive, he, hsent, hany]
  exact if_neg (by simp [hcircuit, hage])

end Arrival

/-! ## Packets (R294, R297) -/

section Packet
variable {s : State} {e : Elem}

theorem packetRun_succ (serial k : Nat) (s : State) : packetRun serial (k + 1) s =
    match packetOf s serial with | some e => if e.multi then injectMulticast e s else packetRun serial k (packetStep e s) | none => s := rfl

/-- A packet that no longer goes on stays. -/
theorem packetRun_stops {serial : Nat} (h : packetOf s serial = none) (k : Nat) : packetRun serial k s = s := by
  cases k with
  | zero => rfl
  | succ k => rw [packetRun_succ, h]

/-- A packet that can go on for one step makes that step. -/
theorem packetArrive_step (he : packetOf s e.serial = some e) (hone : e.multi = false) {v : State} (hstep : packetStep e s = v)
    (hend : packetOf v e.serial = none) : packetArrive e.serial s = v := by
  have hsucc := packetRun_succ e.serial 31 s
  rw [he] at hsucc
  exact hsucc.trans ((if_neg (by simp [hone])).trans (by rw [hstep, packetRun_stops hend]))

/-- A multicast packet enters the network. -/
theorem packetArrive_multicast (he : packetOf s e.serial = some e) (hmulti : e.multi = true) : packetArrive e.serial s = injectMulticast e s := by
  have hsucc := packetRun_succ e.serial 31 s
  rw [he] at hsucc
  exact hsucc.trans (if_pos hmulti)

variable {i : TileId} {is : List TileId} (hdsts : e.dsts = i :: is)
include hdsts

/-- At its destination's router a packet that is taken is gone. -/
theorem packetStep_taken (hhop : packetHop s e = .here) (htaken : (offer e i (leaveBuffer 0 packetFlits e.buf s)).1 = true) :
    packetStep e s = onCur (putPacket e.serial i fun d => { d with dsts := [] }) (offer e i (leaveBuffer 0 packetFlits e.buf s)).2 := by
  simp only [packetStep, hdsts, hhop, htaken, if_true]

/-- One that is refused goes back. -/
theorem packetStep_refused (hhop : packetHop s e = .here) (hrefused : (offer e i (leaveBuffer 0 packetFlits e.buf s)).1 = false) :
    packetStep e s = onCur (putPacket e.serial i fun d => { d with refused := true, age := 0, place := none, buf := none })
      (returnPacket s.cur.id 32 (e.router s.cur.id).1 (e.router s.cur.id).2 (offer e i (leaveBuffer 0 packetFlits e.buf s)).2) := by
  simp only [packetStep, hdsts, hhop, hrefused, Bool.false_eq_true, if_false]

/-- Elsewhere it goes one router on. -/
theorem packetStep_across {ks : List Nat} {d r : Nat} (hhop : packetHop s e = .across ks d r) :
    packetStep e s = onCur (putPacket e.serial i fun x => { x with place := some (d * 16 + r), buf := ks.getLast? })
      (leaveBuffer 0 packetFlits e.buf (goOver 0 packetFlits ks s)) := by
  simp only [packetStep, hdsts, hhop]

end Packet

/-! ## The comparator (R311) -/

/-- A write that has waited 1,024 cycles behind all of the partner's has waited too long. -/
theorem waitsTooLong_of_mem {s : State} {c : CheckedWrite} (hc : c ∈ s.cur.checked.drop (tileAt s (partnerOf s.cur.id)).checked.length)
    (hage : 1024 ≤ c.age) (hcompares : comparing s = true) : waitsTooLong s = true := by
  rw [waitsTooLong, hcompares, Bool.true_and, List.any_eq_true]
  exact ⟨c, hc, decide_eq_true hage⟩

/-- Settles O52: each event by the lemma about its function. -/
theorem messageEvents : Obligations.MessageEvents := by
  refine ⟨fun e d s hspill hroom hquiet => offer_room hspill hroom hquiet, fun packet credit s v hv hfirst hleft hcredit =>
    ⟨fun hhops hopen htaken => event_congr (vc2Deliver_here hv hfirst hleft hcredit hhops hopen htaken), fun ks d r hhops hopen hserial =>
      event_congr (vc2Deliver_across hv hfirst hleft hcredit hhops hopen hserial)⟩, fun j s => ?_⟩
  intro u t
  refine ⟨fun c hc hgoes => ⟨fun a s1 hread hnext hrows => ?read, fun b s1 s2 n hread hchecked hput hnext hrows hwrite => ?write⟩,
    fun c hc hfinished => ?completes, fun c cause d hc hgoing hleft hstop => event_onTile (parkNow_parks hc hgoing hleft hstop),
    fun a q ha hfree hq => ?arrives, fun a ha => ?releases, fun c e k he hk hfree hslot hfits => event_onTile (circuitSlot_sends he hk hfree hslot hfits),
    fun e c he hsent hcircuit hage => ⟨fun h => event_onTile (circuitArrive_behind he hsent hcircuit hage h),
      fun h => event_onTile (circuitArrive_first he hsent hcircuit hage h)⟩,
    fun e he => ⟨fun i is hone hdsts => ⟨fun hhop htaken hend => ?taken, fun hhop hrefused hend => ?refused, fun ks d r hhop hend => ?across⟩,
      fun hmulti => ?multicast⟩, fun k => event_onTile rfl, fun hdiffers => event_onTile (if_pos hdiffers),
    fun c hc hage hcompares => event_onTile (if_pos (waitsTooLong_of_mem hc hage hcompares))⟩
  case read =>
    exact event_onTile (congrArg (writeRead c.serial false) (readOnly_reads hc hgoes hread hnext hrows))
  case write =>
    obtain ⟨sl, hcount⟩ := countElement_spec c n
      (recordCopy c (spotBytes (spotWalked c true s1) (copyElem c.desc) b) (spotWalked c true s1) s2).cur
    refine ⟨_, event_onTile ((congrArg (writeRead c.serial false) (readOnly_read hc hread)).trans
      (writeRead_writes hc hgoes hread hchecked hput hnext hrows hwrite)), ?_⟩
    rw [hcount]
    exact ⟨rfl, rfl⟩
  case completes =>
    exact ⟨completedTile c t, event_onTile (completeCopy_ends hc hfinished), completedTile_copies c t, completedTile_received c t,
      fun h => completedTile_quiet h t, fun h hroom => completedTile_event h hroom⟩
  case arrives =>
    have happly := arrivePacket_applies ha hfree hq
    refine ⟨fun hsem => event_onTile ?_, fun hsem => event_onTile ?_⟩
    all_goals
      simp only [applyArrive, hsem] at happly
      exact happly
  case releases =>
    have hreleases : (match releasable u with | some a => releaseArrive a.serial u | none => u) = releaseArrive a.serial u := by rw [ha]
    exact event_onTile hreleases
  case taken => exact event_onTile (packetArrive_step he hone (packetStep_taken hdsts hhop htaken) hend)
  case refused => exact event_onTile (packetArrive_step he hone (packetStep_refused hdsts hhop hrefused) hend)
  case across => exact event_onTile (packetArrive_step he hone (packetStep_across hdsts hhop) hend)
  case multicast => exact ⟨_, _, event_onTile (packetArrive_multicast he hmulti), rfl, rfl, rfl⟩

end Sys2Proof.Machine
end

section
/-!
PROOF. The operations of slu (R366-R369): their checks and their effects.
-/
namespace Sys2Proof.Machine
open Sys2Proof.Machine.Claims

/-! ## The operations by code (R367) -/

/-- The operand ports that an operation of slu reads. -/
def sluPorts (code : Nat) : List Nat := if code ∈ [8, 10, 13, 14] then [0] else []

/-- Whether an operation of slu takes units. -/
def sluUnits (code : Nat) : Bool := decide (code ∈ [10, 13, 14])

/-- The group of a sinit lies in the tile's rectangle and holds the tile. -/
def sinitGroup (t : Tile) (w : Word) : Bool :=
  groupLegal t.place (fld w 12 4) (fld w 16 4) (fld w 20 3) (fld w 23 3) &&
    decide (fld w 12 4 ≤ relRow t ∧ relRow t < fld w 12 4 + 2 ^ fld w 20 3 ∧
      fld w 16 4 ≤ relCol t ∧ relCol t < fld w 16 4 + 2 ^ fld w 23 3)

/-- The target of a semadd, where it names one, lies in the rectangle. -/
def semaddTarget (t : Tile) (w : Word) : Bool :=
  !bit w 9 || decide (fld w 12 4 < rectRows t.place ∧ fld w 16 4 < rectCols t.place ∧ fld w 10 2 < t.place.span)

/-- The group check of an operation of slu. -/
def sluGroup (code : Nat) (s : State) (w : Word) : Bool :=
  if code = 8 then sinitGroup s.cur w else if code = 13 then semaddTarget s.cur w else true

/-- The tile once sinit has set a sluice, whose earlier arrivals may complete. -/
def sinitTile (t : Tile) (a : Nat) (w : Word) : Tile :=
  putSluice t (fld w 0 6) (complete { sluiceOf t (fld w 0 6) with
    t := a % 2 ^ 40, row := fld w 12 4, col := fld w 16 4, lh := fld w 20 3, lw := fld w 23 3, span := bit w 26 })

/-- The tile once sreset has cleared a counter. -/
def sresetTile (t : Tile) (w : Word) : Tile :=
  if bit w 6 then putSem t (fld w 0 6) Sem.reset else putSluice t (fld w 0 6) Sluice.reset

theorem sresetTile_ctl (t : Tile) (w : Word) : (sresetTile t w).ctl = t.ctl := by
  unfold sresetTile
  split <;> rfl

/-- The target of a semadd. -/
def semaddTile (s : State) (w : Word) : TileId := if bit w 9 then memberTile s (fld w 10 2) (fld w 12 4) (fld w 16 4) else s.cur.id

/-- The tiles that a release counts up: the target of a semadd, the group of a sluice otherwise. -/
def releaseTargets (code : Nat) (s : State) (w : Word) : List TileId :=
  if code = 13 then [semaddTile s w] else groupOf s (sluiceOf s.cur (fld w 0 6))

/-- A tile with units of a semaphore taken. -/
def semTaken (t : Tile) (i n : Nat) : Tile := putSem t i { semOf t i with val := (semOf t i).val - n }

/-- A tile with a completion of a sluice taken. -/
def sluiceTaken (t : Tile) (i : Nat) : Tile := putSluice t i { sluiceOf t i with p := (sluiceOf t i).p - 1 }

/-- The state once semsub has taken its units of a semaphore. -/
def semsubTaken (s : State) (i n : Nat) : State :=
  onCur (learn 0 (semOf s.cur i).view) (raiseTsc (withTile s (semTaken s.cur i n)) (semOf s.cur i).ts)

/-- What semsub comes to. -/
def semsubEffect (i n : Nat) (s : State) : State :=
  onCur (fun t => deliver t 16 14 0 2 (if decide (n ≤ (semOf s.cur i).val) = true then 1 else 0) none)
    (if decide (n ≤ (semOf s.cur i).val) = true then semsubTaken s i n else s)

/-- The effect of an operation of slu. -/
def sluEffect (code a : Nat) (w : Word) (s : State) : Res State :=
  if code = 8 then .ok (withTile s (sinitTile s.cur a w))
  else if code = 9 then arriveEffect 1 w s
  else if code = 10 then arriveEffect (a % 2 ^ 32) w s
  else if code = 11 then .ok (onCur (fun t => deliver t 16 11 0 2 (stestEffect w s).1 none) (stestEffect w s).2)
  else if code = 12 then .ok (onCur (fun t => sresetTile t w) s)
  else if code = 13 then queueRelease true (fld w 0 6) (a % 2 ^ 32) (scopeOf s.cur.id [semaddTile s w]) [semaddTile s w] s
  else .ok (semsubEffect (fld w 0 6) (a % 2 ^ 32) s)

/-- The destination of an operation of slu. -/
def sluFire (code : Nat) : Fire :=
  fireSlu code (sluPorts code) (decide (code ∈ [11, 14])) (sluUnits code) (sluGroup code) fun _ a w s => sluEffect code a w s

/-- Every operation of slu runs with the checks and the effect of its code. -/
theorem exec_slu {i : Instr} {g : Guard} {x : Src} {code : Nat} (hm : i.move = some (g, x)) (hcode : sluRow i = some code) (s : State) :
    exec i s = runMove i g x (sluFire code) s := by
  cases i <;> cases hcode <;> cases hm <;> rfl

/-! ## The checks (R367) -/

section Checks
variable {code : Nat} {x : Src} {s : State} {v : Vec} {t0 t : Tile} {ops : List Vec} (htakes : Takes t0 16 code x (sluPorts code) ops t)
include htakes

/-- A reserved value of b, or no units, is an illegal encoding. -/
theorem sluFire_illegal (hbad : (sluIllegal code (vecWord v) || (sluUnits code && decide (fld (opAt ops 0) 0 64 % 2 ^ 32 = 0))) = true) :
    sluFire code 1 x.hold v (withTile s t0) = .fault (mkFault 1 16 code 1 0) := by
  unfold Takes at htakes
  rw [sluFire, fireSlu, htakes]
  exact if_pos hbad

variable (hgood : (sluIllegal code (vecWord v) || (sluUnits code && decide (fld (opAt ops 0) 0 64 % 2 ^ 32 = 0))) = false)
include hgood

/-- A group or target off the rectangle is an illegal group. -/
theorem sluFire_offGroup (hoff : sluGroup code (withTile s t0) (vecWord v) = false) :
    sluFire code 1 x.hold v (withTile s t0) = .fault (mkFault 12 16 code 1 0) := by
  unfold Takes at htakes
  rw [sluFire, fireSlu, htakes]
  simp only [Res.bind, hgood, hoff, Bool.false_eq_true, if_false, Bool.not_false, if_true]

/-- Otherwise the operation has its effect, once there is room for its report. -/
theorem sluFire_effect (hin : sluGroup code (withTile s t0) (vecWord v) = true) (hroom : Room t0 16 code (if code ∈ [11, 14] then [0] else [])) :
    sluFire code 1 x.hold v (withTile s t0) = sluEffect code (fld (opAt ops 0) 0 64) (vecWord v) (withTile s t) := by
  unfold Takes at htakes
  unfold Room at hroom
  have haccepts : accepts (withTile s t0).cur 16 code (if decide (code ∈ [11, 14]) = true then [0] else []) = .ok () := by
    simpa only [decide_eq_true_eq] using hroom
  rw [sluFire, fireSlu, htakes]
  simp only [Res.bind, hgood, hin, Bool.false_eq_true, if_false, Bool.not_true, haccepts]

end Checks

/-! ## Consumers (R263, R364, R373) -/

/-- The state `u` has the timebase of the tile's die raised to a timestamp, and is the state `s` beside the timebases and the tile. -/
def Raised (s : State) (t0 : Tile) (ts : Word) (u : State) : Prop :=
  (t0.id.die < s.dev.dies.length → tscOf u = if (tscOf (withTile s t0)).toNat < ts.toNat then ts else tscOf (withTile s t0)) ∧
  { u with dev := { u.dev with dies := s.dev.dies } } = withTile s u.cur ∧ u.cur.id = t0.id

/-- A timebase raised, seen from a tile with the same place. -/
theorem Raised_raiseTsc (s : State) {t0 t : Tile} (hid : t.id = t0.id) (ts : Word) : Raised s t0 ts (raiseTsc (withTile s t) ts) := by
  have htsc : tscOf (withTile s t) = tscOf (withTile s t0) := congrArg (fun j => (dieOf s j).tsc) hid
  rw [Raised, ← htsc]
  by_cases hlt : (tscOf (withTile s t)).toNat < ts.toNat
  · have hraise : raiseTsc (withTile s t) ts = putDie (withTile s t) t.id.die { dieOf (withTile s t) t.id with tsc := ts } := if_pos hlt
    rw [hraise, if_pos hlt]
    refine ⟨fun hdie => ?_, rfl, hid⟩
    rw [← hid] at hdie
    simp [tscOf, dieOf, putDie, setAt, hdie]
  · have hraise : raiseTsc (withTile s t) ts = withTile s t := if_neg hlt
    rw [hraise, if_neg hlt]
    exact ⟨fun _ => rfl, rfl, hid⟩

/-- A consumer of a semaphore takes one unit and is ordered after what it carries. -/
theorem consume_sem (i : Nat) (s : State) (t : Tile) : consume true i (withTile s t) =
    withTile (raiseTsc (withTile s (semTaken t i 1)) (semOf t i).ts) (learn 0 (semOf t i).view (semTaken t i 1)) := by
  simp only [consume, if_true, onCur, raiseTsc_cur, semTaken]

/-- A consumer of a sluice takes one completion and is ordered after what it carries. -/
theorem consume_sluice (i : Nat) (s : State) (t : Tile) : consume false i (withTile s t) =
    withTile (raiseTsc (withTile s (sluiceTaken t i)) (sluiceOf t i).ts) (learn 0 (sluiceOf t i).view (sluiceTaken t i)) := by
  simp only [consume, Bool.false_eq_true, if_false, onCur, raiseTsc_cur, sluiceTaken]

theorem sluiceOf_putSluice (t : Tile) (i j : Nat) (x : Sluice) : sluiceOf (putSluice t i x) j = if j = i then x else sluiceOf t j :=
  tget_tset Sluice.reset t.sluices i j x

theorem semOf_putSem (t : Tile) (i j : Nat) (x : Sem) : semOf (putSem t i x) j = if j = i then x else semOf t j :=
  tget_tset Sem.reset t.sems i j x

/-! ## stest (R369) -/

section Stest
variable {w : Word} (s : State) (t : Tile)

/-- stest of a semaphore that takes a unit. -/
theorem stestEffect_semTaken (hsem : bit w 6 = true) (htake : bit w 7 = true) (hval : 1 ≤ (semOf (completeAll t) (fld w 0 6)).val) :
    stestEffect w (withTile s t) =
      (toVec (((semOf (completeAll t) (fld w 0 6)).val - 1) * 2 ^ 32 + (if (semOf (completeAll t) (fld w 0 6)).ovf then 2 else 0) + 1),
        consume true (fld w 0 6) (withTile s (completeAll t))) := by
  have hsat : satisfied (completeAll t) true (fld w 0 6) = true := decide_eq_true hval
  have hleft : semOf (consume true (fld w 0 6) (withTile s (completeAll t))).cur (fld w 0 6) =
      { semOf (completeAll t) (fld w 0 6) with val := (semOf (completeAll t) (fld w 0 6)).val - 1 } := by
    rw [consume_sem]
    exact (semOf_putSem _ _ _ _).trans (if_pos rfl)
  simp only [stestEffect, hsem, htake, onCur, Bool.not_true, Bool.and_false, Bool.not_false, Bool.and_true, hsat, if_true, hleft]

/-- stest of a semaphore that takes nothing. -/
theorem stestEffect_semKept (hsem : bit w 6 = true) (hkeep : bit w 7 = true → (semOf (completeAll t) (fld w 0 6)).val = 0) :
    stestEffect w (withTile s t) =
      (toVec ((semOf (completeAll t) (fld w 0 6)).val * 2 ^ 32 + if (semOf (completeAll t) (fld w 0 6)).ovf then 2 else 0),
        withTile s (completeAll t)) := by
  have hnone : (bit w 7 && satisfied (completeAll t) true (fld w 0 6)) = false := by
    cases htake : bit w 7 with
    | false => rfl
    | true => exact decide_eq_false (by rw [hkeep htake]; decide)
  simp only [stestEffect, hsem, onCur, Bool.not_true, Bool.and_false, Bool.not_false, Bool.and_true, hnone, Bool.false_eq_true, if_false, if_true, Nat.add_zero]

variable (hsluice : bit w 6 = false)
include hsluice

/-- stest of a sluice's configuration reports it and takes nothing. -/
theorem stestEffect_config (hcfg : bit w 8 = true) :
    let y := sluiceOf (completeAll t) (fld w 0 6)
    let at' := if y.row = 16 then (relRow t, relCol t) else (y.row, y.col)
    stestEffect w (withTile s t) =
      (toVec ((at'.1 % 16 + at'.2 % 16 * 16 + y.lh * 256 + y.lw * 2048 + if y.span then 16384 else 0) * 2 ^ 40 + y.t), withTile s (completeAll t)) := by
  intro y at'
  have hat : (if (sluiceOf (completeAll t) (fld w 0 6)).row = 16 then (relRow (completeAll t), relCol (completeAll t))
      else ((sluiceOf (completeAll t) (fld w 0 6)).row, (sluiceOf (completeAll t) (fld w 0 6)).col)) = at' := rfl
  simp only [stestEffect, hsluice, hcfg, onCur, Bool.not_false, Bool.and_true, Bool.not_true, Bool.and_false, Bool.false_and, Bool.false_eq_true,
    if_false, if_true, hat]
  rfl

variable (hcount : bit w 8 = false)
include hcount

/-- stest of a sluice that takes a completion. -/
theorem stestEffect_sluiceTaken (htake : bit w 7 = true) (hp : 1 ≤ (sluiceOf (completeAll t) (fld w 0 6)).p) :
    let y := sluiceOf (completeAll t) (fld w 0 6)
    stestEffect w (withTile s t) =
      (toVec (y.c * 2 ^ 24 + (y.p - 1) * 2 ^ 16 + (if y.ovf then 2 else 0) + 1), consume false (fld w 0 6) (withTile s (completeAll t))) := by
  intro y
  have hsat : satisfied (completeAll t) false (fld w 0 6) = true := decide_eq_true hp
  have hleft : sluiceOf (consume false (fld w 0 6) (withTile s (completeAll t))).cur (fld w 0 6) = { y with p := y.p - 1 } := by
    rw [consume_sluice]
    exact (sluiceOf_putSluice _ _ _ _).trans (if_pos rfl)
  simp only [stestEffect, hsluice, hcount, htake, onCur, Bool.not_false, Bool.and_true, hsat, Bool.false_eq_true, if_false,
    if_true, hleft]

/-- stest of a sluice that takes nothing. -/
theorem stestEffect_sluiceKept (hkeep : bit w 7 = true → (sluiceOf (completeAll t) (fld w 0 6)).p = 0) :
    let y := sluiceOf (completeAll t) (fld w 0 6)
    stestEffect w (withTile s t) = (toVec (y.c * 2 ^ 24 + y.p * 2 ^ 16 + if y.ovf then 2 else 0), withTile s (completeAll t)) := by
  intro y
  have hnone : (bit w 7 && satisfied (completeAll t) false (fld w 0 6)) = false := by
    cases htake : bit w 7 with
    | false => rfl
    | true => exact decide_eq_false (by rw [hkeep htake]; decide)
  simp only [stestEffect, hsluice, hcount, onCur, Bool.not_false, Bool.and_true, hnone, Bool.false_eq_true, if_false, Nat.add_zero]
  rfl

end Stest

/-! ## Releases (R366) -/

/-- A release as it joins the socket: held, with no target reached. -/
def heldRelease (sem : Bool) (idx units scope : Nat) (targets : List TileId) (k : Nat) : Arrive :=
  { serial := k, sem := sem, idx := idx, units := units, scope := scope, held := true, targets := targets.map fun i => (i, 0), ts := 0, view := [] }

/-- The tile once a release has joined. -/
def joinRelease (a : Arrive) (t : Tile) : Tile := { t with serial := t.serial + 1, arrives := t.arrives ++ [a] }

/-- A release that takes effect, with the timestamp and the writes that it carries. -/
def letGo (s : State) (a : Arrive) : Arrive :=
  { a with held := false, ts := BitVec.ofNat 64 ((tscOf s).toNat + 1), view := knownBy s.cur 0 a.scope,
           targets := a.targets.map fun q => (q.1, ringDue s.cur.wheel s.cur.id q.1) }

/-- The releases of a serial number let go. -/
def letGoAt (s : State) (k : Nat) (a : Arrive) : Arrive := if a.serial = k ∧ a.held = true then letGo s a else a

/-- A release lets go of itself alone where no other bears its serial number. -/
theorem map_letGoAt_fresh (s : State) {as : List Arrive} {k : Nat} (hfresh : ∀ b ∈ as, b.serial ≠ k) : as.map (letGoAt s k) = as := by
  conv_rhs => rw [← List.map_id as]
  exact List.map_congr_left fun b hb => if_neg fun h => hfresh b hb h.1

/-- The counters that a release names. -/
theorem letGo_targets (s : State) (a : Arrive) : (letGo s a).targets.map Prod.fst = a.targets.map Prod.fst := by
  simp [letGo, Function.comp_def]

section Join
variable {s : State} {t : Tile} {a : Arrive} (ha : a.serial = t.serial)
include ha

/-- A release that has just joined takes effect. -/
theorem releaseArrive_joinRelease (hheld : a.held = true) : releaseArrive t.serial (withTile s (joinRelease a t)) =
    withTile s { t with serial := t.serial + 1, arrives := t.arrives.map (letGoAt (withTile s (joinRelease a t)) t.serial) ++
      [letGo (withTile s (joinRelease a t)) a] } := by
  have hlast : (t.arrives ++ [a]).map (letGoAt (withTile s (joinRelease a t)) t.serial) =
      t.arrives.map (letGoAt (withTile s (joinRelease a t)) t.serial) ++ [letGo (withTile s (joinRelease a t)) a] := by
    rw [List.map_append, List.map_singleton, letGoAt, if_pos ⟨ha, hheld⟩]
  rw [← hlast]
  rfl

/-- It finds every LS access before it performed. -/
theorem lsDone_of_releasable (hfresh : ∀ b ∈ t.arrives, b.serial ≠ t.serial)
    (hgo : (releasable (withTile s (joinRelease a t))).map Arrive.serial = some t.serial) : lsDone (withTile s t) t.serial a.scope = true := by
  obtain ⟨b, hb, hserial⟩ := Option.map_eq_some_iff.mp hgo
  have hmem : b ∈ t.arrives ++ [a] := List.mem_of_find?_eq_some hb
  have hba : b = a := (List.mem_append.mp hmem).elim (fun h => absurd hserial (hfresh b h)) List.mem_singleton.mp
  have hdone := List.find?_some hb
  simp only [Bool.and_eq_true] at hdone
  obtain ⟨⟨-, hdone⟩, -⟩ := hdone
  rw [hba, ha] at hdone
  exact hdone

end Join

section Release
variable {sem : Bool} {idx units scope : Nat} {targets : List TileId} {s : State} {t : Tile}

/-- With eight releases held the trigger waits. -/
theorem queueRelease_full (hfull : 8 ≤ (t.arrives.filter fun e => e.held).length) : queueRelease sem idx units scope targets (withTile s t) = .freeze :=
  if_pos hfull

/-- With room a release joins behind the others, and takes effect at once where it may. -/
theorem queueRelease_joins (hfree : (t.arrives.filter fun e => e.held).length < 8) : ∃ as e,
    queueRelease sem idx units scope targets (withTile s t) = .ok (withTile s { t with serial := t.serial + 1, arrives := as ++ [e] }) ∧
    e.sem = sem ∧ e.idx = idx ∧ e.units = units ∧ e.serial = t.serial ∧ e.targets.map Prod.fst = targets ∧
    ((∀ b ∈ t.arrives, b.serial ≠ t.serial) → as = t.arrives ∧ (e.held = false → lsDone (withTile s t) t.serial e.scope = true)) := by
  have hqueue : queueRelease sem idx units scope targets (withTile s t) =
      .ok (if (releasable (withTile s (joinRelease (heldRelease sem idx units scope targets t.serial) t))).map Arrive.serial = some t.serial
        then releaseArrive t.serial (withTile s (joinRelease (heldRelease sem idx units scope targets t.serial) t))
        else withTile s (joinRelease (heldRelease sem idx units scope targets t.serial) t)) := if_neg (Nat.not_le.mpr hfree)
  have htargets : (heldRelease sem idx units scope targets t.serial).targets.map Prod.fst = targets := by simp [heldRelease, Function.comp_def]
  have hserial : (heldRelease sem idx units scope targets t.serial).serial = t.serial := rfl
  rw [hqueue]
  split
  case isTrue hgo =>
    have hdone := fun hfresh => lsDone_of_releasable hserial hfresh hgo
    exact ⟨_, _, congrArg Res.ok (releaseArrive_joinRelease hserial rfl), rfl, rfl, rfl, rfl, (letGo_targets _ _).trans htargets,
      fun hfresh => ⟨map_letGoAt_fresh _ hfresh, fun _ => hdone hfresh⟩⟩
  case isFalse =>
    exact ⟨t.arrives, heldRelease sem idx units scope targets t.serial, rfl, rfl, rfl, rfl, rfl, htargets, fun _ => ⟨rfl, fun h => nomatch h⟩⟩

end Release

/-! ## The statements -/

/-- The checks of an operation of slu as R367 states them: a reserved field of b, or no units. -/
theorem sluBad_iff (code a : Nat) (w : Word) : (sluIllegal code w || (sluUnits code && decide (a % 2 ^ 32 = 0))) = true ↔
    ((code ∈ [13, 14] ∨ (code ∈ [11, 12] ∧ bit w 6 = true)) ∧ 16 ≤ fld w 0 6) ∨ (code = 8 ∧ (4 < fld w 20 3 ∨ 4 < fld w 23 3)) ∨
      (code ∈ [10, 13, 14] ∧ a % 2 ^ 32 = 0) := by
  simp only [sluIllegal, sluUnits, Bool.or_eq_true, Bool.and_eq_true, beq_iff_eq, decide_eq_true_eq, List.mem_cons, List.not_mem_nil, or_false]
  tauto

/-- The group check as R368 states it. -/
theorem sluGroup_iff (code : Nat) (s : State) (t : Tile) (w : Word) : sluGroup code (withTile s t) w = false ↔
    (code = 8 ∧ ¬ (fld w 12 4 % 2 ^ fld w 20 3 = 0 ∧ fld w 16 4 % 2 ^ fld w 23 3 = 0 ∧ fld w 12 4 + 2 ^ fld w 20 3 ≤ rectRows t.place ∧
        fld w 16 4 + 2 ^ fld w 23 3 ≤ rectCols t.place ∧ (fld w 12 4 ≤ relRow t ∧ relRow t < fld w 12 4 + 2 ^ fld w 20 3) ∧
        fld w 16 4 ≤ relCol t ∧ relCol t < fld w 16 4 + 2 ^ fld w 23 3)) ∨
      (code = 13 ∧ bit w 9 = true ∧ ¬ (fld w 12 4 < rectRows t.place ∧ fld w 16 4 < rectCols t.place ∧ fld w 10 2 < t.place.span)) := by
  rw [← Bool.not_eq_true]
  by_cases h8 : code = 8
  · subst h8
    simp only [sluGroup, if_true, sinitGroup, groupLegal, Bool.and_eq_true, beq_iff_eq, decide_eq_true_eq]
    tauto
  · by_cases h13 : code = 13
    · subst h13
      have hgroup : sluGroup 13 (withTile s t) w = semaddTarget t w := rfl
      rw [hgroup]
      cases hnamed : bit w 9 <;> simp [semaddTarget, hnamed]
    · simp [sluGroup, h8, h13]

/-- A sluice as sinit leaves it: target and group set, and as many completions made as its arrivals and its room allow (R363, R368). -/
theorem complete_eq (x : Sluice) : complete x =
    { x with c := x.c - (if x.t = 0 then 0 else min (x.c / x.t) (255 - x.p)) * x.t, p := x.p + if x.t = 0 then 0 else min (x.c / x.t) (255 - x.p) } := by
  by_cases h : x.t = 0
  · simp only [complete, if_pos h, Nat.zero_mul, Nat.sub_zero, Nat.add_zero]
  · simp only [complete, if_neg h]

section Settle
variable {i : Instr} {g : Guard} {x : Src} {code : Nat} {s : State} {v : Vec} {t0 t : Tile} {ops : List Vec}

/-- Where the checks of an operation of slu hold, it runs to its effect. -/
theorem slu_goes (hf : Fires i g x s v t0) (hcode : sluRow i = some code) (htakes : Takes t0 16 code x (sluPorts code) ops t)
    (hgood : (sluIllegal code (vecWord v) || (sluUnits code && decide (fld (opAt ops 0) 0 64 % 2 ^ 32 = 0))) = false)
    (hin : sluGroup code (withTile s t0) (vecWord v) = true) (hroom : Room t0 16 code (if code ∈ [11, 14] then [0] else []))
    {u : State} (heffect : sluEffect code (fld (opAt ops 0) 0 64) (vecWord v) (withTile s t) = .ok u) (hctl : u.cur.ctl = t.ctl) :
    exec i s = .next u := by
  rw [exec_slu hf.isMove hcode]
  exact runMove_ok hf ((sluFire_effect htakes hgood hin hroom).trans heffect) (AtRest_of_ctl (takeOperands_rest htakes (Fires_rest hf)) hctl)

end Settle

/-- Settles O41: the checks of the trigger, then the effect of each operation. -/
theorem counterTriggers : Obligations.CounterTriggers := by
  intro i g x code s v t0 ops t hf hcode htakes w a idx row col lh lw p bad off
  have hbad : (sluIllegal code w || (sluUnits code && decide (a % 2 ^ 32 = 0))) = true ↔ bad := sluBad_iff code a w
  have hoff : sluGroup code (withTile s t0) w = false ↔ off := sluGroup_iff code s t0 w
  have hexec := exec_slu hf.isMove hcode s
  refine ⟨fun h => ?illegal, fun hgood h => ?offGroup, fun hgood hon hroom => ?effect⟩
  case illegal => exact hexec.trans (runMove_fault hf (sluFire_illegal htakes (hbad.mpr h)))
  case offGroup => exact hexec.trans (runMove_fault hf (sluFire_offGroup htakes (Bool.eq_false_iff.mpr (mt hbad.mp hgood)) (hoff.mpr h)))
  case effect =>
    have hlegal := Bool.eq_false_iff.mpr (mt hbad.mp hgood)
    have hin : sluGroup code (withTile s t0) w = true := by simpa using mt hoff.mp hon
    have hgoes : ∀ {u : State}, sluEffect code a w (withTile s t) = .ok u → u.cur.ctl = t.ctl → exec i s = .next u :=
      slu_goes hf hcode htakes hlegal hin hroom
    refine ⟨fun h => ?sinit, fun h => ?sreset, fun h hfull => ?full, fun h hfree => ?release⟩
    case sinit =>
      subst h
      intro old k
      refine ⟨sinitTile t a w, hgoes rfl rfl, ?_, fun j hj => (sluiceOf_putSluice _ _ _ _).trans (if_neg hj), rfl⟩
      exact ((sluiceOf_putSluice _ _ _ _).trans (if_pos rfl)).trans (complete_eq _)
    case sreset =>
      subst h
      exact hgoes rfl (sresetTile_ctl t w)
    case full =>
      have hwaits : sluEffect code a w (withTile s t) = .freeze := by
        simp only [List.mem_cons, List.not_mem_nil, or_false] at h
        obtain rfl | rfl | rfl := h <;> exact queueRelease_full hfull
      exact hexec.trans (runMove_freeze hf ((sluFire_effect htakes hlegal hin hroom).trans hwaits))
    case release =>
      have heffect : sluEffect code a w (withTile s t) = queueRelease (decide (code = 13)) idx (if code = 9 then 1 else a % 2 ^ 32)
          (scopeOf t.id (releaseTargets code (withTile s t) w)) (releaseTargets code (withTile s t) w) (withTile s t) := by
        simp only [List.mem_cons, List.not_mem_nil, or_false] at h
        obtain rfl | rfl | rfl := h <;> rfl
      obtain ⟨as, e, hjoins, hsem, hidx, hunits, hserial, htargets, hfresh⟩ := queueRelease_joins (sem := decide (code = 13)) (idx := idx)
        (units := if code = 9 then 1 else a % 2 ^ 32) (scope := scopeOf t.id (releaseTargets code (withTile s t) w))
        (targets := releaseTargets code (withTile s t) w) (s := s) hfree
      exact ⟨_, as, e, hgoes (heffect.trans hjoins) rfl, rfl, hsem, hidx, hunits, hserial, htargets, rfl, rfl, hfresh⟩

/-! ## Reports (R369) -/

/-- semsub takes its units where the value has them. -/
theorem semsubEffect_taken {i n : Nat} (s : State) {t : Tile} (h : n ≤ (semOf t i).val) : semsubEffect i n (withTile s t) =
    withTile (raiseTsc (withTile s (semTaken t i n)) (semOf t i).ts)
      (deliver (learn 0 (semOf t i).view (semTaken t i n)) 16 14 0 2 (toVec 1) none) := by
  have hone : (1 : Vec) = toVec 1 := rfl
  simp only [semsubEffect, decide_eq_true h, if_true, semsubTaken, onCur, raiseTsc_cur, hone]

/-- semsub answers 0 where the value has not its units. -/
theorem semsubEffect_short {i n : Nat} (s : State) {t : Tile} (h : (semOf t i).val < n) :
    semsubEffect i n (withTile s t) = withTile s (deliver t 16 14 0 2 (toVec 0) none) := by
  have hzero : (0 : Vec) = toVec 0 := rfl
  simp only [semsubEffect, decide_eq_false (Nat.not_le.mpr h), Bool.false_eq_true, if_false, onCur, hzero]

/-- stest sends its report. -/
theorem sluEffect_stest {w : Word} {s u : State} {r : Vec} (a : Nat) (h : stestEffect w s = (r, u)) :
    sluEffect 11 a w s = .ok (withTile u (deliver u.cur 16 11 0 2 r none)) := by
  have heffect : sluEffect 11 a w s = .ok (onCur (fun t => deliver t 16 11 0 2 (stestEffect w s).1 none) (stestEffect w s).2) := rfl
  rw [heffect, h]
  rfl

/-- A stest or semsub of a counter there is passes the check, a semsub with units. -/
theorem sluReport_legal {code a : Nat} {w : Word} (hcodes : code = 11 ∨ code = 14) (hidx : code = 14 ∨ bit w 6 = true → fld w 0 6 < 16)
    (hunits : code = 14 → a % 2 ^ 32 ≠ 0) : (sluIllegal code w || (sluUnits code && decide (a % 2 ^ 32 = 0))) = false := by
  rw [Bool.eq_false_iff, Ne, sluBad_iff]
  obtain rfl | rfl := hcodes
  · rintro (⟨hsem, hlarge⟩ | ⟨hsinit, -⟩ | ⟨hreads, -⟩)
    · exact absurd (hidx (.inr (by simpa using hsem))) (Nat.not_lt.mpr hlarge)
    · cases hsinit
    · simp at hreads
  · rintro (⟨-, hlarge⟩ | ⟨hsinit, -⟩ | ⟨-, hnone⟩)
    · exact absurd (hidx (.inl rfl)) (Nat.not_lt.mpr hlarge)
    · cases hsinit
    · exact hunits rfl hnone

/-- Settles O42: the report of each operation, and what it takes. -/
theorem counterReports : Obligations.CounterReports := by
  intro code i g x s v t0 ops t hi hcode hf htakes hroom w n idx sem u z y raised out hidx hn
  have hcodes : code = 11 ∨ code = 14 := by simpa using hcode
  have hrow : sluRow i = some code := by
    rw [hi]
    obtain rfl | rfl := hcodes <;> rfl
  have hports : (if code = 14 then [0] else []) = sluPorts code := by obtain rfl | rfl := hcodes <;> rfl
  have houts : [0] = if code ∈ [11, 14] then [0] else [] := (if_pos hcode).symm
  rw [hports] at htakes
  rw [houts] at hroom
  have hin : sluGroup code (withTile s t0) w = true := by obtain rfl | rfl := hcodes <;> rfl
  have hlegal : (sluIllegal code w || (sluUnits code && decide (n = 0))) = false := sluReport_legal hcodes hidx hn
  have hgoes : ∀ {u : State}, sluEffect code (fld (opAt ops 0) 0 64) w (withTile s t) = .ok u → u.cur.ctl = t.ctl → exec i s = .next u :=
    slu_goes hf hrow htakes hlegal hin hroom
  have hid : t.id = t0.id := by
    obtain ⟨k, rfl⟩ := takeOperands_socks htakes
    rfl
  refine ⟨fun h14 hle => ?subTaken, fun h14 hlt => ?subShort, fun h11 hsem htake hval => ?semTaken, fun h11 hsem hkeep => ?semKept,
    fun h11 hsluice hcount htake hp => ?sluiceTaken, fun h11 hsluice hcount hkeep => ?sluiceKept, fun h11 hsluice hcfg => ?config⟩
  case subTaken =>
    subst h14
    exact ⟨_, hgoes (congrArg Res.ok (semsubEffect_taken s hle)) rfl, Raised_raiseTsc s (t := semTaken t idx n) hid z.ts⟩
  case subShort =>
    subst h14
    exact hgoes (congrArg Res.ok (semsubEffect_short s hlt)) rfl
  all_goals subst h11
  case semTaken =>
    have heffect := sluEffect_stest (fld (opAt ops 0) 0 64) (stestEffect_semTaken s t hsem htake hval)
    rw [consume_sem] at heffect
    exact ⟨raiseTsc (withTile s (semTaken u idx 1)) z.ts, hgoes heffect rfl, Raised_raiseTsc s (t := semTaken u idx 1) hid z.ts⟩
  case semKept => exact hgoes (sluEffect_stest _ (stestEffect_semKept s t hsem hkeep)) rfl
  case sluiceTaken =>
    have heffect := sluEffect_stest (fld (opAt ops 0) 0 64) (stestEffect_sluiceTaken s t hsluice hcount htake hp)
    rw [consume_sluice] at heffect
    exact ⟨raiseTsc (withTile s (sluiceTaken u idx)) y.ts, hgoes heffect rfl, Raised_raiseTsc s (t := sluiceTaken u idx) hid y.ts⟩
  case sluiceKept => exact hgoes (sluEffect_stest _ (stestEffect_sluiceKept s t hsluice hcount hkeep)) rfl
  case config =>
    have hplace : relRow t0 = relRow t ∧ relCol t0 = relCol t := by
      obtain ⟨k, rfl⟩ := takeOperands_socks htakes
      exact ⟨rfl, rfl⟩
    intro at'
    have hreport := sluEffect_stest (fld (opAt ops 0) 0 64) (stestEffect_config s t hsluice hcfg)
    rw [← hplace.1, ← hplace.2] at hreport
    exact hgoes hreport rfl

end Sys2Proof.Machine
end

section
/-!
PROOF. The operations of net (R291, R293, R294, R299): an element joins the tile's sends, and a count is sent.
-/
namespace Sys2Proof.Machine
open Sys2Proof.Machine.Claims

/-! ## Sends (R291, R293) -/

/-- An element joins the sends under the tile's serial number; beside them only the comparator may take a copy. -/
theorem queueElem_spec (e : Elem) (t : Tile) : ∃ ws, queueElem e t =
    { t with serial := t.serial + 1, checked := ws,
             net := { t.net with out := t.net.out ++ [{ e with serial := t.serial }], sent := t.net.sent + BitVec.ofNat 48 e.dsts.length } } := by
  unfold queueElem
  dsimp only [bumpSerial]
  split
  · exact ⟨_, rfl⟩
  · exact ⟨t.checked, rfl⟩

/-- The values of a circuit that have not left the tile. -/
def unsentOf (t : Tile) (n : Nat) : List Elem := t.net.out.filter fun e => decide (e.circuit = some n) && !e.sent

/-- The element that a send through a circuit makes. -/
def circuitElem (s : State) (k : Circuit) (multi : Bool) (n : Nat) (val : Vec) : Elem :=
  { serial := 0, val := val, q := k.q, ui := k.ui, circuit := some n,
    dsts := (if multi then block k.row k.col (2 ^ k.lh) (2 ^ k.lw) else [(k.row, k.col)]).map fun x => memberTile s s.cur.place.part x.1 x.2,
    sent := false, age := 0, multi := multi, refused := false, fresh := true, pair := none, place := none, buf := none }

section Circuits
variable {code : Nat} {multi : Bool} {x : Src} {s : State} {v : Vec} {t0 t : Tile} {ops : List Vec} (htakes : Takes t0 15 code x [0] ops t)
include htakes

/-- A circuit that is absent faults with its number. -/
theorem fireCircuit_absent (hnone : t0.net.circuits.find? (fun k => k.id == fld v 0 6) = none) :
    fireCircuit code multi 1 x.hold v (withTile s t0) = .fault (mkFault 23 15 code 1 (fld v 0 6)) := by
  unfold Takes at htakes
  rw [fireCircuit, htakes]
  simp only [Res.bind, hnone]

variable {k : Circuit} (hfound : t0.net.circuits.find? (fun k => k.id == fld v 0 6) = some k)
include hfound

/-- So does one of the other kind. -/
theorem fireCircuit_otherKind (hkind : k.multi ≠ multi) :
    fireCircuit code multi 1 x.hold v (withTile s t0) = .fault (mkFault 23 15 code 1 (fld v 0 6)) := by
  unfold Takes at htakes
  rw [fireCircuit, htakes]
  simp only [Res.bind, hfound, bne_iff_ne.mpr hkind, if_true]

variable (hkind : k.multi = multi)
include hkind

/-- Behind four unsent values of the circuit the trigger waits. -/
theorem fireCircuit_full (hfull : 4 ≤ (unsentOf t0 (fld v 0 6)).length) : fireCircuit code multi 1 x.hold v (withTile s t0) = .freeze := by
  unfold Takes at htakes
  unfold unsentOf at hfull
  rw [fireCircuit, htakes]
  simp only [Res.bind, hfound, hkind, bne_self_eq_false, Bool.false_eq_true, if_false, hfull, if_true]

/-- With room the value joins the sends. -/
theorem fireCircuit_sends (hfree : (unsentOf t0 (fld v 0 6)).length < 4) : fireCircuit code multi 1 x.hold v (withTile s t0) =
    .ok (withTile s (queueElem (circuitElem (withTile s t0) k multi (fld v 0 6) (opAt ops 0)) t)) := by
  unfold Takes at htakes
  unfold unsentOf at hfree
  rw [fireCircuit, htakes]
  simp only [Res.bind, hfound, hkind, bne_self_eq_false, Bool.false_eq_true, if_false, Nat.not_le.mpr hfree]
  rfl

end Circuits

/-! ## Packets (R293, R294) -/

/-- A multicast packet names a block of more than 16 rows or columns. -/
def packetReserved (w : Word) : Bool := bit w 28 && (decide (4 < fld w 13 3) || decide (4 < fld w 10 3))

theorem packetReserved_iff (w : Word) : packetReserved w = true ↔ bit w 28 = true ∧ (4 < fld w 13 3 ∨ 4 < fld w 10 3) := by
  simp [packetReserved]

/-- The packets of a tile that have not entered the mesh. -/
def unplacedOf (t : Tile) : List Elem := t.net.out.filter fun e => e.circuit.isNone && e.place.isNone

/-- The element that psend makes. -/
def packetElem (s : State) (w : Word) (val : Vec) : Elem :=
  { serial := 0, val := val, q := fld w 26 2, ui := bit w 29, circuit := none,
    dsts := (if bit w 28 then block (fld w 20 4) (fld w 16 4) (2 ^ fld w 13 3) (2 ^ fld w 10 3) else [(fld w 20 4, fld w 16 4)]).map fun x =>
      memberTile s (fld w 30 2) x.1 x.2,
    sent := false, age := 0, multi := bit w 28, refused := false, fresh := false, pair := none, place := none, buf := none }

section Packets
variable {x : Src} {s : State} {v : Vec} {t0 t : Tile} {ops : List Vec} (htakes : Takes t0 15 10 x [0] ops t)
include htakes

theorem fireNetPsend_reserved (h : packetReserved (vecWord v) = true) :
    fireNetPsend 1 x.hold v (withTile s t0) = .fault (mkFault 1 15 10 1 0) := by
  unfold Takes at htakes
  rw [fireNetPsend, htakes]
  exact if_pos h

variable (hplain : packetReserved (vecWord v) = false)
include hplain

theorem fireNetPsend_illegal (h : packetIllegal t0 (vecWord v) = true) :
    fireNetPsend 1 x.hold v (withTile s t0) = .fault (mkFault 12 15 10 1 0) := by
  unfold Takes at htakes
  rw [fireNetPsend, htakes]
  exact (if_neg (Bool.eq_false_iff.mp hplain)).trans (if_pos h)

variable (hlegal : packetIllegal t0 (vecWord v) = false)
include hlegal

/-- Behind eight packets that have not entered the mesh the trigger waits. -/
theorem fireNetPsend_full (hfull : 8 ≤ (unplacedOf t0).length) : fireNetPsend 1 x.hold v (withTile s t0) = .freeze := by
  unfold Takes at htakes
  rw [fireNetPsend, htakes]
  exact (if_neg (Bool.eq_false_iff.mp hplain)).trans ((if_neg (Bool.eq_false_iff.mp hlegal)).trans (if_pos hfull))

/-- With room the packet joins the sends. -/
theorem fireNetPsend_sends (hfree : (unplacedOf t0).length < 8) : fireNetPsend 1 x.hold v (withTile s t0) =
    .ok (withTile s (queueElem (packetElem (withTile s t0) (vecWord v) (opAt ops 0)) t)) := by
  unfold Takes at htakes
  rw [fireNetPsend, htakes]
  exact (if_neg (Bool.eq_false_iff.mp hplain)).trans ((if_neg (Bool.eq_false_iff.mp hlegal)).trans (if_neg (Nat.not_le.mpr hfree)))

end Packets

/-! ## qcnt (R299) -/

/-- What qcnt answers. -/
def qcntValue (t : Tile) (v : Vec) : Nat :=
  if bit v 2 then t.net.cq.length else (tget [] t.net.q (fld v 0 2)).length + spillCount t (fld v 0 2) * 2 ^ 16

theorem fireNetQcnt_sends (s : State) {t : Tile} (h : Room t 15 11 [0]) (n : Nat) (held : Bool) (v : Vec) :
    fireNetQcnt n held v (withTile s t) = .ok (withTile s (deliver t 15 11 0 2 (toVec (qcntValue t v)) none)) := by
  unfold Room at h
  rw [fireNetQcnt, h]
  rfl

/-- Settles O39: each trigger by its checks, then the element that joins the sends. -/
theorem netTriggers : Obligations.NetTriggers := by
  refine ⟨fun multi i g x s v t0 ops t hi hf htakes => ?circuits, fun g x s v t0 ops t hf htakes => ?packets, fun g x s v t hf hroom => ?counts⟩
  case circuits =>
    have hexec : exec i s = runMove i g x (fireCircuit (if multi then 9 else 8) multi) s := by
      rw [hi]
      cases multi <;> rfl
    refine ⟨fun hnone => hexec.trans (runMove_fault hf (fireCircuit_absent htakes hnone)), fun k hk =>
      ⟨fun hkind => hexec.trans (runMove_fault hf (fireCircuit_otherKind htakes hk hkind)),
        fun hkind hfull => hexec.trans (runMove_freeze hf (fireCircuit_full htakes hk hkind hfull)), fun hkind hfree => ?_⟩⟩
    obtain ⟨ws, hqueue⟩ := queueElem_spec (circuitElem (withTile s t0) k multi (fld v 0 6) (opAt ops 0)) t
    have hfire := (fireCircuit_sends (s := s) htakes hk hkind hfree).trans (congrArg (fun u => Res.ok (withTile s u)) hqueue)
    exact ⟨_, _, hexec.trans (runMove_ok hf hfire (AtRest_of_ctl (takeOperands_rest htakes (Fires_rest hf)) rfl)),
      rfl, rfl, rfl, rfl, rfl, rfl, rfl, rfl, rfl, rfl, rfl, rfl⟩
  case packets =>
    have hexec : exec (.netPsend g x) s = runMove (.netPsend g x) g x fireNetPsend s := rfl
    refine ⟨fun hmulti hlarge => hexec.trans (runMove_fault hf (fireNetPsend_reserved htakes ((packetReserved_iff _).mpr ⟨hmulti, hlarge⟩))), fun hsmall => ?_⟩
    have hplain : packetReserved (vecWord v) = false := by
      rw [Bool.eq_false_iff, Ne, packetReserved_iff]
      rintro ⟨hmulti, hlarge⟩
      have := hsmall hmulti
      omega
    refine ⟨fun h => hexec.trans (runMove_fault hf (fireNetPsend_illegal htakes hplain h)),
      fun hlegal hfull => hexec.trans (runMove_freeze hf (fireNetPsend_full htakes hplain hlegal hfull)), fun hlegal hfree => ?_⟩
    obtain ⟨ws, hqueue⟩ := queueElem_spec (packetElem (withTile s t0) (vecWord v) (opAt ops 0)) t
    have hfire := (fireNetPsend_sends (s := s) htakes hplain hlegal hfree).trans (congrArg (fun u => Res.ok (withTile s u)) hqueue)
    exact ⟨_, _, hexec.trans (runMove_ok hf hfire (AtRest_of_ctl (takeOperands_rest htakes (Fires_rest hf)) rfl)),
      rfl, rfl, rfl, rfl, rfl, rfl, rfl, rfl, rfl, rfl⟩
  case counts =>
    have hexec : exec (.netQcnt g x) s = runMove (.netQcnt g x) g x fireNetQcnt s := rfl
    exact hexec.trans (runMove_goes hf (fireNetQcnt_sends s hroom 1 x.hold v) rfl)

end Sys2Proof.Machine
end

section
/-!
PROOF. The operations of lnk (R269, R300-R303, R339, R342, R348, R349): the operations that join the socket, and the permits.
-/
namespace Sys2Proof.Machine
open Sys2Proof.Machine.Claims

/-! ## An operation joins the socket (R300, R342) -/

/-- An operation of lnk waits in the tile's list under the tile's serial number, a place is kept on y0, and nothing else changes. -/
theorem queueLnk_spec (code : Nat) (arg : Vec) (t : Tile) :
    (queueLnk code arg t).lnk = t.lnk ++ [{ code := code, arg := arg, serial := t.serial }] ∧ (queueLnk code arg t).serial = t.serial + 1 ∧
    (portOf (sockOf (queueLnk code arg t) 18) 0).fifo = (portOf (sockOf t 18) 0).fifo ++ [{ due := .waits t.serial, val := 0, narrowed := none }] ∧
    { queueLnk code arg t with lnk := t.lnk, serial := t.serial, socks := t.socks } = t :=
  ⟨rfl, rfl, (fifo_awaitOn _ 18 0 t.serial 18 0).trans (congrArg _ (if_pos ⟨rfl, rfl⟩)), rfl⟩

/-- The launches of a tile that await an answer. -/
def launchesOf (t : Tile) : List LnkOp := t.lnk.filter fun o => o.code == 8 || o.code == 0

/-- The tile once a launch has joined; on a checked tile the comparator takes a copy of the record (R311). -/
def joinLaunch (a : Vec) (t : Tile) : Tile :=
  let u := queueLnk 8 (toVec (a.toNat % 2 ^ 512)) t
  if bit u.csr.status 7 then
    { u with checked := u.checked ++
      [{ kind := 2, space := 18, addr := 0, data := (vecBytes a).take 64, scope := 3, word := 0, serial := t.serial, age := 0 }] }
  else u

/-- Beside the comparator a launch leaves what any operation of lnk leaves. -/
theorem joinLaunch_eq (a : Vec) (t : Tile) : ∃ ws, joinLaunch a t = { queueLnk 8 (toVec (a.toNat % 2 ^ 512)) t with checked := ws } ∧
    (bit t.csr.status 7 = false → ws = t.checked) := by
  have hstatus : (queueLnk 8 (toVec (a.toNat % 2 ^ 512)) t).csr.status = t.csr.status := rfl
  unfold joinLaunch
  dsimp only
  rw [hstatus]
  cases hchecked : bit t.csr.status 7 with
  | true => exact ⟨_, rfl, fun h => nomatch h⟩
  | false => exact ⟨t.checked, rfl, fun _ => rfl⟩

section Launch
variable {x : Src} {s : State} {v : Vec} {t0 t : Tile} {ops : List Vec} (htakes : Takes t0 18 8 x [0] ops t)
include htakes

/-- A reserved bit of the record is an illegal encoding. -/
theorem fireLnkLaunch_illegal (h : launchIllegal (opAt ops 0) = true) : fireLnkLaunch 1 x.hold v (withTile s t0) = .fault (mkFault 1 18 8 1 0) := by
  unfold Takes at htakes
  rw [fireLnkLaunch, htakes]
  exact if_pos h

variable (hlegal : launchIllegal (opAt ops 0) = false)
include hlegal

/-- Behind four launches that await answers the trigger waits. -/
theorem fireLnkLaunch_full (hfull : 4 ≤ (launchesOf t0).length) : fireLnkLaunch 1 x.hold v (withTile s t0) = .freeze := by
  unfold Takes at htakes
  rw [fireLnkLaunch, htakes]
  exact (if_neg (Bool.eq_false_iff.mp hlegal)).trans (if_pos hfull)

/-- With room it joins. -/
theorem fireLnkLaunch_joins (hfree : (launchesOf t0).length < 4) (hroom : Room t0 18 8 [0]) :
    fireLnkLaunch 1 x.hold v (withTile s t0) = .ok (withTile s (joinLaunch (opAt ops 0) t)) := by
  unfold Takes at htakes
  unfold Room at hroom
  unfold launchesOf at hfree
  rw [fireLnkLaunch, htakes]
  simp only [Res.bind, hlegal, Bool.false_eq_true, if_false, if_neg (Nat.not_le.mpr hfree), hroom]
  rfl

end Launch

/-! ## Mains (R339, R342, R348, R349) -/

/-- The binds and detaches of a tile that await an answer. -/
def bindsOf (t : Tile) : List LnkOp := t.lnk.filter fun o => o.code == 9 || o.code == 10

/-- The destination of an operation on mains. -/
def mainFire (code : Nat) : Fire := if code = 11 then fireLnkMpos else fireMain code

theorem exec_main {i : Instr} {g : Guard} {x : Src} {code : Nat} (hm : i.move = some (g, x)) (hcode : mainRow i = some code) (s : State) :
    exec i s = runMove i g x (mainFire code) s := by
  cases i <;> cases hcode <;> cases hm <;> rfl

section Mains
variable {code : Nat} {s : State} {v : Vec} {t : Tile} (held : Bool)

/-- A reserved field of a main's descriptor is an illegal encoding. -/
theorem mainFire_illegal (hcode : code = 9) (h : mainIllegal v = true) : mainFire code 1 held v (withTile s t) = .fault (mkFault 1 18 9 1 0) := by
  subst hcode
  exact if_pos ⟨rfl, h⟩

variable (hlegal : code = 9 → mainIllegal v = false)
include hlegal

/-- Behind four binds and detaches that await answers a bind or detach waits. -/
theorem mainFire_full (hcode : code ≠ 11) (hfull : 4 ≤ (bindsOf t).length) : mainFire code 1 held v (withTile s t) = .freeze := by
  have hgood : ¬ (code = 9 ∧ mainIllegal v = true) := fun h => Bool.false_ne_true ((hlegal h.1).symm.trans h.2)
  rw [mainFire, if_neg hcode]
  exact (if_neg hgood).trans (if_pos hfull)

/-- With room the operation joins. -/
theorem mainFire_joins (hfree : code ≠ 11 → (bindsOf t).length < 4) (hroom : Room t 18 code [0]) :
    mainFire code 1 held v (withTile s t) = .ok (withTile s (queueLnk code v t)) := by
  unfold Room at hroom
  by_cases hcode : code = 11
  · subst hcode
    have hfire : mainFire 11 1 held v (withTile s t) = (accepts t 18 11 [0]).bind fun _ => .ok (withTile s (queueLnk 11 v t)) := rfl
    rw [hfire, hroom]
    rfl
  · have hgood : ¬ (code = 9 ∧ mainIllegal v = true) := fun h => Bool.false_ne_true ((hlegal h.1).symm.trans h.2)
    have hfire : fireMain code 1 held v (withTile s t) = (accepts t 18 code [0]).bind fun _ => .ok (withTile s (queueLnk code v t)) :=
      (if_neg hgood).trans (if_neg (Nat.not_le.mpr (hfree hcode)))
    rw [mainFire, if_neg hcode, hfire, hroom]
    rfl

end Mains

/-! ## permit (R269, R303) -/

/-- The answer of a permit. -/
def permitAnswer (s : State) (v : Vec) : Nat :=
  if !slotRuns s [clusterOf s.cur.id] (fld v 4 4) then 2
  else if 2 ^ 20 - 1 < tget 0 s.dev.permits (permitKey (clusterOf s.cur.id) (fld v 0 2) (fld v 4 4)) + fld v 16 16 then 1 else 0

theorem permitAnswer_absent {s : State} {v : Vec} (h : slotRuns s [clusterOf s.cur.id] (fld v 4 4) = false) : permitAnswer s v = 2 :=
  if_pos (congrArg Bool.not h)

theorem permitAnswer_runs {s : State} {v : Vec} (h : slotRuns s [clusterOf s.cur.id] (fld v 4 4) = true) : permitAnswer s v =
    if 2 ^ 20 - 1 < tget 0 s.dev.permits (permitKey (clusterOf s.cur.id) (fld v 0 2) (fld v 4 4)) + fld v 16 16 then 1 else 0 :=
  if_neg (by rw [h]; decide)

/-- A first permit finds its pump's queue full. -/
abbrev permitWaits (s : State) (v : Vec) : Prop :=
  tget 0 s.dev.permits (permitKey (clusterOf s.cur.id) (fld v 0 2) (fld v 4 4)) = 0 ∧ 64 ≤ pumpQueue s (clusterOf s.cur.id) (fld v 0 2)

/-- The machine with a permit's count added. -/
def permitAdded (s : State) (v : Vec) : State :=
  let key := permitKey (clusterOf s.cur.id) (fld v 0 2) (fld v 4 4)
  { s with dev := { s.dev with
      permits := tset 0 s.dev.permits key (tget 0 s.dev.permits key + fld v 16 16),
      granted := tset 0 s.dev.granted (tileIndex s.cur.id * 16 + fld v 4 4) (fld v 0 2 + 1) } }

section Permit
variable {s : State} {v : Vec} {t : Tile} (held : Bool)

/-- A count of 0 is an illegal encoding. -/
theorem fireLnkPermit_zero (h : fld v 16 16 = 0) : fireLnkPermit 1 held v (withTile s t) = .fault (mkFault 1 18 12 1 0) := if_pos h

variable (hn : fld v 16 16 ≠ 0) (hroom : Room t 18 12 [0])
include hn hroom

/-- A permit by its answer. -/
theorem fireLnkPermit_eq : fireLnkPermit 1 held v (withTile s t) =
    if permitAnswer (withTile s t) v = 0 ∧ permitWaits (withTile s t) v then .freeze
    else .ok (if permitAnswer (withTile s t) v = 0 then withTile (permitAdded (withTile s t) v) (deliver t 18 12 0 4 (toVec (permitAnswer (withTile s t) v)) none)
      else withTile s (deliver t 18 12 0 4 (toVec (permitAnswer (withTile s t) v)) none)) := by
  unfold Room at hroom
  have haccepts : accepts (withTile s t).cur 18 12 [0] = .ok () := hroom
  rw [fireLnkPermit]
  dsimp only
  rw [if_neg hn, haccepts]
  rfl

/-- Without a main there, or past the limit of the counter, the permit adds nothing. -/
theorem fireLnkPermit_refused {n : Nat} (h : permitAnswer (withTile s t) v = n + 1) :
    fireLnkPermit 1 held v (withTile s t) = .ok (withTile s (deliver t 18 12 0 4 (toVec (n + 1)) none)) := by
  rw [fireLnkPermit_eq held hn hroom, h, if_neg fun hw => Nat.succ_ne_zero n hw.1, if_neg (Nat.succ_ne_zero n)]

variable (hzero : permitAnswer (withTile s t) v = 0)
include hzero

theorem fireLnkPermit_waits (hwaits : permitWaits (withTile s t) v) : fireLnkPermit 1 held v (withTile s t) = .freeze := by
  rw [fireLnkPermit_eq held hn hroom, if_pos ⟨hzero, hwaits⟩]

theorem fireLnkPermit_grants (hgoes : ¬ permitWaits (withTile s t) v) : fireLnkPermit 1 held v (withTile s t) =
    .ok (withTile (permitAdded (withTile s t) v) (deliver t 18 12 0 4 (toVec 0) none)) := by
  rw [fireLnkPermit_eq held hn hroom, if_neg fun hw => hgoes hw.2, if_pos hzero, hzero]

end Permit

/-- Settles O40: each trigger by its checks, then what joins the socket or the permit's answer. -/
theorem linkTriggers : Obligations.LinkTriggers := by
  refine ⟨fun g x s v t0 ops t hf htakes => ?launch, fun i g x code s v t hf hcode => ?mains, fun g x s v t hf => ?permit⟩
  case launch =>
    have hexec : exec (.lnkLaunch g x) s = runMove (.lnkLaunch g x) g x fireLnkLaunch s := rfl
    refine ⟨fun h => hexec.trans (runMove_fault hf (fireLnkLaunch_illegal htakes h)),
      fun hlegal hfull => hexec.trans (runMove_freeze hf (fireLnkLaunch_full htakes hlegal hfull)), fun hlegal hfree hroom => ?_⟩
    obtain ⟨ws, hjoin, hunchecked⟩ := joinLaunch_eq (opAt ops 0) t
    obtain ⟨hlnk, hserial, hfifo, hframe⟩ := queueLnk_spec 8 (toVec ((opAt ops 0).toNat % 2 ^ 512)) t
    have hfire := (fireLnkLaunch_joins (s := s) (v := v) htakes hlegal hfree hroom).trans (congrArg (fun u => Res.ok (withTile s u)) hjoin)
    exact ⟨_, hexec.trans (runMove_ok hf hfire (AtRest_of_ctl (takeOperands_rest htakes (Fires_rest hf)) rfl)), hlnk, hserial, hunchecked, hfifo, hframe⟩
  case mains =>
    have hexec := exec_main hf.isMove hcode s
    refine ⟨fun h9 h => hexec.trans (runMove_fault hf (mainFire_illegal x.hold h9 h)), fun hlegal hfree hroom => ?_,
      fun hlegal h11 hfull => hexec.trans (runMove_freeze hf (mainFire_full x.hold hlegal h11 hfull))⟩
    obtain ⟨hlnk, hserial, hfifo, hframe⟩ := queueLnk_spec code v t
    exact ⟨_, hexec.trans (runMove_goes hf (mainFire_joins x.hold hlegal hfree hroom) rfl), hlnk, hserial, hfifo, hframe⟩
  case permit =>
    have hexec : exec (.lnkPermit g x) s = runMove (.lnkPermit g x) g x fireLnkPermit s := rfl
    intro n key now runs
    refine ⟨fun h => hexec.trans (runMove_fault hf (fireLnkPermit_zero x.hold h)), fun hn hroom => ?_⟩
    refine ⟨fun hruns => ?absent, fun hruns hlarge => ?overflow, fun hruns hfits hwaits => ?waits, fun hruns hfits hgoes => ?grants⟩
    case absent =>
      have hanswer : permitAnswer (withTile s t) v = 1 + 1 := permitAnswer_absent hruns
      exact hexec.trans (runMove_goes hf (fireLnkPermit_refused x.hold hn hroom hanswer) rfl)
    case overflow =>
      have hanswer : permitAnswer (withTile s t) v = 0 + 1 := (permitAnswer_runs hruns).trans (if_pos hlarge)
      exact hexec.trans (runMove_goes hf (fireLnkPermit_refused x.hold hn hroom hanswer) rfl)
    all_goals have hanswer : permitAnswer (withTile s t) v = 0 := (permitAnswer_runs hruns).trans (if_neg (Nat.not_lt.mpr hfits))
    case waits => exact hexec.trans (runMove_freeze hf (fireLnkPermit_waits x.hold hn hroom hanswer hwaits))
    case grants =>
      have hrest : AtRest t := Fires_rest hf
      exact ⟨withTile (permitAdded (withTile s t) v) s.cur, hexec.trans (runMove_ok hf (fireLnkPermit_grants x.hold hn hroom hanswer hgoes) (AtRest_of_ctl hrest rfl)),
        tget_tset_same .., fun k hk => tget_tset_other _ _ _ hk, rfl⟩

end Sys2Proof.Machine
end

section
/-!
PROOF. What a taken exception leads to (R306, R308, R309, R311): the dispositions, and the queues and the node of a fault.
-/
namespace Sys2Proof.Machine
open Sys2Proof.Machine.Claims

/-! ## The dispositions (R306) -/

/-- The trap runtime serves an exception: a service call, or a breakpoint that a debugger holds. -/
def served (f : FaultInfo) (s : State) : Prop :=
  f.cause = 33 ∧ Config.isService f.detail ∨ f.cause = 32 ∧ Config.debuggerHolds (tileIndex s.cur.id) s.fresh

theorem dispose_service {f : FaultInfo} (hcause : f.cause = 33) (hservice : Config.isService f.detail) (s : State) : dispose f s = s :=
  if_pos ⟨hcause, hservice⟩

theorem dispose_breakpoint {f : FaultInfo} {s : State} (hcause : f.cause = 32) (hholds : Config.debuggerHolds (tileIndex s.cur.id) s.fresh) :
    dispose f s = { s with fresh := s.fresh + 1 } :=
  (if_neg (by simp [hcause])).trans (if_pos ⟨hcause, hholds⟩)

section Unserved
variable {f : FaultInfo} {s : State} (hunserved : ¬ served f s)
include hunserved

/-- Any other exception is disposed of by the tile's check and the cause. -/
theorem dispose_unserved : dispose f s =
    if bit s.cur.csr.status 7 && nodeStands s then holdFault f false s
    else if f.cause = 20 ∨ f.cause = 21 then askOwner f s else faultCurNode f.cause f.addr s :=
  (if_neg fun h => hunserved (.inl h)).trans (if_neg fun h => hunserved (.inr h))

/-- On a checked tile of a node that stands it is held (R311). -/
theorem dispose_held (hchecked : bit s.cur.csr.status 7 = true) (hstands : nodeStands s = true) : dispose f s = holdFault f false s := by
  rw [dispose_unserved hunserved, hchecked, hstands]
  rfl

variable (hplain : bit s.cur.csr.status 7 = false ∨ nodeStands s = false)
include hplain

/-- Elsewhere its cause decides. -/
theorem dispose_unheld : dispose f s = if f.cause = 20 ∨ f.cause = 21 then askOwner f s else faultCurNode f.cause f.addr s := by
  have hunheld : (bit s.cur.csr.status 7 && nodeStands s) = false := by
    rw [Bool.and_eq_false_iff]
    exact hplain
  rw [dispose_unserved hunserved, hunheld]
  rfl

/-- A page or permission fault asks the owner (R309). -/
theorem dispose_owner (hcause : f.cause = 20 ∨ f.cause = 21) : dispose f s = askOwner f s := (dispose_unheld hunserved hplain).trans (if_pos hcause)

/-- Any other cause faults the node (R308). -/
theorem dispose_node (h20 : f.cause ≠ 20) (h21 : f.cause ≠ 21) : dispose f s = faultCurNode f.cause f.addr s :=
  (dispose_unheld hunserved hplain).trans (if_neg (not_or.mpr ⟨h20, h21⟩))

end Unserved

/-- A tile that waits for its node's owner. -/
def awaitOwner (f : FaultInfo) (t : Tile) : Tile := { t with run := .owner, ctl := { t.ctl with owner := some f } }

/-- A tile of a node waits with its record on the event ring. -/
theorem askOwner_node {s : State} {n : Node} (h : curNode s = some n) (f : FaultInfo) : askOwner f s =
    eventRecord (recordCtx s s.cur n) (tileRecord n s.cur f.cause 0 f.addr (tscOf s).toNat) (withTile s (awaitOwner f s.cur)) := by
  unfold askOwner
  rw [h]
  rfl

/-- The tile waits, with a node or without. -/
theorem askOwner_cur (f : FaultInfo) (s : State) : (askOwner f s).cur = awaitOwner f s.cur := by
  cases h : curNode s with
  | none =>
    unfold askOwner
    rw [h]
    rfl
  | some n => rw [askOwner_node h, eventRecord_cur]

/-! ## A faulted node (R308) -/

theorem onNodeTiles_dev (n : Node) (f : Tile → Tile) (s : State) : (onNodeTiles n f s).dev = s.dev :=
  List.foldlRecOn (motive := fun u : State => u.dev = s.dev) (nodeTiles n) _ rfl fun u hu i _ => by simp only [onTile, focus_dev, onCur_dev, hu]

/-- A node written back is the one found under its name. -/
theorem find?_replaced {ns : List Node} {n m : Node} (hfound : ns.find? (fun x => decide (x.ref = n.ref)) = some n) (hm : m.ref = n.ref) :
    (ns.map fun x => if x.ref = n.ref then m else x).find? (fun x => decide (x.ref = n.ref)) = some m := by
  have hnames : ((fun x : Node => decide (x.ref = n.ref)) ∘ fun x => if x.ref = n.ref then m else x) = fun x => decide (x.ref = n.ref) := by
    funext x
    by_cases hx : x.ref = n.ref <;> simp [hx, hm]
  rw [List.find?_map, hnames, hfound]
  simp

/-- A completion on its way leaves the nodes and the frozen queues. -/
theorem queueCompletion_hw (n : Node) (st : Nat) (s : State) :
    (queueCompletion n st s).dev.hw.nodes = s.dev.hw.nodes ∧ (queueCompletion n st s).dev.hw.frozenQ = s.dev.hw.frozenQ := by
  unfold queueCompletion
  split <;> exact ⟨rfl, rfl⟩

/-- A faulted node: no stop of it goes on. -/
def faultedNode (n : Node) : Node := { n with state := .faulted, stopping := none, target := none, saving := none }

section Fault
variable {n : Node} (s : State) (hlive : n.state ≠ .ended)
include hlive

/-- The nodes once one is faulted. -/
theorem faultNodeQuiet_nodes : (faultNodeQuiet n s).dev.hw.nodes = s.dev.hw.nodes.map fun m => if m.ref = n.ref then faultedNode n else m := by
  have hdev := onNodeTiles_dev n (leaveNode s.cur.wheel) s
  unfold faultNodeQuiet
  simp only [hlive, if_false, false_or]
  split
  · exact congrArg (fun d : Device => d.hw.nodes.map fun m : Node => if m.ref = n.ref then faultedNode n else m) hdev
  · exact (queueCompletion_hw n 2 _).1.trans (congrArg (fun d : Device => d.hw.nodes.map fun m : Node => if m.ref = n.ref then faultedNode n else m) hdev)

end Fault

/-- The queues once one is frozen. -/
theorem faultNodeQuiet_frozenQ (n : Node) (s : State) : (faultNodeQuiet n s).dev.hw.frozenQ =
    (frozenCtx s n, n.cls, n.prio) :: s.dev.hw.frozenQ.filter fun q => decide (q ≠ (frozenCtx s n, n.cls, n.prio)) := by
  have hqueues := congrArg (fun d : Device => (frozenCtx s n, n.cls, n.prio) :: d.hw.frozenQ.filter fun q => decide (q ≠ (frozenCtx s n, n.cls, n.prio)))
    (onNodeTiles_dev n (leaveNode s.cur.wheel) s)
  unfold faultNodeQuiet
  dsimp only
  split
  · exact hqueues
  · exact (congrArg (fun l => _ :: List.filter _ l) (queueCompletion_hw n 2 _).2).trans hqueues

/-- Settles O26: each disposition by its branch of `dispose`, and a faulted node by its lists. -/
theorem dispositions : Obligations.Dispositions := by
  refine ⟨fun f s => dispose_service (s := s), fun f s => dispose_breakpoint, fun f s hcall hbreak => ?_⟩
  have hunserved : ¬ served f s := by
    rintro (⟨hcause, h⟩ | ⟨hcause, h⟩)
    · exact hcall hcause h
    · exact hbreak hcause h
  refine ⟨fun hchecked hstands => dispose_held hunserved hchecked hstands, fun hplain => ⟨fun hcause => ?owner, dispose_node hunserved hplain⟩,
    fun n hn hlive => ?node⟩
  case owner =>
    rw [dispose_owner hunserved hplain hcause]
    exact ⟨askOwner_cur f s, fun n hn => askOwner_node hn f⟩
  case node =>
    rw [faultNodeQuiet_frozenQ]
    refine ⟨?_, List.mem_cons_self, fun q hq => ?_⟩
    · rw [nodeOf, faultNodeQuiet_nodes s hlive]
      exact find?_replaced (m := faultedNode n) hn rfl
    · simp [hq]

end Sys2Proof.Machine
end

section
/-!
PROOF. The events of the fabric (R323, R377, R380, R381): requests of other endpoints and of this device's tiles, replies, management.
-/
namespace Sys2Proof.Machine
open Sys2Proof.Machine.Claims

/-! ## Requests of other endpoints (R323, R380) -/

/-- Each request of R380 is a packet of its op, with the op of its answer. -/
theorem exec_fabricRequest {q : FabricReq} {e : Instr × Nat × Nat} (he : e ∈ [(Instr.fabricRead q, 1, 0x81), (.fabricWrite q, 2, 0x82),
    (.fabricReleaseWrite q, 3, 0x82), (.fabricAtomic q, 4, 0x84), (.fabricReduction q, 5, 0x85), (.fabricReductionRead q, 6, 0x86),
    (.fabricFenceOrder q, 7, 0x87)]) (s : State) : exec e.1 s = event (request e.2.1 q s) ∧ replyOp e.2.1 = e.2.2 := by
  simp only [List.mem_cons, List.not_mem_nil, or_false] at he
  obtain rfl | rfl | rfl | rfl | rfl | rfl | rfl := he <;> exact ⟨rfl, rfl⟩

/-- Those that access memory are no fence orders. -/
theorem exec_fabricAccess {q : FabricReq} {e : Instr × Nat} (he : e ∈ [(Instr.fabricRead q, 1), (.fabricWrite q, 2), (.fabricReleaseWrite q, 3),
    (.fabricAtomic q, 4), (.fabricReduction q, 5), (.fabricReductionRead q, 6)]) (s : State) : exec e.1 s = event (request e.2 q s) ∧ e.2 ≠ 7 := by
  simp only [List.mem_cons, List.not_mem_nil, or_false] at he
  obtain rfl | rfl | rfl | rfl | rfl | rfl := he <;> exact ⟨rfl, nofun⟩

/-- A request reaches an endpoint that it is not for, or before the assignment. -/
def misdirected (q : FabricReq) (s : State) : Prop :=
  s.dev.fabric.assigned = false ∨ q.ddev.toNat ≠ s.dev.fabric.dev ∨ (q.op.toNat ≠ 7 ∧ ownAddr s q.addr.toNat = false)

/-- The timebase that the answer to a request carries. -/
def requestTime (q : FabricReq) (s : State) : Word := cisternTsc s (cisField q.addr.toNat)

section Serve
variable {q : FabricReq} {s : State}

theorem misdirected_iff : (!s.dev.fabric.assigned ∨ q.ddev.toNat ≠ s.dev.fabric.dev ∨ (q.op ≠ 7 ∧ !ownAddr s q.addr.toNat)) ↔ misdirected q s := by
  have hop : q.op = 7 ↔ q.op.toNat = 7 := (BitVec.toNat_inj (y := 7)).symm
  simp only [misdirected, Bool.not_eq_true', ne_eq, hop]

theorem serveRequest_misdirected (h : misdirected q s) : serveRequest q s = sendReply q (replyOp q.op.toNat) 1 [] 0 s := if_pos (misdirected_iff.mpr h)

variable (hhere : ¬ misdirected q s)
include hhere

theorem serveRequest_malformed (h : malformed q = true) : serveRequest q s = sendReply q (replyOp q.op.toNat) 7 [] (requestTime q s) s :=
  (if_neg (mt misdirected_iff.mp hhere)).trans (if_pos h)

variable (hformed : malformed q = false)
include hformed

theorem serveRequest_answers : serveRequest q s = match earlier s q with
    | some (data, st) => sendReply q (replyOp q.op.toNat) st data (requestTime q s) s
    | none => sendReply q (replyOp q.op.toNat) (edgePerform q s).1 (edgePerform q s).2.1 (requestTime q (edgePerform q s).2.2)
        (remember q (edgePerform q s).2.1 (edgePerform q s).1 (edgePerform q s).2.2) :=
  (if_neg (mt misdirected_iff.mp hhere)).trans (if_neg (Bool.eq_false_iff.mp hformed))

/-- A repeated request is answered again. -/
theorem serveRequest_again {data : List Byte} {st : Nat} (h : earlier s q = some (data, st)) :
    serveRequest q s = sendReply q (replyOp q.op.toNat) st data (requestTime q s) s := by
  rw [serveRequest_answers hhere hformed, h]

/-- A new one is performed, answered and remembered. -/
theorem serveRequest_new (h : earlier s q = none) {st : Nat} {data : List Byte} {u : State} (hperform : edgePerform q s = (st, data, u)) :
    serveRequest q s = sendReply q (replyOp q.op.toNat) st data (requestTime q u) (remember q data st u) := by
  rw [serveRequest_answers hhere hformed, h, hperform]

end Serve

/-! ## What a request does (R380) -/

section Edge
variable {q : FabricReq} {s : State} (hmemory : inWindow q.addr.toNat = false) (hlen : 0 < q.len) (hlast : addrStatus s (q.addr.toNat + q.len - 1) = 0)
include hmemory hlen hlast

theorem edgeRead_reads {bs : List Byte} (h : homeRead s q.addr.toNat q.len = (0, bs)) : edgeRead q s = (0, bs, s) := by
  simp [edgeRead, hmemory, h, hlast, Nat.ne_of_gt hlen]

theorem edgeWrite_writes (h : homeRefuses s q.addr.toNat q.len = 0) : edgeWrite q s = (0, memStore s q.addr.toNat q.data) := by
  simp [edgeWrite, hmemory, h, hlast, Nat.ne_of_gt hlen]

theorem edgePerform_read {bs : List Byte} (hop : q.op = 1) (h : homeRead s q.addr.toNat q.len = (0, bs)) : edgePerform q s = (0, bs, s) := by
  rw [edgePerform, hop]
  exact edgeRead_reads hmemory hlen hlast h

theorem edgePerform_write (hop : q.op = 2) (h : homeRefuses s q.addr.toNat q.len = 0) : edgePerform q s = (0, [], memStore s q.addr.toNat q.data) := by
  rw [edgePerform, hop, edgeWrite_writes hmemory hlen hlast h]
  rfl

theorem edgePerform_release (hop : q.op = 3) (h : homeRefuses s q.addr.toNat q.len = 0) :
    edgePerform q s = (0, [], raiseCistern (memStore s q.addr.toNat q.data) (cisField q.addr.toNat) q.ts) := by
  rw [edgePerform, hop, edgeWrite_writes hmemory hlen hlast h]
  rfl

end Edge

/-! ## Requests of this device's tiles (R259-R261, R323) -/

/-- An access performed at its home, with the time that its reply carries. -/
def performedWith (x : Nat × Vec × State) (ts : Word) (e : GmReq) : GmReq := { e with performed := true, st := x.1, reply := x.2.1, replyTs := ts }

/-- The machine once an access has been performed at its home over the links, before it is marked. -/
def performedHome (r : GmReq) (u : State) : State := homeTime (performHere (askOver r u) r).2.2 r (performHere (askOver r u) r).1

section Perform
variable {u : State} {r : GmReq} {serial : Nat} (hfound : u.cur.gm.find? (fun e => decide (e.serial = serial)) = some r)
include hfound

/-- The grant of a fence that waits for it. -/
theorem grantFence_grants (hfence : r.isFence = true) (hneeds : needsGrant r = true) (hcovered : fenceCovered u r = true) (hwaits : r.performed = false)
    (hzero : u.dev.fabric.dev = 0) : grantFence serial u = onCur (putGm serial fun e => { e with performed := true })
      { u with dev := { u.dev with fabric := { u.dev.fabric with grants := u.dev.fabric.grants + 1 } } } := by
  simp only [grantFence, hfound, hfence, hneeds, hcovered, hwaits, hzero, Bool.not_false, Bool.and_self, decide_true, if_true]

variable (hready : gmReady u r = true) (hlocal : r.remote u = false) (halone : checkedOf u.cur serial = none)
include hready hlocal halone

/-- An access that may go is lost, waits, or is performed, by its way. -/
theorem performGm_goes : performGm serial u =
    if noWay u r && r.posted then loseAccess r u
    else if !askOpen u r then u
    else onCur (putGm serial (performedWith (performHere (askOver r u) r) (replyTime (performedHome r u) r))) (performedHome r u) := by
  have hlets : pairLets u serial = true := by simp [pairLets, halone]
  simp only [performGm, hfound, hready, hlocal, hlets, halone, Option.isNone_none, Bool.not_true, Bool.or_self, Bool.false_eq_true, if_false, Bool.and_true,
    if_true]
  rfl

/-- A posted access without a way is lost. -/
theorem performGm_lost (hnone : noWay u r = true) (hposted : r.posted = true) : performGm serial u = loseAccess r u := by
  rw [performGm_goes hfound hready hlocal halone, hnone, hposted]
  rfl

/-- One that the links take is performed at its home. -/
theorem performGm_performs (hopen : askOpen u r = true) (hway : noWay u r = false) : performGm serial u =
    onCur (putGm serial (performedWith (performHere (askOver r u) r) (replyTime (performedHome r u) r))) (performedHome r u) := by
  rw [performGm_goes hfound hready hlocal halone, hopen, hway]
  rfl

end Perform

/-- A request packet of a tile acts on the access that it names. -/
theorem request_tile {q : FabricReq} {i : TileId} {serial op : Nat} {s v : State} {r : GmReq} (hop : q.op.toNat = op) (htile : q.tile = some (i, serial))
    (hfound : (focus i s).cur.gm.find? (fun e => decide (e.serial = serial)) = some r)
    (hacts : (if op = 7 then grantFence serial (focus i s) else if r.code ∈ opCodes op then performGm serial (focus i s) else focus i s) = v) :
    event (request op q s) = .next (focus s.cur.id v) := by
  have hrequest : request op q s = onTile i (fun s => match s.cur.gm.find? fun e => decide (e.serial = serial) with
      | some r => if op = 7 then grantFence serial s else if r.code ∈ opCodes op then performGm serial s else s
      | none => s) s := by
    rw [request, if_neg (not_not.mpr hop), htile] <;> rfl
  rw [hrequest]
  refine event_onTile ?_
  rw [hfound]
  exact hacts

/-! ## Replies (R221, R244, R251, R380) -/

section Reply
variable {q : FabricReq} {i : TileId} {serial : Nat} {s v : State} (htile : q.tile = some (i, serial))
include htile

/-- A reply reaches the access that it names. -/
theorem exec_fabricReply_access {r : GmReq} (hfound : (focus i s).cur.gm.find? (fun e => decide (e.serial = serial)) = some r)
    (hreply : replyAccess q r (focus i s) = v) : Befalls (.fabricReply q) s v := by
  rw [Befalls, exec_fabricReply, execFabricReply, takeReply, htile]
  refine event_onTile ?_
  rw [hfound]
  exact hreply

/-- A reply reaches the copy that it names. -/
theorem exec_fabricReply_copy {c : Copy} (hnone : (focus i s).cur.gm.find? (fun e => decide (e.serial = serial)) = none)
    (hfound : (focus i s).cur.copies.find? (fun c => decide (c.serial = serial)) = some c) (hop : q.op = 0x81 ∨ q.op = 0x82)
    (hreply : replyCopy q c (focus i s) = v) : Befalls (.fabricReply q) s v := by
  rw [Befalls, exec_fabricReply, execFabricReply, takeReply, htile]
  refine event_onTile ?_
  simp only [hnone, hfound, if_pos hop]
  exact hreply

end Reply

/-- The grant of a fence comes as a reply. -/
theorem replyAccess_fence {q : FabricReq} {r : GmReq} {u : State} (hfence : r.isFence = true) (hop : q.op = 0x87) (hst : q.st = 0) (hneeds : needsGrant r = true)
    (hcovered : fenceCovered u r = true) : replyAccess q r u = onCur (putGm r.serial fun e => { e with performed := true }) u :=
  (if_pos hfence).trans (if_pos ⟨by rw [hop]; rfl, hst, hneeds, hcovered⟩)

/-- A load of another device's memory, answered: what lies here is performed, what lies there is taken from the reply. -/
theorem replyAccess_load {q : FabricReq} {r : GmReq} {u v : State} {got : Vec} (hload : r.code = 8) (hop : q.op = 0x81) (hst : q.st = 0)
    (hremote : r.remote u = true) (hready : gmReady u r = true) (halone : checkedOf u.cur r.serial = none)
    (hhere : performHere u r = (0, got, v)) (hstill : checkedOf v.cur r.serial = none) : replyAccess q r u = replyGm r.serial
      (onCur (putGm r.serial fun e => { e with performed := true, st := 0, reply := got + toVec (placeData r (farLanes u r) q.data), replyTs := q.ts }) v) := by
  have hfence : r.isFence = false := by
    cases h : r.isFence with
    | false => rfl
    | true => simp [GmReq.remote, h] at hremote
  have hposted : r.posted = false := by simp [GmReq.posted, hload]
  have hlets : pairLets u r.serial = true := by simp [pairLets, halone]
  have hcode : ((List.range 8).any fun op => decide (r.code ∈ opCodes op ∧ replyOp op = q.op.toNat)) = true := by
    rw [hload, hop]
    decide
  have hstill' (f : GmReq → GmReq) : checkedOf (onCur (putGm r.serial f) v).cur r.serial = none := hstill
  simp only [replyAccess, hfence, hremote, hready, hlets, hcode, hhere, hst, hposted, Bool.false_eq_true, if_false, Bool.not_true, Bool.or_self, hstill',
    Option.isNone_none, if_true, ne_eq, not_true]
  rfl

section Copy
variable {q : FabricReq} {c : Copy} {u : State} {a : Spot} (hgoes : copyGoes u.cur c = true)
include hgoes

/-- A reply to a read goes to its element. -/
theorem replyCopy_read (hop : q.op = 0x81) (hspot : copySpot u c false c.done = .ok a) (hfar : a.far u = true) (hreads : c.isRead = false) :
    replyCopy q c u = if q.st = 0 ∨ q.st = 3 then elementWrite c.serial (some (q.data.map fun x => (x, q.st == 3))) u
      else parkCopy c (if q.st = 6 then 0 else 26) false u := by
  simp only [replyCopy, hop, if_true, replyRead, hspot, hgoes, hfar, hreads, Bool.not_true, Bool.or_self, Bool.false_eq_true, if_false]

/-- A reply to a write counts its element. -/
theorem replyCopy_write (hop : q.op = 0x82) (hspot : copySpot u c true c.done = .ok a) (hfar : a.far u = true) (hread : c.isRead = true) :
    replyCopy q c u = if q.st = 0 then writeRead c.serial true u
      else if q.st = 4 then
        onCur (fun t => countElement c 0 (failStore t (spotScope u a) false (copyWord (copyDst c.desc) (copyOff c.desc true c.done)))) u
      else parkCopy c (if q.st = 6 then 0 else 26) true u := by
  have hwrite : ¬ q.op = 0x81 := by rw [hop]; decide
  simp only [replyCopy, hwrite, if_false, replyWrite, hspot, hgoes, hfar, hread, Bool.not_true, Bool.or_self, Bool.false_eq_true]

end Copy

/-! ## Management (R377, R381) -/

section Ports
variable {s : State} {port : Nat} (hport : port < 18) (hlive : port ∉ s.dev.fabric.lostPorts)
include hport hlive

theorem sayHello_sends (hnew : port ∉ s.dev.fabric.hello) (htrained : (linkOf s port).trained = true) : sayHello port s = sendManaged
    (leBytes 1 1 ++ leBytes 8 Config.moduleSerial.toNat ++
      (List.range 4).flatMap fun v => leBytes 1 (((tfind (linkOf s port).chans v).map fun c => c.d.toNat).getD 0))
    { s with dev := { s.dev with fabric := { s.dev.fabric with hello := port :: s.dev.fabric.hello } } } := by
  unfold linkOf at htrained
  exact if_neg (by simp [Nat.not_le.mpr hport, hlive, hnew, htrained])

theorem losePort_loses : losePort port s = deviceEventAll 8 0 (sendManaged [BitVec.ofNat 8 4, BitVec.ofNat 8 port]
    (putLink port { linkOf s port with trained := false, dead := true }
      { s with dev := { s.dev with fabric := { s.dev.fabric with lostPorts := port :: s.dev.fabric.lostPorts } } })) :=
  if_neg (by simp [Nat.not_le.mpr hport, hlive])

end Ports

section Assign
variable {dev : Nat} (count : Nat) {s : State} (hdev : dev < 2048)
include hdev

theorem assignDev_first (h : s.dev.fabric.assigned = false) : assignDev dev count s =
    { s with dev := { s.dev with fabric := { s.dev.fabric with dev := dev, assigned := true, domain := count } } } :=
  (if_neg (Nat.not_le.mpr hdev)).trans (if_pos (by rw [h]; rfl))

variable (hassigned : s.dev.fabric.assigned = true)
include hassigned

theorem assignDev_same (h : s.dev.fabric.dev = dev) : assignDev dev count s = s :=
  (if_neg (Nat.not_le.mpr hdev)).trans ((if_neg (by rw [hassigned]; decide)).trans (if_pos h))

theorem assignDev_other (h : s.dev.fabric.dev ≠ dev) : assignDev dev count s =
    logRefusal s (windowPlace s) { addr := 0, ctx := 0, pos := 0xFFFF, kind := 0, time := cisternTsc s 0, st := 7 } :=
  (if_neg (Nat.not_le.mpr hdev)).trans ((if_neg (by rw [hassigned]; decide)).trans (if_neg h))

end Assign

/-- Settles O58: each request by whom it comes from and what it names, each reply by what it names, and management. -/
theorem fabricEvents : Obligations.FabricEvents := by
  refine ⟨fun q s => ⟨fun e he hop htile => ?serves, fun hmemory hlen hlast => ⟨fun bs hread h => edgePerform_read hmemory hlen hlast hread h, fun h =>
    ⟨fun hwrite => edgePerform_write hmemory hlen hlast hwrite h, fun hrelease => edgePerform_release hmemory hlen hlast hrelease h⟩⟩,
    fun htile hop => ?reserved, fun i serial htile => ⟨fun r hfound => ⟨fun e he hop hcode hready hlocal halone => ?performs,
      fun hfence hneeds hcovered => ⟨fun hop hwaits hzero => ?grants, fun hop hst hserial => ?granted⟩,
      fun hload hop hst hserial hremote hready halone got v hhere hstill => ?loads⟩, fun c hnone hfound hgoes => ?copies⟩⟩,
    fun s => ⟨fun port hport hlive => ⟨fun hnew htrained => event_congr (sayHello_sends hport hlive hnew htrained),
      event_congr (losePort_loses hport hlive)⟩, fun d count hdev => ⟨fun h => event_congr (assignDev_first count hdev h),
        fun hassigned h => event_congr (assignDev_same count hdev hassigned h), fun hassigned h => event_congr (assignDev_other count hdev hassigned h)⟩⟩⟩
  case serves =>
    intro wrong now
    obtain ⟨hexec, hreply⟩ := exec_fabricRequest he s
    have hserve : request e.2.1 q s = serveRequest q s := by
      rw [request, if_neg (not_not.mpr hop), htile]
    have hwrong : wrong ↔ misdirected q s := by rw [misdirected, hop]
    rw [hexec, hserve, ← hreply, ← hop, hwrong]
    exact ⟨fun h => event_congr (serveRequest_misdirected h), fun hhere h => event_congr (serveRequest_malformed hhere h), fun hhere hformed =>
      ⟨fun data st h => event_congr (serveRequest_again hhere hformed h), fun h st data u hperform =>
        event_congr (serveRequest_new hhere hformed h hperform)⟩⟩
  case reserved =>
    simp only [List.mem_cons, List.not_mem_nil, or_false, not_or] at hop
    exact event_congr (if_neg (by simp only [htile, Option.isSome_none, Bool.false_eq_true, or_false]; omega))
  case performs =>
    obtain ⟨hexec, hmemory⟩ := exec_fabricAccess he s
    have hacts {v : State} (h : performGm serial (focus i s) = v) : Befalls e.1 s v :=
      hexec.trans (request_tile hop htile hfound ((if_neg hmemory).trans ((if_pos hcode).trans h)))
    exact ⟨fun hnone hposted => hacts (performGm_lost hfound hready hlocal halone hnone hposted),
      fun hopen hway => hacts (performGm_performs hfound hready hlocal halone hopen hway)⟩
  case grants => exact request_tile (by rw [hop]; rfl) htile hfound (grantFence_grants hfound hfence hneeds hcovered hwaits hzero)
  case granted =>
    subst hserial
    exact exec_fabricReply_access htile hfound (replyAccess_fence hfence hop hst hneeds hcovered)
  case loads =>
    subst hserial
    exact exec_fabricReply_access htile hfound (replyAccess_load hload hop hst hremote hready halone hhere hstill)
  case copies =>
    refine ⟨fun a hop hspot hfar hreads => ?_, fun b hop hspot hfar hread => ?_⟩
    · have hreply := replyCopy_read hgoes hop hspot hfar hreads
      exact ⟨fun h => exec_fabricReply_copy htile hnone hfound (.inl hop) (hreply.trans (if_pos h)),
        fun h0 h3 => exec_fabricReply_copy htile hnone hfound (.inl hop) (hreply.trans (if_neg (not_or.mpr ⟨h0, h3⟩)))⟩
    · have hreply := replyCopy_write hgoes hop hspot hfar hread
      exact ⟨fun h => exec_fabricReply_copy htile hnone hfound (.inr hop) (hreply.trans (if_pos h)),
        fun h => exec_fabricReply_copy htile hnone hfound (.inr hop) (hreply.trans ((if_neg (by rw [h]; decide)).trans (if_pos h))),
        fun h0 h4 => exec_fabricReply_copy htile hnone hfound (.inr hop) (hreply.trans ((if_neg h0).trans (if_neg h4)))⟩

end Sys2Proof.Machine
end

section
/-!
PROOF. Stores into the command window (R381-R383): refusals, the page that a store holds, and what an offset of a page does.
-/
namespace Sys2Proof.Machine
open Sys2Proof.Machine.Claims

/-! ## What an offset of a page does (R382, R383) -/

section Offsets
variable {page off : Nat} (v : Word) (s : State)

theorem storePage_kick (hpage : page ≠ 0) : storePage page 0 v s = some (storeKick page v s) := if_pos ⟨rfl, hpage⟩

theorem storePage_command (page : Nat) : storePage page 0x40 v s = some (storeCommand page v s) := by
  rw [storePage, if_neg (by simp), if_pos rfl]

theorem storePage_argument (page : Nat) {i : Nat} (hi : i < 7) : storePage page (0x48 + 8 * i) v s =
    some { s with dev := { s.dev with window := { s.dev.window with args := tset 0 s.dev.window.args (page * 8 + i) v } } } := by
  have hindex : (0x48 + 8 * i - 0x48) / 8 = i := by omega
  rw [storePage, if_neg (by omega), if_neg (by omega), if_pos (by omega), hindex]

theorem storePage_ringAddr : storePage 0 8 v s = some { s with dev := { s.dev with window := { s.dev.window with ringAddr := v } } } := rfl

theorem storePage_ringDepth : storePage 0 16 v s = some { s with dev := { s.dev with window := { s.dev.window with ringDepth := v } } } := rfl

theorem storePage_deviceKick : storePage 0 0 v s = none := rfl

theorem storePage_undefined (page : Nat) (h : off % 8 ≠ 0 ∨ 0x80 ≤ off) : storePage page off v s = none := by
  rw [storePage, if_neg (by omega), if_neg (by omega), if_neg (by omega), if_neg (by omega), if_neg (by omega)]

end Offsets

/-! ## A store of an endpoint (R381, R382) -/

/-- The machine once an endpoint holds a page. -/
def holdPage (page sender : Nat) (s : State) : State :=
  { s with dev := { s.dev with window := { s.dev.window with grants := tset 0 s.dev.window.grants page (sender + 1) } } }

section Store
variable {sender off size : Nat} {v : Word} {s : State}

theorem windowStore_unassigned (h : s.dev.fabric.assigned = false) : windowStore sender off size v s = (1, s) := if_pos (by rw [h]; rfl)

variable (hassigned : s.dev.fabric.assigned = true)
include hassigned

/-- A page that another endpoint holds refuses the store. -/
theorem windowStore_held (howner : tget 0 s.dev.window.grants (off / 4096) ≠ 0) (hother : tget 0 s.dev.window.grants (off / 4096) ≠ sender + 1) :
    windowStore sender off size v s = (5, logWindow s off 10 5) :=
  (if_neg (by rw [hassigned]; decide)).trans (if_pos ⟨howner, hother⟩)

variable (hfree : tget 0 s.dev.window.grants (off / 4096) = 0 ∨ tget 0 s.dev.window.grants (off / 4096) = sender + 1)
include hfree

/-- A page that is free, or that the endpoint holds, takes the store where its size and offset are defined. -/
theorem windowStore_own : windowStore sender off size v s =
    match if size = 8 then storePage (off / 4096) (off % 4096) v s else none with
    | none => (7, logWindow s off 10 7)
    | some u => (0, holdPage (off / 4096) sender u) :=
  (if_neg (by rw [hassigned]; decide)).trans (if_neg (by tauto))

theorem windowStore_undefined (h : (if size = 8 then storePage (off / 4096) (off % 4096) v s else none) = none) :
    windowStore sender off size v s = (7, logWindow s off 10 7) := by
  rw [windowStore_own hassigned hfree, h]

theorem windowStore_acts {u : State} (hsize : size = 8) (h : storePage (off / 4096) (off % 4096) v s = some u) :
    windowStore sender off size v s = (0, holdPage (off / 4096) sender u) := by
  rw [windowStore_own hassigned hfree, if_pos hsize, h]

end Store

/-- The packet of a store that arrives alone. -/
def windowRequest (sender : BitVec 16) (off : BitVec 24) (size : Nat) (v : Word) (s : State) : FabricReq :=
  { op := 2, st := 0, sdev := sender, ddev := BitVec.ofNat 16 s.dev.fabric.dev,
    addr := BitVec.ofNat 64 (s.dev.fabric.dev * 2 ^ 52 + 0xFF0000000000 + off.toNat), tag := 0, ctl := 0, fn := 0, ts := 0,
    data := leBytes size v.toNat, len := size, tile := none }

/-- A store that arrives alone ends with the reply to what it came to. -/
theorem exec_commandWindowWrite_replies {sender : BitVec 16} {off : BitVec 24} {size st : Nat} {v : Word} {s u : State}
    (h : windowStore sender.toNat off.toNat size v s = (st, u)) : exec (.commandWindowWrite sender off size v) s =
      .next (sendReply (windowRequest sender off size v s) 0x82 st [] (cisternTsc u 0) u) := by
  rw [exec_commandWindowWrite, execCommandWindowWrite, windowWrite, h]
  rfl

/-! ## A command word (R383) -/

section Word
variable {page : Nat} {word : Word} {s : State} (hctx : page = 0 ∨ (ctxOf s page).isSome = true)
include hctx

/-- A page with a context takes a command word, the device page always. -/
theorem storeCommand_takes : storeCommand page word s =
    if (commandsOf s page).length < 16 then pushOrder page false
      { s with dev := { s.dev with window := { s.dev.window with cmds := tset [] s.dev.window.cmds page (commandsOf s page ++ [(word, pageArgs s page)]) } } }
    else if page = 0 then commandRefused 0 (fld word 56 8) 6 (word.setWidth 56) s else deviceEvent page 6 0 s := by
  have htakes : ¬ (page ≠ 0 ∧ (ctxOf s page).isNone = true) := by
    rintro ⟨hpage, hnone⟩
    cases h : ctxOf s page <;> simp_all
  rw [storeCommand, if_neg htakes]

/-- A queue of 16 is full. -/
theorem storeCommand_full (hfull : 16 ≤ (commandsOf s page).length) : storeCommand page word s =
    if page = 0 then commandRefused 0 (fld word 56 8) 6 (word.setWidth 56) s else deviceEvent page 6 0 s :=
  (storeCommand_takes hctx).trans (if_neg (Nat.not_lt.mpr hfull))

end Word

/-- Settles O59: a store by its refusals and its offset, a command word by the room in its page's queue. -/
theorem commandWindowEvents : Obligations.CommandWindowEvents := by
  refine ⟨fun sender off size v s => ⟨windowRequest sender off size v s, rfl, rfl, rfl, ?store⟩, fun p word s hassigned hctx => ?word⟩
  case store =>
    intro page owner held ends
    refine ⟨fun h => exec_commandWindowWrite_replies (windowStore_unassigned h), fun hassigned => ⟨fun howner hother =>
      exec_commandWindowWrite_replies (windowStore_held hassigned howner hother), fun hfree => ?_⟩⟩
    have hundefined (h : (if size = 8 then storePage page (off.toNat % 4096) v s else none) = none) : ends 7 (logWindow s off.toNat 10 7) :=
      exec_commandWindowWrite_replies (windowStore_undefined hassigned hfree h)
    refine ⟨fun hsize => hundefined (if_neg hsize), fun hsize => ?_⟩
    intro o
    have hacts {u : State} (h : storePage page o v s = some u) : ends 0 (held u) :=
      exec_commandWindowWrite_replies (windowStore_acts hassigned hfree hsize h)
    refine ⟨fun hpage ho => hacts ?_, fun ho => hacts ?_, fun i hi ho => hacts ?_, fun hpage ho => hacts ?_, fun hpage ho => hacts ?_,
      fun hpage ho => hundefined ((if_pos hsize).trans ?_), fun ho => hundefined ((if_pos hsize).trans (storePage_undefined v s page ho))⟩
    · rw [ho, storePage_kick v s hpage]
    · rw [ho, storePage_command]
    · rw [ho, storePage_argument v s page hi]
    · rw [hpage, ho, storePage_ringAddr]
    · rw [hpage, ho, storePage_ringDepth]
    · exact (congrArg₂ (fun p o => storePage p o v s) hpage ho).trans (storePage_deviceKick v s)
  case word =>
    have hpage : p.toNat = 0 ∨ (ctxOf s p.toNat).isSome = true := hctx.imp_left fun h => congrArg BitVec.toNat h
    have hexec : exec (.commandWordStore p word) s = .next (storeCommand p.toNat word s) := event_congr (if_pos hassigned)
    have hzero : p.toNat = 0 ↔ p = 0 := BitVec.toNat_inj (y := 0)
    rw [hexec]
    refine ⟨fun hroom => congrArg _ ((storeCommand_takes hpage).trans (if_pos hroom)), fun hfull => ?_⟩
    rw [storeCommand_full hpage hfull]
    exact ⟨fun h => congrArg _ (if_pos (hzero.mpr h)), fun h => congrArg _ (if_neg (mt hzero.mp h))⟩

end Sys2Proof.Machine
end
